-- ==== Sys2Proof/Word.lean ====
section
/-!
DEFINITION. The bytes the card, the host and the flash modules exchange.
-/

namespace Sys2Proof

/-- One byte of a buffer, a ring record or a sheet image. -/
abbrev Byte := BitVec 8

/-- A run of bytes in address order: a fetched record or buffer, a layout of the Formats chapter, a sheet image. -/
abbrev Bytes := List Byte

end Sys2Proof
end

