-- ==== Sys2Proof/Syntax.lean ====
section
/-!
DEFINITION. The commands of the Alprum CA2: one constructor of `Instr` per row of spec/opcode_table.json, with the
operands the event brings from outside the part (what the host wrote, what a DMA read found, what a module reported).
A request's own parameters are no operands of its row: they come in the bytes that FETCH_DONE brings (R167, R187),
and the row names the request channel whose handed request its owning unit takes.
-/

namespace Sys2Proof

/-- What one slot of the array holds on the media (R95, R178): nothing (erased), or an image, and perhaps its void mark. -/
structure Cell where
  image : Option Bytes
  voided : Bool
  deriving DecidableEq, Repr

/-- The end of a program of a sheet by the status of R92. A failed program leaves in the slot whatever `found` says. -/
inductive ProgramEnd where
  | passed
  | failed (found : Cell)
  deriving DecidableEq, Repr

/-- The end of a void mark or a retire mark. After a failed one the mark stands on the media or not. -/
inductive MarkEnd where
  | passed
  | failed (marked : Bool)
  deriving DecidableEq, Repr

/-- The end of a clear. After a failed one each listed slot (0 .. 63) of the extent holds what is listed for it. -/
inductive ClearEnd where
  | passed
  | failed (found : List (Nat × Cell))
  deriving DecidableEq, Repr

/-- The end of a media read: the slot's image as it stands on the media, an image the module altered, or a module status of failed. -/
inductive ReadEnd where
  | asStored
  | altered (image : Bytes)
  | statusFailed
  deriving DecidableEq, Repr

/-- What an operation that did not end (a timeout, a loss of power) left on the media: the contents of the slots it worked
on (by slot number in the extent), and whether the mark it was to program stands. -/
structure Torn where
  found : List (Nat × Cell)
  marked : Bool
  deriving DecidableEq, Repr

/-- The host memory access of the card that failed (R172). -/
inductive HostAccess where
  | ringFetch
  | responseWrite
  | buffer
  deriving DecidableEq, Repr

/-- The configuration window fields that REGISTER_WRITE can name (R166, R185): every field but the response ring entries,
the request fill index and the response consume index, which have rows of their own. -/
inductive WindowField where
  | requestBase
  | requestEntries
  | responseBase
  | requestConsume
  | responseFill
  | pad
  deriving DecidableEq, Repr

/-- Who waits on a pending amendment entry (R118, R123): a cursor's read, or a LOOKUP CALL by the serial number of its request. -/
inductive Waiter where
  | cursor (number : Fin 16)
  | lookup (request : Nat)
  deriving DecidableEq, Repr

/-- The commands: one constructor per row of spec/opcode_table.json, in the table's order. `ch` is a request channel,
`mc` a media channel. -/
inductive Instr where
  | powerOn (torn : List (Fin 4 × Torn))
  | portReset
  | setupEvent (ch : Fin 4) (value : BitVec 32)
  | requestFillIndexWrite (ch : Fin 4) (value : BitVec 32)
  | responseConsumeIndexWrite (ch : Fin 4) (value : BitVec 32)
  | registerWrite (ch : Fin 4) (field : WindowField) (value : BitVec 64)
  | vectorUnmask (ch : Fin 4)
  | requestFetch (ch : Fin 4)
  | fetchDone (ch : Fin 4) (record buffer : Bytes)
  | responseWrite (ch : Fin 4)
  | responseWriteDone (ch : Fin 4)
  | interruptDelayExpiry (ch : Fin 4)
  | hostAccessFailure (ch : Fin 4) (access : HostAccess)
  | bufferWriteDone (ch : Fin 4)
  | abandonBatch (ch : Fin 4)
  | abandonFile (ch : Fin 4)
  | amend (ch : Fin 4)
  | amendClose (ch : Fin 4)
  | archiveReset (ch : Fin 4)
  | auditDay (ch : Fin 4)
  | closeCursor (ch : Fin 4)
  | closeDay (ch : Fin 4)
  | closeFile (ch : Fin 4)
  | configure (ch : Fin 4)
  | dayRoll (ch : Fin 4)
  | dayState (ch : Fin 4)
  | fileState (ch : Fin 4)
  | forgetFile (ch : Fin 4)
  | holdState (ch : Fin 4)
  | ingestParcel (ch : Fin 4)
  | lookupCall (ch : Fin 4)
  | openCursor (ch : Fin 4)
  | openFile (ch : Fin 4)
  | placeHold (ch : Fin 4)
  | forward (ch : Fin 4)
  | skipForward (ch : Fin 4)
  | backward (ch : Fin 4)
  | peek (ch : Fin 4)
  | releaseHold (ch : Fin 4)
  | setClassTable (ch : Fin 4)
  | setPolicy (ch : Fin 4)
  | status (ch : Fin 4)
  | sweep (ch : Fin 4)
  | tune (ch : Fin 4)
  | recordIntakeEvent (fileSlot : Nat)
  | restoreRecordIntake (fileSlot : Nat)
  | stallLimit (fileSlot : Nat)
  | packing (day : Nat)
  | mergeDelayExpiry (day cls : Nat)
  | programDone (mc : Fin 4) (result : ProgramEnd)
  | mediaReadDone (mc : Fin 4) (result : ReadEnd)
  | voidMarkDone (mc : Fin 4) (result : MarkEnd)
  | clearDone (mc : Fin 4) (result : ClearEnd)
  | retireMarkDone (mc : Fin 4) (result : MarkEnd)
  | readyTimeout (mc : Fin 4) (torn : Torn)
  | probe (mc : Fin 4)
  | probeReady (mc : Fin 4)
  | probeFailed (mc : Fin 4)
  | relocationWalk (mc : Fin 4)
  | readStep (cursor : Fin 16)
  | waitLimit (waiter : Waiter)
  | holdWindowExpiry (cursor : Fin 16)
  | idleExpiry (cursor : Fin 16)
  | sweepWalk
  | auditWalk
  | scrubTimerExpiry
  | rebuildScan
  | vectorMask (ch : Fin 4)
  deriving DecidableEq, Repr

end Sys2Proof
end

