-- ==== Sys2Proof/Config.lean ====
section
/-!
DEFINITION. The constants of the part, each with its rule, and the values the manual leaves open.
The free values have no body: nothing can evaluate them, so a statement holds whatever they are.
-/

namespace Sys2Proof

/-- The highest account number (R1). -/
def Config.maxAccount : Nat := 999999999999999
/-- The highest archive day (R3). -/
def Config.maxDay : Nat := 49710
/-- Seconds of an archive day (R3). -/
def Config.daySeconds : Nat := 86400
/-- Body bytes of a sheet (R21). -/
def Config.bodyMax : Nat := 4064
/-- Records of a DATA sheet (R21). -/
def Config.sheetRecords : Nat := 512
/-- A last output sheet below this body is tested for coalescing (R25). -/
def Config.smallBody : Nat := 1016
/-- Bytes of a sheet header (R27). -/
def Config.headerBytes : Nat := 32
/-- Ranges of a retirement list (R33). -/
def Config.listRanges : Nat := 256
/-- Coded bytes of a retirement list (R33). -/
def Config.listBytes : Nat := 3936
/-- Entries of the Day Table (R36). -/
def Config.dayTable : Nat := 4096
/-- Records of the File Table (R54). -/
def Config.fileTable : Nat := 1024
/-- Day Staging at which the staging-high condition sets, and below which it clears (R64). -/
def Config.stagingSet : Nat := 30198988
/-- See `Config.stagingSet`. -/
def Config.stagingClear : Nat := 26843545
/-- Records of the Late List, and the count below which the full condition clears (R64). -/
def Config.lateMax : Nat := 1048576
/-- See `Config.lateMax`. -/
def Config.lateClear : Nat := 838860
/-- Items of the Packer work queue (R75). -/
def Config.packerQueue : Nat := 1024
/-- Groups in progress at once (R77). -/
def Config.groups : Nat := 4
/-- Late records that make a MERGE due (R86). -/
def Config.mergeCount : Nat := 4096
/-- Slots of an extent (06_archive_array.md). -/
def Config.extentSlots : Nat := 64
/-- Extents of a media channel at most (R91). -/
def Config.maxExtents : Nat := 524288
/-- Images of the posting queue, and DATA images among them (R97). -/
def Config.postingQueue : Nat := 32
/-- See `Config.postingQueue`. -/
def Config.postingData : Nat := 28
/-- The reserve of CLEAR slots that DATA images do not use (R98). -/
def Config.reserve : Nat := 256
/-- Images of the sheet cache (R101). -/
def Config.cacheImages : Nat := 65536
/-- Operations of a media channel's request queue (R103). -/
def Config.opQueue : Nat := 512
/-- Milliseconds between probes of an OFFLINE channel (R94). -/
def Config.probeMs : Nat := 10000
/-- Entries of a batch, and of one AMEND (R126, R127). -/
def Config.batchEntries : Nat := 1024
/-- See `Config.batchEntries`. -/
def Config.amendEntries : Nat := 64
/-- Entries of the Hold Table (R147). -/
def Config.holdTable : Nat := 65536
/-- Entries of a HOLD sheet (R34). -/
def Config.holdSheet : Nat := 120
/-- Places of an outbound queue (R169). -/
def Config.outbound : Nat := 64
/-- Requests of one channel in progress (R167). -/
def Config.inProgress : Nat := 8
/-- References kept whole by an audit (R162). -/
def Config.auditRefs : Nat := 32
/-- The value of a day field that holds no day (R183). -/
def Config.absentDay : Nat := 65535

/-- FREE VALUE. The resume index after the record numbered 4 294 967 295 has been taken: R58 admits a parcel that ends
there, R54 keeps the index in 0 .. 4 294 967 295, and no rule states the value. -/
opaque Config.resumeAfterLast : Nat

/-- FREE VALUE. The number by which a refused CONFIGURE names the first setting at fault (R177, R188): the manual numbers
the settings of TUNE only. The argument is the row of R177's table. -/
opaque Config.configureSettingNumber : Nat → Nat

/-- FREE VALUE. What a count of a notice reads as when it is too large for its field (R188): the arguments are the field's bytes
and the count. -/
opaque Config.overwide : Nat → Nat → Nat

end Sys2Proof
end

