-- ==== Sys2Proof/Machine/State.lean ====
section
/-!
DEFINITION. The state of the Alprum CA2 as plain data, unit by unit, the reasons a step can stop, and the state after
power-on (`State.reset`). `State` is divided by who may change what: `cfg` (the configuration, changed by CONFIGURE, TUNE,
DAY ROLL and the SET requests alone), `windows` and `vectors` (the port's registers and interrupts), `host` (the bytes the
part has written to host memory), `media` (what the flash modules hold, which outlives a loss of power) and `works`
(everything the units keep in the record cache, which a command's consequences change).
-/

namespace Sys2Proof.Machine

/-- No command of this part faults: the manual gives every event an effect, a refusal by response record, or no effect. -/
inductive Fault where
  deriving DecidableEq, Repr

/-- Why a command has no outcome. -/
inductive Refusal where
  /-- Raised by exec's arm of a command that has no meaning yet; safe: the model stops. -/
  | notModelled (mnemonic : String)
  deriving DecidableEq, Repr

/-! ## Tables and the four channels -/

/-- Four like things, one per request channel or per media channel. -/
structure Quad (α : Type) where
  c0 : α
  c1 : α
  c2 : α
  c3 : α
  deriving DecidableEq, Repr

/-- A table keyed by a number, in strictly rising key order. -/
abbrev Tbl (α : Type) := List (Nat × α)

/-! ## Records and sheets -/

/-- The services of R1. -/
inductive Service where
  | voice | sms | data | mms | voiceRoam | dataRoam | video | other
  deriving DecidableEq, Repr

/-- The stored marks of R5. -/
structure Marks where
  volSat : Bool
  otherTrunc : Bool
  late : Bool
  amended : Bool
  deriving DecidableEq, Repr

/-- A key (R8). -/
structure Key where
  account : Nat
  start : Nat
  switch : Nat
  seq : Nat
  deriving DecidableEq, Repr

/-- An identity (R7). -/
structure Identity where
  day : Nat
  account : Nat
  switch : Nat
  seq : Nat
  deriving DecidableEq, Repr

/-- A held call record (R1). Its day follows from its start (R3). -/
structure Rec where
  account : Nat
  switch : Nat
  seq : Nat
  start : Nat
  dur : Nat
  service : Service
  charge : Nat
  tariff : Nat
  other : Option (List Nat)
  cell : Option Nat
  volume : Option Nat
  cls : Nat
  marks : Marks
  deriving DecidableEq, Repr

/-- A presented record in plain form, every field as given (R186). -/
structure Plain where
  account : Nat
  seq : Nat
  switch : Nat
  start : Nat
  dur : Nat
  charge : Nat
  cell : Nat
  volume : Nat
  tariff : Nat
  day : Nat
  service : Nat
  cls : Nat
  marks : Nat
  kind : Nat
  cellPresent : Bool
  volumePresent : Bool
  digitCount : Nat
  digits : List Nat
  deriving DecidableEq, Repr

/-- A totals triple (R14); the correction deltas are signed. -/
structure Triple where
  count : Int
  dur : Int
  charge : Int
  deriving DecidableEq, Repr

/-- A file's totals (R61). -/
structure FileTotals where
  count : Nat
  dur : Nat
  charge : Nat
  deriving DecidableEq, Repr

/-- The three kinds of sheet (R27). -/
inductive SheetKind where
  | data | summary | hold
  deriving DecidableEq, Repr

/-- A range of a retirement list (R33). -/
structure KeyRange where
  cls : Nat
  first : Key
  last : Key
  deriving DecidableEq, Repr

/-- A regulatory hold (R34, R147). -/
structure RegHold where
  placed : Nat
  release : Option Nat
  deriving DecidableEq, Repr

/-- An entry of the Hold Table (R147). -/
structure HoldEntry where
  disputes : Nat
  reg : Option RegHold
  deriving DecidableEq, Repr

/-- The contents of a SUMMARY sheet's body (R32). -/
structure Summary where
  gone : Bool
  intake : Triple
  retired : Triple
  voided : Triple
  corr : Triple
  ranges : List KeyRange
  deriving DecidableEq, Repr

/-- A slot of the array: its media channel and its number there, 64 × extent + slot. -/
structure SlotAddr where
  ch : Fin 4
  idx : Nat
  deriving DecidableEq, Repr

/-- A sheet as an index entry names it: day, class, first key and group number (R76, R78). -/
structure SheetRef where
  day : Nat
  cls : Nat
  first : Key
  group : Nat
  deriving DecidableEq, Repr

/-! ## The configuration -/

/-- A civil date. -/
structure Date where
  year : Nat
  month : Nat
  day : Nat
  deriving DecidableEq, Repr

/-- Completion sensing (R92). -/
inductive Sensing where
  | readyLine | fixedTime
  deriving DecidableEq, Repr

/-- The settings of one media channel (R91, R92, R105); the times in microseconds, the marks in thousandths. -/
structure MediaCfg where
  extents : Nat
  sensing : Sensing
  program : Nat
  read : Nat
  clear : Nat
  low : Nat
  high : Nat
  deriving DecidableEq, Repr

/-- An entry of the Class Decode Table (R141). -/
structure ClassEntry where
  enabled : Bool
  base : Nat
  exp : Nat
  cls : Nat
  deriving DecidableEq, Repr

/-- A policy of the Retention Policy Table (R142). -/
structure Policy where
  months : Nat
  grace : Nat
  keep : Bool
  deriving DecidableEq, Repr

/-- The eight kinds of notice (R170). -/
inductive NoticeKind where
  | quarantined | channelOffline | clearSpaceLow | arrayFull | fileSettled | sweepDone | rebuildDiscrepancy | rebuildDone
  deriving DecidableEq, Repr

/-- The settings of CONFIGURE and TUNE (R174, R177). `routes` holds a channel per notice kind, in the order of R170. -/
structure Settings where
  epoch : Date
  closeLag : Nat
  media : Quad MediaCfg
  stall : Nat
  merge : Nat
  hold : Nat
  idle : Nat
  scrub : Nat
  preference : Bool
  routes : List (Fin 4)
  watermarks : Quad Nat
  deriving DecidableEq, Repr

/-- The configuration: the settings, today (R35) and both copies of both tables (R141, R142). -/
structure Cfg where
  settings : Settings
  today : Option Nat
  classes : List ClassEntry
  pendingClasses : List ClassEntry
  policies : List Policy
  pendingPolicies : List Policy
  deriving DecidableEq, Repr

/-! ## The request port -/

/-- The states of a request channel (R166). -/
inductive ChanState where
  | unset | active | stopped
  deriving DecidableEq, Repr

/-- A request channel's window fields (R185), its state, and whether a fetch or a response write is under way. -/
structure Window where
  state : ChanState
  requestBase : BitVec 64
  requestEntries : BitVec 32
  responseBase : BitVec 64
  responseEntries : BitVec 32
  requestFill : BitVec 32
  requestConsume : BitVec 32
  responseFill : BitVec 32
  responseConsume : BitVec 32
  fetching : Bool
  writing : Bool
  deriving DecidableEq, Repr

/-- A request channel's interrupt state (R171): responses not yet signalled, whether the 100 µs measure runs, the vector's mask
in the MSI-X table, a vector held back by it, and the number of vectors delivered. -/
structure IrqVector where
  unsignalled : Nat
  measuring : Bool
  masked : Bool
  held : Bool
  delivered : Nat
  deriving DecidableEq, Repr

/-- The outcome of a request (R168). -/
inductive Verdict where
  | done | partly | refused
  deriving DecidableEq, Repr

/-- The reasons of R168, in its table's order. -/
inductive Reason where
  | busy | dayOrder | duplicateFile | malformed | media | notFound | notReady | parcelOrder | quarantined | reset | state
  | tableFull | tooLarge | unbalanced
  deriving DecidableEq, Repr

/-- The states of a file (R55). -/
inductive FileState where
  | receiving | settling | reconciled | discrepant | abandoned
  deriving DecidableEq, Repr

/-- The states of a day (R38). -/
inductive DayState where
  | opened | closing | closed
  deriving DecidableEq, Repr

/-- A place of result order (R110). -/
structure Place where
  day : Nat
  key : Key
  gap : Bool
  cls : Nat
  deriving DecidableEq, Repr

/-- A cursor's position (R112). -/
inductive Position where
  | beforeFirst
  | place (p : Place)
  | afterLast
  deriving DecidableEq, Repr

/-- The counts of a SWEEP_DONE notice (R157). -/
structure SweepCounts where
  runsDue : Nat
  retired : Nat
  retiredQuarantined : Nat
  trimmed : Nat
  recordsRetired : Nat
  daysRemoved : Nat
  deriving DecidableEq, Repr

/-- The counts of a REBUILD_DONE notice (R181). -/
structure RebuildCounts where
  days : Nat
  discrepant : Nat
  kept : Nat
  voided : Nat
  stale : Nat
  holds : Nat
  deriving DecidableEq, Repr

/-- The verdicts of R163. -/
inductive AuditVerdict where
  | agrees | differs | incomplete
  deriving DecidableEq, Repr

/-- The results a response or notice carries (R188). -/
inductive Result where
  | empty
  | named (n : Nat)
  | parcel (consumed written : Nat) (state : FileState) (counts : List Nat)
  | fileSlot (slot : Nat) (state : FileState)
  | fileClosed (slot : Nat) (state : FileState) (presented : FileTotals)
  | cursor (number generation : Nat)
  | read (items : Nat) (position : Position)
  | entries (n : Nat)
  | committed (n day group : Nat) (net : Int)
  | rolled (today closing : Nat)
  | dayState (state : DayState)
  | swept (again : Bool)
  | audited (verdict : AuditVerdict)
  | hold (entry : Option HoldEntry) (earliest : Option Nat)
  | released (entry : Option HoldEntry)
  | holdState (entry : Option HoldEntry) (lo hi generation : Nat) (rewriting : Bool) (waiting : Nat)
  | sheet (day cls : Nat) (first : Key)
  | channelClear (mc : Fin 4) (clear : Nat)
  | slots (n : Nat)
  | file (source fileId : Nat) (state : FileState)
  | sweepDone (today : Nat) (counts : SweepCounts) (kept keptQuarantined : Nat)
  | day (d : Nat)
  | rebuildDone (counts : RebuildCounts)
  deriving DecidableEq, Repr

/-- A response record or a notice (R168, R188). -/
structure Response where
  tag : BitVec 32
  verdict : Verdict
  reason : Option Reason
  notice : Option NoticeKind
  endMark : Bool
  merged : Bool
  result : Result
  deriving DecidableEq, Repr

/-- A kind's pending flag (R170): the contents of its latest notice, and MERGED. -/
structure PendingNotice where
  result : Result
  merged : Bool
  deriving DecidableEq, Repr

/-! ## Requests -/

/-- An AMEND entry as given (R187). -/
structure AmendEntry where
  kind : Nat
  day : Nat
  switch : Nat
  account : Nat
  seq : Nat
  tariff : Nat
  dur : Nat
  charge : Nat
  deriving DecidableEq, Repr

/-- A class entry as given (R187). -/
structure RawClass where
  enabled : Nat
  exp : Nat
  cls : Nat
  base : Nat
  deriving DecidableEq, Repr

/-- A policy as given (R187). -/
structure RawPolicy where
  months : Nat
  grace : Nat
  keep : Nat
  deriving DecidableEq, Repr

/-- A media channel of the settings block as given (R187). -/
structure RawMedia where
  extents : Nat
  sensing : Nat
  low : Nat
  high : Nat
  program : Nat
  read : Nat
  clear : Nat
  deriving DecidableEq, Repr

/-- The settings block as given (R187). -/
structure RawSettings where
  epoch : Date
  today : Nat
  closeLag : Nat
  preference : Nat
  media : Quad RawMedia
  stall : Nat
  merge : Nat
  hold : Nat
  idle : Nat
  scrub : Nat
  routes : List Nat
  watermarks : Quad Nat
  classes : List RawClass
  policies : List RawPolicy
  deriving DecidableEq, Repr

/-- A request with its parameters and its input buffer, as its record and buffer give them (R187). -/
inductive Request where
  | abandonBatch
  | abandonFile (source fileId : Nat)
  | amend (close : Bool) (net : Int) (entries : List AmendEntry)
  | archiveReset
  | auditDay (day : Nat)
  | closeCursor (number generation : Nat)
  | closeDay (day : Nat)
  | closeFile (source fileId : Nat) (declared : FileTotals)
  | configure (block : RawSettings)
  | dayRoll (today : Nat)
  | dayState (day : Nat)
  | fileState (source fileId : Nat)
  | forgetFile (source fileId : Nat)
  | holdState (account : Nat)
  | ingestParcel (source fileId sequence start listLength : Nat) (records : List Plain)
  | lookupCall (id : Identity) (visibility : Nat)
  | openCursor (account fromDay toDay : Nat) (filter : Option Nat) (visibility : Nat)
  | openFile (source fileId kind cls day : Nat) (first : Key)
  | placeHold (account kind release : Nat)
  | readCursor (number generation mode n : Nat) (k : Int)
  | releaseHold (account kind : Nat)
  | setClassTable (entries : List RawClass)
  | setPolicy (policies : List RawPolicy)
  | status
  | sweep
  | tune (mask : Nat) (block : RawSettings)
  deriving DecidableEq, Repr

/-- Where a request in progress stands (R167): handed to its owning unit, taken by it, or ended with its response waiting for
a place in a full outbound queue. -/
inductive ReqPhase where
  | handed | taken | ended
  deriving DecidableEq, Repr

/-- A request in progress. `id` is the model's serial number. -/
structure Req where
  id : Nat
  ch : Fin 4
  tag : BitVec 32
  request : Request
  addr : Nat
  length : Nat
  listAddr : Nat
  phase : ReqPhase
  discarded : Bool
  deriving DecidableEq, Repr

/-- A write of a report to a host buffer that has not completed, and the result its request is answered DONE with. -/
structure BufWrite where
  req : Nat
  ch : Fin 4
  addr : Nat
  bytes : Bytes
  result : Result
  deriving DecidableEq, Repr

/-- The port's queues. `waiting` holds, oldest first, the ended requests whose responses wait for a place. -/
structure Port where
  out : Quad (List Response)
  waiting : Quad (List (Nat × Response))
  reqs : List Req
  writes : List BufWrite
  notices : List (Option PendingNotice)
  deriving DecidableEq, Repr

/-! ## The catalogue -/

/-- The holder of a busy mark (R43). -/
inductive Holder where
  | item (id : Nat)
  | relocation
  | audit
  deriving DecidableEq, Repr

/-- A sheet index entry (R41). -/
structure Entry where
  first : Key
  last : Key
  totals : Triple
  bodyLen : Nat
  slot : SlotAddr
  group : Nat
  quarantined : Bool
  busy : Option Holder
  quarantineAsked : Bool
  deriving DecidableEq, Repr

/-- The states of a run (R40). -/
inductive RunState where
  | live | expiring | residual
  deriving DecidableEq, Repr

/-- A run (R40). -/
structure Run where
  cls : Nat
  state : RunState
  entries : List Entry
  deriving DecidableEq, Repr

/-- The kinds of Packer item (R76), in its table's order. -/
inductive ItemKind where
  | closeRun | merge | apply | trim | retire | restore
  deriving DecidableEq, Repr

/-- A day entry (R36), keyed by its day in the Day Table. `summary` is the slot of the day's current SUMMARY sheet and
`goneSlot` that of its day-gone summary once LIVE, which R48 and R49 have the Catalogue know; a removal's summary is named until its
void mark is asked. -/
structure DayEntry where
  state : DayState
  underAudit : Bool
  discrepant : Bool
  going : Bool
  intake : Triple
  retired : Triple
  voided : Triple
  corr : Triple
  staged : Triple
  late : Triple
  group : Nat
  inProgress : Option (Nat × ItemKind)
  owed : Nat
  awaiting : List Nat
  runs : List Run
  summary : Option SlotAddr
  goneSlot : Option SlotAddr
  deriving DecidableEq, Repr

/-! ## Intake -/

/-- The target of a RESTORE file (R57). -/
structure Target where
  day : Nat
  cls : Nat
  first : Key
  last : Key
  totals : Triple
  deriving DecidableEq, Repr

/-- Why a parcel waits (R65). -/
inductive ParcelWait where
  | gate
  | going (day : Nat)
  deriving DecidableEq, Repr

/-- A parcel in flight (R59): the records of the card's copy not yet consumed, and what has been counted. -/
structure Parcel where
  req : Nat
  ch : Fin 4
  tag : BitVec 32
  rest : List Plain
  consumed : Nat
  counts : List Nat
  written : Nat
  listAddr : Nat
  wait : Option (Nat × ParcelWait)
  deriving DecidableEq, Repr

/-- A file record (R54), keyed by its file slot in the File Table. `target` is absent for a NORMAL file; `counts` are the
eleven outcome counts in the order of R54. -/
structure File where
  source : Nat
  fileId : Nat
  state : FileState
  target : Option Target
  nextSeq : Nat
  resume : Nat
  parcel : Option Parcel
  declared : Option FileTotals
  presented : FileTotals
  saturated : Bool
  counts : List Nat
  outstanding : Nat
  restoreSet : List Rec
  deriving DecidableEq, Repr

/-- A record of Day Staging with its file slot (R63, R64). -/
structure StagedRec where
  call : Rec
  file : Nat
  deriving DecidableEq, Repr

/-- A record of the Late List with its file slot and arrival time (R63, R64). -/
structure LateRec where
  call : Rec
  file : Nat
  arrival : Nat
  deriving DecidableEq, Repr

/-- The Intake Unit. Staging sets are keyed by 8 × day + class; the Late List is in order of (day, class, key). -/
structure Intake where
  files : Tbl File
  staging : Tbl (List StagedRec)
  late : List LateRec
  stagingHigh : Bool
  lateFull : Bool
  deriving DecidableEq, Repr

/-! ## The Packer -/

/-- The change of an AMEND entry (R126, R135). -/
inductive Change where
  | correct (dur charge tariff : Nat)
  | void
  deriving DecidableEq, Repr

/-- What an APPLY item carries for an entry (R76); `pin` is the pinned image of the sheet cache. -/
structure ApplyEntry where
  id : Identity
  change : Change
  cls : Nat
  key : Key
  group : Nat
  pin : Nat
  deriving DecidableEq, Repr

/-- An item's kind with what it carries (R76). -/
inductive Work where
  | closeRun (cls : Nat)
  | merge (cls : Nat)
  | apply (ch : Fin 4) (entries : List ApplyEntry)
  | trim (sheet : SheetRef) (keep : List Nat)
  | retire (sheets : List SheetRef)
  | restore (file cls : Nat) (first : Key)
  deriving DecidableEq, Repr

/-- An item of the Packer work queue (R75). `askers` are the request channels whose batches wait for a MERGE. -/
structure Item where
  id : Nat
  day : Nat
  work : Work
  askers : List (Fin 4)
  inGroup : Bool
  channelWait : Option (Fin 4)
  deriving DecidableEq, Repr

/-- A sheet a group reads, with its records once read (R80). -/
structure GroupRead where
  ref : SheetRef
  image : Option (List Rec)
  deriving DecidableEq, Repr

/-- A stretch to be repacked: its superseded entries by first key, in run order, and its record sequence (R22, R81). -/
structure Stretch where
  cls : Nat
  olds : List Key
  recs : List Rec
  deriving DecidableEq, Repr

/-- A repacked stretch: the record lists of its output sheets. -/
structure Packed where
  cls : Nat
  olds : List Key
  sheets : List (List Rec)
  deriving DecidableEq, Repr

/-- An output sheet of a group with its index values (R26) and, once LIVE, its slot. -/
structure Output where
  stretch : Nat
  first : Key
  last : Key
  totals : Triple
  bodyLen : Nat
  image : Bytes
  slot : Option SlotAddr
  deriving DecidableEq, Repr

/-- The phases of a group (R79). -/
inductive Phase where
  | reading | packing | posting | summary
  deriving DecidableEq, Repr

/-- The counter amounts of R46 for a group. -/
structure Amounts where
  packed : Triple
  inserted : Triple
  dropped : Triple
  corr : Triple
  voided : Triple
  retired : Triple
  deriving DecidableEq, Repr

/-- A merged late record's outcome at its merge (R87): inserted, LATE_DUPLICATE or LATE_CONFLICT. -/
inductive MergeOutcome where
  | inserted | duplicate | conflict
  deriving DecidableEq, Repr

/-- A group in progress (R79). `merging` are the late records a MERGE took at its take, with their outcomes once formed;
`coalescing` is the neighbour a packed stretch waits for (R25). -/
structure Group where
  id : Nat
  item : Nat
  day : Nat
  number : Nat
  phase : Phase
  claimed : List (Nat × Key)
  reads : List GroupRead
  merging : List (LateRec × MergeOutcome)
  heldBack : Nat
  todo : List Stretch
  current : Option Packed
  coalescing : Option SheetRef
  packed : List Packed
  outputs : List Output
  posted : Nat
  retiring : List SheetRef
  ranges : List KeyRange
  amounts : Amounts
  deriving DecidableEq, Repr

/-- The merge schedule's entry of a (day, class) (R86): the held-back count h, the rearm time, and the asks of the Amendment
Unit that wait for queue space. -/
structure MergeSched where
  day : Nat
  cls : Nat
  held : Nat
  rearm : Option Nat
  askers : List (Fin 4)
  deriving DecidableEq, Repr

/-- An asker noted while the work queue was full (R75). -/
inductive Asker where
  | catalogue (day : Nat)
  | intake (file : Nat)
  | schedule (day cls : Nat)
  | batch (ch : Fin 4)
  | sweep
  deriving DecidableEq, Repr

/-- The Packer. -/
structure Packer where
  queue : List Item
  groups : List Group
  sched : List MergeSched
  noted : List Asker
  deriving DecidableEq, Repr

/-! ## The archive array -/

/-- Who asks an image (R80, R100, R102, R106, R115, R120, R123, R130, R155, R160, R164, R178). -/
inductive Requester where
  | group (id : Nat) (ref : SheetRef)
  | neighbour (id : Nat) (ref : SheetRef)
  | audit (ref : SheetRef)
  | scrub
  | sweep (ref : SheetRef)
  | copy (mc : Fin 4) (old : Nat)
  | batch (ch : Fin 4) (serial entry : Nat) (ref : SheetRef)
  | cursor (number : Fin 16) (request : Nat) (ref : SheetRef)
  | prefetch (number : Fin 16) (serial : Nat)
  | lookup (request : Nat) (ref : SheetRef)
  | rebuild
  deriving DecidableEq, Repr

/-- The answer to a read (R80, R100); `pin` is the cache image pinned for a pinned read, and MEDIA names the OFFLINE channel that gave
it. -/
inductive ReadAnswer where
  | image (bytes : Bytes) (pin : Option Nat)
  | failed
  | media (mc : Fin 4)
  | gone
  deriving DecidableEq, Repr

/-- Who asked a void mark and what its completion tells (R104). -/
inductive VoidOwner where
  | day (d : Nat)
  | gonePrevious (d : Nat)
  | goneSelf (d : Nat)
  | holdEmpty (rewrite : Nat)
  | rebuild
  | untold
  deriving DecidableEq, Repr

/-- An operation of a media channel (R103); `again` marks a repeat (R100, R104, R107). -/
inductive OpKind where
  | program (post : Nat) (idx : Nat) (image : Bytes)
  | copy (idx : Nat) (image : Bytes) (source : Fin 4)
  | voidMark (idx : Nat) (who : List VoidOwner) (again : Bool)
  | clear (ext : Nat)
  | retireMark (ext : Nat) (again : Bool)
  | read (idx : Nat) (who : List (Requester × Bool)) (again : Bool)
  deriving DecidableEq, Repr

/-- An operation with its arrival order and class; `stray` marks one in progress at an ARCHIVE RESET, whose result is
discarded (R103). -/
structure Op where
  arrival : Nat
  foreground : Bool
  kind : OpKind
  stray : Bool
  deriving DecidableEq, Repr

/-- The states of a slot that is not CLEAR (R95). -/
inductive SlotState where
  | writing | live | stale | bad
  deriving DecidableEq, Repr

/-- A slot of the slot table that is not CLEAR, with its owner's kind. -/
structure SlotInfo where
  state : SlotState
  kind : SheetKind
  deriving DecidableEq, Repr

/-- The states of an extent (R96). -/
inductive ExtState where
  | clear | opened | filled | relocating | clearing | bad
  deriving DecidableEq, Repr

/-- An extent's state and failure count (R96). -/
structure ExtInfo where
  state : ExtState
  failures : Nat
  deriving DecidableEq, Repr

/-- A void mark owed on a channel (R93, R104); `deferred` marks a slot of the deferred-mark list. -/
structure OwedMark where
  idx : Nat
  who : List VoidOwner
  deferred : Bool
  deriving DecidableEq, Repr

/-- A relocation copy (R106): the old slot, what it holds, the new slot once allocated and the image once read. -/
structure Copy where
  old : Nat
  kind : SheetKind
  new : Option SlotAddr
  image : Option Bytes
  deriving DecidableEq, Repr

/-- An ACTIVE relocation (R105). -/
structure Relocation where
  source : Nat
  next : Nat
  revisit : List Nat
  copy : Option Copy
  paused : Bool
  deriving DecidableEq, Repr

/-- A media channel's volatile state. Slots and extents not listed are CLEAR with failure count 0. `contest` is the FOREGROUND
count and `lastForeground` the last contested winner of R103; `probeDue` and `probing` are R94's. -/
structure MediaChan where
  online : Bool
  probeDue : Nat
  probing : Bool
  queue : List Op
  waiting : List Op
  busy : Option Op
  contest : Nat
  lastForeground : Bool
  owed : List OwedMark
  clearAgain : List Nat
  retireAgain : List Nat
  openExt : Option Nat
  exts : Tbl ExtInfo
  slots : Tbl SlotInfo
  relocation : Option Relocation
  excluded : List Nat
  lowArmed : Bool
  deriving DecidableEq, Repr

/-- Who posted an image (R97). -/
inductive Poster where
  | output (group index : Nat)
  | summary (group : Nat)
  | dayGone (day : Nat)
  | hold (rewrite : Nat)
  deriving DecidableEq, Repr

/-- An image of the posting queue (R97); WRITING exactly when it has a slot; `orphan` once its group has aborted. -/
structure Post where
  id : Nat
  image : Bytes
  kind : SheetKind
  poster : Poster
  slot : Option SlotAddr
  orphan : Bool
  deriving DecidableEq, Repr

/-- An image of the sheet cache (R101). -/
structure CacheImage where
  id : Nat
  slot : SlotAddr
  attached : Bool
  pins : Nat
  image : Bytes
  deriving DecidableEq, Repr

/-- The Array Controller. The cache stands most recent first. -/
structure ArrayCtl where
  chans : Quad MediaChan
  posting : List Post
  offered : List Post
  cache : List CacheImage
  fullArmed : Bool
  deriving DecidableEq, Repr

/-! ## Enquiries -/

/-- Visibility (R109, R118). -/
inductive Visibility where
  | wait | pass
  deriving DecidableEq, Repr

/-- The modes of READ CURSOR (R114). -/
inductive ReadMode where
  | forward | skipForward | backward | peek (k : Int)
  deriving DecidableEq, Repr

/-- An item of a cursor (R110). -/
inductive EnquiryItem where
  | record (call : Rec) (late : Bool)
  | gap (ref : SheetRef)
  deriving DecidableEq, Repr

/-- A sheet image a read or lookup holds (R115). -/
structure HeldImage where
  ref : SheetRef
  recs : List Rec
  deriving DecidableEq, Repr

/-- What a read or lookup waits for (R115, R118). -/
inductive EnquiryWait where
  | none
  | image (ref : SheetRef)
  | pending (id : Identity) (since : Nat)
  deriving DecidableEq, Repr

/-- Where a read's search begins: at a place, or strictly beyond it (R112, R116). -/
structure SearchFrom where
  position : Position
  beyond : Bool
  deriving DecidableEq, Repr

/-- A READ CURSOR in progress (R115): items used, images held, entries whose read failed, GAPs shown, the search position,
whether item 0 is still to be passed over (SKIP_FORWARD), whether an item has been used and the next is being found, and the place
of the item a WAIT step waits at (R118) or at which the sheet asked may next give one (R119). -/
structure Reading where
  req : Nat
  mode : ReadMode
  n : Nat
  used : Nat
  images : List HeldImage
  failed : List SheetRef
  gaps : List SheetRef
  search : SearchFrom
  skip : Bool
  advancing : Bool
  heldPlace : Option Place
  wait : EnquiryWait
  deriving DecidableEq, Repr

/-- A cursor's prefetch (R120). -/
inductive Prefetch where
  | none
  | fetching (target : SheetRef) (serial : Nat)
  | ready (target : SheetRef) (pin since : Nat)
  deriving DecidableEq, Repr

/-- A cursor (R109): OPEN when `opened`, READING when it has a `reading`. `meetsBack` marks a position whose own item the next
BACKWARD read meets first (R118, R119). -/
structure Cursor where
  opened : Bool
  generation : Nat
  account : Nat
  fromDay : Nat
  toDay : Nat
  filter : Option (List Service)
  visibility : Visibility
  position : Position
  prefetch : Prefetch
  lastUse : Nat
  meetsBack : Bool
  reading : Option Reading
  deriving DecidableEq, Repr

/-- A LOOKUP CALL in progress (R123). -/
structure Lookup where
  req : Nat
  id : Identity
  visibility : Visibility
  images : List HeldImage
  failed : List SheetRef
  wait : EnquiryWait
  deriving DecidableEq, Repr

/-- The Enquiry Unit. -/
structure Enquiry where
  cursors : List Cursor
  lookups : List Lookup
  deriving DecidableEq, Repr

/-! ## Amendments -/

/-- The states of a batch (R125). -/
inductive BatchState where
  | none | collecting | checking | applying
  deriving DecidableEq, Repr

/-- What the check found for an entry (R126, R130). -/
structure Found where
  call : Rec
  ref : SheetRef
  pin : Nat
  deriving DecidableEq, Repr

/-- An entry of a batch (R126). -/
structure BatchEntry where
  given : AmendEntry
  found : Option Found
  deriving DecidableEq, Repr

/-- What a batch waits for (R126). -/
inductive BatchWait where
  | none
  | finding (entry : Nat) (reading : Option SheetRef)
  | merge (entry day cls : Nat)
  | placing
  | queue
  deriving DecidableEq, Repr

/-- A request channel's batch (R126). `serial` numbers its findings, so that a read asked for an earlier one is told apart;
`examined` are the sheets read for the entry being found, and `hit` the one that held it. -/
structure Batch where
  state : BatchState
  entries : List BatchEntry
  net : Option Int
  closing : Option Nat
  day : Option Nat
  wait : BatchWait
  item : Option Nat
  serial : Nat
  examined : List SheetRef
  hit : Option Found
  deriving DecidableEq, Repr

/-- An entry of the Pending Amendment Set (R135). -/
structure PendingEntry where
  id : Identity
  ch : Fin 4
  entry : Nat
  change : Change
  cls : Nat
  key : Key
  deriving DecidableEq, Repr

/-- The Amendment Unit. -/
structure Amend where
  batches : Quad Batch
  pending : List PendingEntry
  deriving DecidableEq, Repr

/-! ## Retention -/

/-- The kinds of hold (R149). -/
inductive HoldKind where
  | dispute | regulatory
  deriving DecidableEq, Repr

/-- A hold request in a wait list or a rewrite (R148). -/
structure HoldReq where
  req : Nat
  account : Nat
  kind : HoldKind
  place : Bool
  deriving DecidableEq, Repr

/-- A part of a rewrite: its span and its entries (R148). -/
structure HoldPart where
  lo : Nat
  hi : Nat
  rows : Tbl HoldEntry
  deriving DecidableEq, Repr

/-- A written part: its span, slot and generation. -/
structure HoldSheet where
  lo : Nat
  hi : Nat
  slot : SlotAddr
  generation : Nat
  deriving DecidableEq, Repr

/-- A rewrite of a range (R148): the requests it took (places and accepted releases), the parts still to be posted, the part and
generation posted, and the sheets that are LIVE. -/
structure Rewrite where
  serial : Nat
  taken : List HoldReq
  parts : List HoldPart
  posted : Option (Nat × Nat × Nat)
  sheets : List HoldSheet
  deriving DecidableEq, Repr

/-- A hold range (R148): REWRITING exactly when it has a rewrite. -/
structure HoldRange where
  lo : Nat
  hi : Nat
  sheet : Option (SlotAddr × Nat)
  wait : List HoldReq
  owed : Bool
  rewrite : Option Rewrite
  deriving DecidableEq, Repr

/-- Why a run's work is deferred (R156). -/
inductive Cause where
  | undecided | busy | pending | audit
  | channel (mc : Fin 4)
  deriving DecidableEq, Repr

/-- An element of the revisit set (R153). -/
structure Deferral where
  day : Nat
  cls : Nat
  cause : Cause
  deriving DecidableEq, Repr

/-- A visit to a run in progress (R154, R156): the first key last decided, the sheet whose image is being read, whether it is
the walk's own visit, whether its cause has cleared again meanwhile, and a revisit's retire list. -/
structure Visit where
  day : Nat
  cls : Nat
  at_ : Option Key
  reading : Option SheetRef
  walk : Bool
  again : Bool
  retire : List SheetRef
  deriving DecidableEq, Repr

/-- The walk's position (R153): the day, the class last visited, and whether the walk has left the day. -/
structure WalkPos where
  day : Nat
  cls : Option Nat
  left : Bool
  deriving DecidableEq, Repr

/-- A running sweep (R153). `kept` are the sheets decided KEPT, with whether they were QUARANTINED; `refusedItems` are the items
the full work queue has not taken (R156). -/
structure Sweep where
  today : Nat
  policies : List Policy
  again : Bool
  position : Option WalkPos
  passed : Bool
  openRetire : List SheetRef
  decided : List SheetRef
  revisit : List Deferral
  visits : List Visit
  refusedItems : List (Nat × Work)
  kept : List (SheetRef × Bool)
  counts : SweepCounts
  deriving DecidableEq, Repr

/-- The Retention Unit. The Hold Table is keyed by account. -/
structure Retention where
  holds : Tbl HoldEntry
  ranges : List HoldRange
  lastGeneration : Nat
  sweep : Option Sweep
  deriving DecidableEq, Repr

/-! ## Audit -/

/-- The findings of R162, in its order. -/
inductive Finding where
  | priorQuarantine | unread | readFailed | header | totals | identity
  deriving DecidableEq, Repr

/-- A sheet reference (R162). -/
structure AuditRef where
  cls : Nat
  first : Key
  group : Nat
  slot : SlotAddr
  finding : Finding
  deriving DecidableEq, Repr

/-- What the audit does with its current entry (R160). -/
inductive AuditWait where
  | none
  | release (ref : SheetRef)
  | reading (ref : SheetRef)
  deriving DecidableEq, Repr

/-- The audit in progress (R158); its phase is DRAINING or READING, since STATING is one event (R163). `asked` are the sheets whose
quarantine it has asked for. -/
structure Audit where
  draining : Bool
  req : Nat
  day : Nat
  position : Option (Nat × Key)
  wait : AuditWait
  held : Triple
  ids : List Identity
  met : Nat
  read : Nat
  passed : Nat
  unread : Nat
  refs : List AuditRef
  omitted : Nat
  failure : Bool
  unproved : Bool
  asked : List SheetRef
  deriving DecidableEq, Repr

/-- The scrub walk (R164). -/
structure Scrub where
  position : Option (Nat × Nat × Key)
  outstanding : Option (SheetRef × SlotAddr)
  scrubbed : Nat
  failures : Nat
  passes : Nat
  timerFrom : Nat
  deriving DecidableEq, Repr

/-! ## The rebuild -/

/-- The part states (R176). -/
inductive PartState where
  | starting | rebuilding | running
  deriving DecidableEq, Repr

/-- A candidate's contents (R178). -/
inductive CandContent where
  | data (day cls : Nat) (first last : Key) (totals : Triple) (bodyLen group : Nat)
  | summary (day group : Nat) (body : Summary)
  | hold (lo hi generation : Nat) (rows : Tbl HoldEntry)
  deriving DecidableEq, Repr

/-- A candidate (R178). -/
structure Cand where
  slot : SlotAddr
  content : CandContent
  deriving DecidableEq, Repr

/-- A channel's scan: the next slot, and whether its read is outstanding. -/
structure Scan where
  next : Nat
  reading : Bool
  deriving DecidableEq, Repr

/-- The rebuild (R178 to R181): the scans, the candidates in scan order, whether resolution has been made, the void marks still
to complete, and the counts of its notice. `stood` are the sheets that stay QUARANTINED through the reset that began it, the audit in
progress having asked for it (R158). -/
structure Rebuild where
  scans : Quad Scan
  cands : List Cand
  resolved : Bool
  marks : Nat
  counts : RebuildCounts
  stood : List SheetRef
  deriving DecidableEq, Repr

/-! ## The consequences of a command -/

/-- A consequence of the event under way that is still to be taken, in the order it arose. -/
inductive Task where
  | scan
  | ask (a : Asker)
  | answer (who : Requester) (a : ReadAnswer)
  | sheetLive (poster : Poster) (slot : SlotAddr)
  | admitted (poster : Poster)
  | abort (group : Nat) (mc : Option (Fin 4)) (lost : List SlotAddr)
  | voidDone (who : VoidOwner) (slot : SlotAddr)
  | grant (mc : Fin 4)
  | allocate
  | relocationTest (mc : Fin 4)
  | relocationSettle (mc : Fin 4)
  | find (ch : Fin 4)
  | place (ch : Fin 4)
  | pendingLeft (day : Nat)
  | released (day cls : Nat) (first : Key)
  | releaseTold (day cls : Nat) (first : Key)
  | runRemoved (day cls : Nat)
  | mergeTest (day cls : Nat)
  | mergeTold (ch : Fin 4)
  | holdStart (lo : Nat)
  | holdEnd (serial : Nat)
  | lookup (request : Nat)
  | revisit (day cls : Nat) (cause : Cause)
  | visit (day cls : Nat)
  | sweepEnd
  | auditDrained (day : Nat)
  | auditCleared (day : Nat)
  | online (mc : Fin 4)
  | dayLeft (day : Nat)
  | packStep (group : Nat)
  | reported (ref : SheetRef) (cause : Cause)
  | retiredDone (sheets : List (SheetRef × Bool))
  | trimmedDone (ref : SheetRef) (records : Nat)
  | committed (ch : Fin 4) (group : Nat)
  | applyDropped (ch : Fin 4) (reason : Reason) (entry : Nat)
  | resolve
  deriving DecidableEq, Repr

/-- Everything a command's consequences may change. `tasks` is empty between commands; `serial` numbers requests, items,
groups, images and findings. -/
structure Works where
  tasks : List Task
  serial : Nat
  part : PartState
  port : Port
  days : Tbl DayEntry
  intake : Intake
  packer : Packer
  array : ArrayCtl
  enquiry : Enquiry
  amend : Amend
  retention : Retention
  audit : Option Audit
  scrub : Scrub
  rebuild : Rebuild
  deriving DecidableEq, Repr

/-- What the flash modules of one media channel hold: every slot that is not erased, by slot number, and the extents that carry
their retire mark (R95, R107). -/
structure Media where
  cells : Tbl Cell
  retired : List Nat
  deriving DecidableEq, Repr

/-- The state of the part. `pending` is the queue of commands that wait, first in first out. `clock` is the part's millisecond
clock (R63). `host` holds the bytes the part has written to host memory, by address. -/
structure State where
  pending : List Instr
  clock : Nat
  cfg : Cfg
  windows : Quad Window
  vectors : Quad IrqVector
  host : List Host.Cell
  media : Quad Media
  works : Works
  deriving DecidableEq, Repr

/-! ## The values after power-on -/

/-- The same value for each of the four channels. -/
def Quad.all {α : Type} (a : α) : Quad α := ⟨a, a, a, a⟩

/-- The zero triple. -/
def Triple.zero : Triple := ⟨0, 0, 0⟩

/-- The key of four zeros. -/
def Key.zero : Key := ⟨0, 0, 0, 0⟩

/-- A media channel that CONFIGURE has not configured; times and marks at their defaults (R92, R105). -/
def MediaCfg.initial : MediaCfg := ⟨0, .readyLine, 600, 90, 4000, 10, 20⟩

/-- The settings before CONFIGURE: the defaults the manual states (R65, R86, R121, R122, R164, R170, R171). -/
def Settings.initial : Settings :=
  { epoch := ⟨1970, 1, 1⟩, closeLag := 0, media := .all .initial, stall := 30, merge := 60, hold := 2, idle := 300,
    scrub := 50, preference := false, routes := List.replicate 8 0, watermarks := .all 8 }

/-- The configuration at power-on: no today and no tables (R35, R144). -/
def Cfg.initial : Cfg := ⟨.initial, none, [], [], [], []⟩

/-- A request channel at power-on (R166): the fields of an UNSET channel read 0 until the host writes them (DESIGN CHOICE,
notes/assumptions/34.md). -/
def Window.initial : Window := ⟨.unset, 0, 0, 0, 0, 0, 0, 0, 0, false, false⟩

/-- A channel's interrupt state at power-on. -/
def IrqVector.initial : IrqVector := ⟨0, false, false, false, 0⟩

/-- The port's queues at power-on (R166, R170). -/
def Port.initial : Port := ⟨.all [], .all [], [], [], List.replicate 8 none⟩

/-- The Intake Unit at power-on (R64, R74). -/
def Intake.initial : Intake := ⟨[], [], [], false, false⟩

/-- The Packer at power-on (R90). -/
def Packer.initial : Packer := ⟨[], [], [], []⟩

/-- A media channel before CONFIGURE (R91, R103, R105). -/
def MediaChan.initial : MediaChan :=
  { online := false, probeDue := 0, probing := false, queue := [], waiting := [], busy := none, contest := 0,
    lastForeground := false, owed := [], clearAgain := [], retireAgain := [], openExt := none, exts := [], slots := [],
    relocation := none, excluded := [], lowArmed := false }

/-- The Array Controller at power-on (R97, R101). -/
def ArrayCtl.initial : ArrayCtl := ⟨.all .initial, [], [], [], false⟩

/-- A FREE cursor with generation 0 (R109). -/
def Cursor.free : Cursor :=
  { opened := false, generation := 0, account := 0, fromDay := 0, toDay := 0, filter := none, visibility := .wait,
    position := .beforeFirst, prefetch := .none, lastUse := 0, meetsBack := false, reading := none }

/-- The Enquiry Unit at power-on: 16 FREE cursors (R109). -/
def Enquiry.initial : Enquiry := ⟨List.replicate 16 .free, []⟩

/-- A batch in NONE (R126). -/
def Batch.empty : Batch := ⟨.none, [], none, none, none, .none, none, 0, [], none⟩

/-- The Amendment Unit at power-on (R140). -/
def Amend.initial : Amend := ⟨.all .empty, []⟩

/-- The Retention Unit at power-on (R147, R148, R153). -/
def Retention.initial : Retention := ⟨[], [], 0, none⟩

/-- The scrub walk at power-on (R164). -/
def Scrub.initial : Scrub := ⟨none, none, 0, 0, 0, 0⟩

/-- The counts of a rebuild that has not begun. -/
def RebuildCounts.zero : RebuildCounts := ⟨0, 0, 0, 0, 0, 0⟩

/-- No rebuild begun. -/
def Rebuild.initial : Rebuild := ⟨.all ⟨0, false⟩, [], false, 0, .zero, []⟩

/-- Everything in the record cache at power-on (R176). -/
def Works.initial : Works :=
  { tasks := [], serial := 0, part := .starting, port := .initial, days := [], intake := .initial, packer := .initial,
    array := .initial, enquiry := .initial, amend := .initial, retention := .initial, audit := none, scrub := .initial,
    rebuild := .initial }

/-- The part right after power-on with an erased array: STARTING, every channel UNSET, nothing held (R176). -/
def State.reset : State :=
  { pending := [], clock := 0, cfg := .initial, windows := .all .initial, vectors := .all .initial, host := [],
    media := .all ⟨[], []⟩, works := .initial }

end Sys2Proof.Machine
end

