-- ==== Sys2Proof/Machine/Ops.lean ====
section
/-!
DEFINITION. The operations every unit shares: the four channels, tables, ordered lists, byte layouts (R183), host memory and
the media, totals, key order (R8), and the calendar of R145.
-/

namespace Sys2Proof.Machine

/-! ## The four channels -/

/-- The four channel numbers, ascending. -/
def channels : List (Fin 4) := [0, 1, 2, 3]

/-- Channel `i`'s element. -/
def Quad.get {α : Type} (q : Quad α) (i : Fin 4) : α :=
  match i with
  | 0 => q.c0
  | 1 => q.c1
  | 2 => q.c2
  | 3 => q.c3

/-- `q` with channel `i`'s element replaced. -/
def Quad.set {α : Type} (q : Quad α) (i : Fin 4) (a : α) : Quad α :=
  match i with
  | 0 => { q with c0 := a }
  | 1 => { q with c1 := a }
  | 2 => { q with c2 := a }
  | 3 => { q with c3 := a }

/-- `q` with channel `i`'s element changed. -/
def Quad.modify {α : Type} (q : Quad α) (i : Fin 4) (f : α → α) : Quad α := q.set i (f (q.get i))

/-- The image of every element. -/
def Quad.map {α β : Type} (q : Quad α) (f : α → β) : Quad β := ⟨f q.c0, f q.c1, f q.c2, f q.c3⟩

/-- The elements in channel order. -/
def Quad.toList {α : Type} (q : Quad α) : List α := [q.c0, q.c1, q.c2, q.c3]

/-! ## Tables and lists -/

/-- The entry of key `k`. -/
def tblGet {α : Type} (k : Nat) : Tbl α → Option α
  | [] => none
  | (j, a) :: t => if j = k then some a else tblGet k t

/-- The table with `a` at key `k`, in strictly rising key order. -/
def tblPut {α : Type} (k : Nat) (a : α) : Tbl α → Tbl α
  | [] => [(k, a)]
  | (j, b) :: t => if k < j then (k, a) :: (j, b) :: t else if k = j then (k, a) :: t else (j, b) :: tblPut k a t

/-- The table without key `k`. -/
def tblDrop {α : Type} (k : Nat) : Tbl α → Tbl α
  | [] => []
  | (j, b) :: t => if j = k then tblDrop k t else (j, b) :: tblDrop k t

/-- The table with the entry of key `k`, if any, changed. -/
def tblModify {α : Type} (k : Nat) (f : α → α) (t : Tbl α) : Tbl α := t.map fun p => if p.1 = k then (p.1, f p.2) else p

/-- Keys strictly rising. -/
def tblSorted {α : Type} : Tbl α → Bool
  | [] => true
  | [_] => true
  | (i, _) :: (j, b) :: t => decide (i < j) && tblSorted ((j, b) :: t)

/-- `a` inserted before the first element that `lt` places after it. -/
def insertBy {α : Type} (lt : α → α → Bool) (a : α) : List α → List α
  | [] => [a]
  | b :: l => if lt a b then a :: b :: l else b :: insertBy lt a l

/-- The list in the order of `lt`, equal elements in their order in the list. -/
def sortBy {α : Type} (lt : α → α → Bool) (l : List α) : List α := l.foldl (fun acc a => insertBy lt a acc) []

/-- The first element of the greatest measure. -/
def firstMax {α : Type} (f : α → Nat) : List α → Option α
  | [] => none
  | a :: l => match firstMax f l with
    | none => some a
    | some b => if f b ≤ f a then some a else some b

/-- The elements that satisfy `p` changed. -/
def updateWhere {α : Type} (p : α → Bool) (f : α → α) (l : List α) : List α := l.map fun a => if p a then f a else a

/-- `a` added at the end unless it stands in the list. -/
def addNew {α : Type} [DecidableEq α] (a : α) (l : List α) : List α := if a ∈ l then l else l ++ [a]

/-! ## Byte layouts (R183) -/

/-- `v` in `n` bytes, least significant first. -/
def le : Nat → Nat → Bytes
  | 0, _ => []
  | n + 1, v => BitVec.ofNat 8 v :: le n (v / 256)

/-- A signed number in `n` bytes, two's complement, least significant first. -/
def leInt (n : Nat) (v : Int) : Bytes := le n (v % (256 ^ n : Nat)).toNat

/-- The number whose bytes, least significant first, are `b`. -/
def ofLe : Bytes → Nat
  | [] => 0
  | x :: b => x.toNat + 256 * ofLe b

/-- The `n` bytes of `b` from offset `i`; bytes that `b` does not hold read as 0. -/
def slice (b : Bytes) (i n : Nat) : Bytes := (b.drop i).take n ++ List.replicate (n - ((b.drop i).take n).length) 0

/-- The number in the `n` bytes of `b` from offset `i`. -/
def field (b : Bytes) (i n : Nat) : Nat := ofLe (slice b i n)

/-- A number of `8 n` bits read as two's complement. -/
def signed (n v : Nat) : Int := if v < 256 ^ n / 2 then (v : Int) else (v : Int) - (256 ^ n : Nat)

/-- The bytes of `b` with zeros after them up to `n` bytes. -/
def padTo (n : Nat) (b : Bytes) : Bytes := b ++ List.replicate (n - b.length) 0

/-- A flag in one bit. -/
def bit (b : Bool) (i : Nat) : Nat := if b then 2 ^ i else 0

/-- Whether bit `i` of `v` is set. -/
def hasBit (v i : Nat) : Bool := v / 2 ^ i % 2 == 1

/-! ## Host memory and the media -/

/-- Host memory as the part has written it: addresses strictly rising. An unlisted address holds what the host put there,
which the part does not know. -/
def hostWf (m : List Host.Cell) : Bool := tblSorted m

/-- The byte the part last wrote at an address, if it wrote one. -/
def hostByte (m : List Host.Cell) (a : Nat) : Option Byte := tblGet a m

/-- `b` written from address `a` on; host addresses have 64 bits. -/
def hostWrite (m : List Host.Cell) (a : Nat) : Bytes → List Host.Cell
  | [] => m
  | x :: b => hostWrite (tblPut (a % 2 ^ 64) x m) (a + 1) b

/-- An erased slot. -/
def erasedCell : Cell := ⟨none, false⟩

/-- What slot `idx` holds; a slot that is not listed is erased. -/
def Media.cell (m : Media) (idx : Nat) : Cell := (tblGet idx m.cells).getD erasedCell

/-- Slot `idx` made to hold `c`; an erased slot is not listed. -/
def Media.put (m : Media) (idx : Nat) (c : Cell) : Media :=
  { m with cells := if c = erasedCell then tblDrop idx m.cells else tblPut idx c m.cells }

/-- The canonical form: slots strictly rising, no erased slot listed, retired extents strictly rising. -/
def Media.wf (m : Media) : Bool :=
  tblSorted m.cells && m.cells.all (fun p => decide (p.2 ≠ erasedCell)) && tblSorted (m.retired.map fun e => (e, ()))

/-- Extent `ext` given its retire mark. -/
def Media.retire (m : Media) (ext : Nat) : Media :=
  { m with retired := (tblPut ext () (m.retired.map fun e => (e, ()))).map (·.1) }

/-- Every slot of extent `ext` erased. -/
def Media.clearExt (m : Media) (ext : Nat) : Media :=
  { m with cells := m.cells.filter fun p => decide (p.1 / Config.extentSlots ≠ ext) }

/-- Slot `idx` given its void mark. -/
def Media.mark (m : Media) (idx : Nat) : Media := m.put idx { m.cell idx with voided := true }

/-! ## Totals -/

/-- Component-wise sum (R46). -/
def Triple.add (a b : Triple) : Triple := ⟨a.count + b.count, a.dur + b.dur, a.charge + b.charge⟩

/-- Component-wise difference. -/
def Triple.sub (a b : Triple) : Triple := ⟨a.count - b.count, a.dur - b.dur, a.charge - b.charge⟩

/-- The sum of a list of triples. -/
def Triple.sum (l : List Triple) : Triple := l.foldr Triple.add .zero

/-- A record's contribution to any totals triple (R14). -/
def Rec.totals (r : Rec) : Triple := ⟨1, r.dur, r.charge⟩

/-- The totals of a list of records. -/
def recTotals (l : List Rec) : Triple := Triple.sum (l.map Rec.totals)

/-! ## Identity and key order -/

/-- A record's day (R3). -/
def dayOf (start : Nat) : Nat := start / Config.daySeconds

/-- A record's key (R8). -/
def Rec.key (r : Rec) : Key := ⟨r.account, r.start, r.switch, r.seq⟩

/-- A record's identity (R7). -/
def Rec.identity (r : Rec) : Identity := ⟨dayOf r.start, r.account, r.switch, r.seq⟩

/-- Key order: by account, then start, then switch, then sequence (R8). -/
def Key.lt (a b : Key) : Bool :=
  decide (a.account < b.account) || (decide (a.account = b.account) &&
    (decide (a.start < b.start) || (decide (a.start = b.start) &&
      (decide (a.switch < b.switch) || (decide (a.switch = b.switch) && decide (a.seq < b.seq))))))

/-- At or below in key order. -/
def Key.atMost (a b : Key) : Bool := !b.lt a

/-- Records in key order. -/
def recLt (a b : Rec) : Bool := a.key.lt b.key

/-- Result order of places: day, then key, a GAP before a RECORD, then class (R110). -/
def Place.lt (a b : Place) : Bool :=
  decide (a.day < b.day) || (decide (a.day = b.day) &&
    (a.key.lt b.key || (decide (a.key = b.key) &&
      ((a.gap && !b.gap) || (decide (a.gap = b.gap) && decide (a.cls < b.cls))))))

/-- A sheet is covered by an account when the account lies between its first and last account (R42). -/
def spans (first last : Key) (account : Nat) : Bool := decide (first.account ≤ account) && decide (account ≤ last.account)

/-! ## The calendar (R145) -/

/-- Gregorian leap years. -/
def leapYear (y : Nat) : Bool := (y % 4 == 0 && y % 100 != 0) || y % 400 == 0

/-- Days of a month. -/
def monthDays (y m : Nat) : Nat :=
  if m == 2 then (if leapYear y then 29 else 28) else if m == 4 || m == 6 || m == 9 || m == 11 then 30 else 31

/-- Days of a year before the first of month `m`. -/
def daysBeforeMonth (y : Nat) : Nat → Nat
  | 0 => 0
  | 1 => 0
  | m + 1 => daysBeforeMonth y m + monthDays y m

/-- Days of a year. -/
def yearDays (y : Nat) : Nat := if leapYear y then 366 else 365

/-- Days before the first of January of year `y`, counted from year 1. -/
def daysBeforeYear (y : Nat) : Nat := 365 * (y - 1) + (y - 1) / 4 - (y - 1) / 100 + (y - 1) / 400

/-- A civil date as a count of days from the first of January of year 1. -/
def dateDays (d : Date) : Nat := daysBeforeYear d.year + daysBeforeMonth d.year d.month + (d.day - 1)

/-- The year of a day count, sought upward from year `y` over at most `n` years, and the days left in it. -/
def findYear : Nat → Nat → Nat → Nat × Nat
  | 0, y, r => (y, r)
  | n + 1, y, r => if r < yearDays y then (y, r) else findYear n (y + 1) (r - yearDays y)

/-- The month of a day of a year, sought upward from month `m`, and the day of the month. -/
def findMonth (y : Nat) : Nat → Nat → Nat → Nat × Nat
  | 0, m, r => (m, r + 1)
  | n + 1, m, r => if r < monthDays y m then (m, r + 1) else findMonth y n (m + 1) (r - monthDays y m)

/-- The civil date of an archive day, day 0 being the epoch date (R145 step 1). -/
def civilDate (epoch : Date) (day : Nat) : Date :=
  let r := dateDays epoch + day - daysBeforeYear epoch.year
  let (y, r) := findYear 200 epoch.year r
  let (m, d) := findMonth y 11 1 r
  ⟨y, m, d⟩

/-- The horizon of a day under a policy of `months` and `grace` (R145 steps 1 to 5). -/
def horizonOf (epoch : Date) (day months grace : Nat) : Nat :=
  let c := civilDate epoch day
  let m := c.month + months
  let y := c.year + (m - 1) / 12
  let m := (m - 1) % 12 + 1
  let d := if c.day > monthDays y m then monthDays y m else c.day
  let e := dateDays ⟨y, m, d⟩ - dateDays epoch + grace
  if e > 65535 then 65535 else e

/-- The horizon under a policy; none when the class is kept forever (R145). -/
def horizon (epoch : Date) (day : Nat) (p : Policy) : Option Nat :=
  if p.keep then none else some (horizonOf epoch day p.months p.grace)

/-- Whether records of a day and class are due under a policy table on day `today` (R146). -/
def due (epoch : Date) (policies : List Policy) (today day cls : Nat) : Bool :=
  match (policies[cls]?).bind (horizon epoch day) with
  | some e => decide (e ≤ today)
  | none => false

/-! ## The context of a command's consequences -/

/-- What the consequences of a command read and do not change: the configuration, the port's channels and the clock. -/
structure Ctx where
  cfg : Cfg
  windows : Quad Window
  clock : Nat
  deriving DecidableEq, Repr

/-- The context of a state. -/
def State.ctx (s : State) : Ctx := ⟨s.cfg, s.windows, s.clock⟩

/-- Today, which the part has in REBUILDING and RUNNING (R35). -/
def Ctx.today (x : Ctx) : Nat := x.cfg.today.getD 0

/-- The settings in force. -/
def Ctx.set (x : Ctx) : Settings := x.cfg.settings

/-- A consequence added to those still to be taken. -/
def Works.task (w : Works) (t : Task) : Works := { w with tasks := w.tasks ++ [t] }

/-- Consequences added in order. -/
def Works.addTasks (w : Works) (l : List Task) : Works := { w with tasks := w.tasks ++ l }

/-- The next serial number. -/
def Works.next (w : Works) : Nat × Works := (w.serial, { w with serial := w.serial + 1 })

end Sys2Proof.Machine
end

