-- ==== Sys2Proof/Machine/Records.lean ====
section
/-!
DEFINITION. Reading a presented record (R9 to R11), matching it with a held one (R12), its class (R4, R141), the validity of
class entries and policies (R141, R142), and the plain form of a returned item (R6, R14, R186).
-/

namespace Sys2Proof.Machine

/-- The service of a code (R1). -/
def Service.ofCode : Nat → Service
  | 0 => .voice
  | 1 => .sms
  | 2 => .data
  | 3 => .mms
  | 4 => .voiceRoam
  | 5 => .dataRoam
  | 6 => .video
  | _ => .other

/-- The code of a service (R1). -/
def Service.code : Service → Nat
  | .voice => 0
  | .sms => 1
  | .data => 2
  | .mms => 3
  | .voiceRoam => 4
  | .dataRoam => 5
  | .video => 6
  | .other => 7

/-- DATA and DATA_ROAM, the services that may hold a volume (R1). -/
def Service.holdsVolume : Service → Bool
  | .data => true
  | .dataRoam => true
  | _ => false

/-! ## Classes and policies -/

/-- Whether a class entry as given is valid (R141); `enabled` is set (1) or clear (0). -/
def RawClass.valid (c : RawClass) : Bool :=
  decide (c.enabled ≤ 1) && decide (c.base ≤ Config.maxAccount) && decide (c.exp ≤ 12) && decide (1 ≤ c.cls) && decide (c.cls ≤ 7) &&
    decide (c.base % 10 ^ c.exp = 0) && decide (c.base + 10 ^ c.exp - 1 ≤ Config.maxAccount)

/-- A valid class entry (R141). -/
def RawClass.entry (c : RawClass) : ClassEntry := ⟨c.enabled == 1, c.base, c.exp, c.cls⟩

/-- Whether a policy as given is valid (R142); `keep` is set (1) or clear (0). -/
def RawPolicy.valid (p : RawPolicy) : Bool :=
  decide (1 ≤ p.months) && decide (p.months ≤ 120) && decide (p.grace ≤ 62) && decide (p.keep ≤ 1)

/-- A valid policy (R142). -/
def RawPolicy.policy (p : RawPolicy) : Policy := ⟨p.months, p.grace, p.keep == 1⟩

/-- An enabled entry matches the accounts of its span (R141). -/
def ClassEntry.matchesAccount (c : ClassEntry) (account : Nat) : Bool :=
  c.enabled && decide (c.base ≤ account) && decide (account < c.base + 10 ^ c.exp)

/-- The class of an account: that of the lowest-numbered enabled entry that matches it, or 0 (R141). -/
def classOf (table : List ClassEntry) (account : Nat) : Nat :=
  match table.find? (·.matchesAccount account) with
  | some c => c.cls
  | none => 0

/-! ## Reading a presented record -/

/-- The conditions of R10. -/
def Plain.malformed (p : Plain) : Bool :=
  decide (p.account = 0) || decide (Config.maxAccount < p.account) || decide (4095 < p.switch) || decide (1048575 < p.dur) ||
    decide (7 < p.service) || decide (2147483647 < p.charge) || (p.cellPresent && decide (268435455 < p.cell)) ||
    decide (32 < p.digitCount) || (p.digits.take p.digitCount).any (fun d => decide (9 < d))

/-- The held form of a presented record that passes R10, of class `cls` (R9, R11). -/
def Plain.held (p : Plain) (cls : Nat) : Rec :=
  let service := Service.ofCode p.service
  let carries := p.volumePresent && service.holdsVolume
  { account := p.account, switch := p.switch, seq := p.seq, start := p.start, dur := p.dur, service := service,
    charge := p.charge, tariff := p.tariff,
    other := if p.digitCount = 0 then none else some (p.digits.take (min p.digitCount 20)),
    cell := if p.cellPresent then some p.cell else none,
    volume := if carries then some (min p.volume 1099511627775) else none,
    cls := cls,
    marks := { volSat := carries && decide (1099511627775 < p.volume), otherTrunc := decide (20 < p.digitCount),
               late := false, amended := false } }

/-- Whether two records of one identity agree in the eleven given fields (R12). -/
def sameCall (a b : Rec) : Bool :=
  decide (a.account = b.account) && decide (a.switch = b.switch) && decide (a.seq = b.seq) && decide (a.start = b.start) &&
    decide (a.dur = b.dur) && decide (a.service = b.service) && decide (a.charge = b.charge) && decide (a.tariff = b.tariff) &&
    decide (a.other = b.other) && decide (a.cell = b.cell) && decide (a.volume = b.volume)

/-- The record after a CORRECT entry (R13). -/
def Rec.corrected (r : Rec) (dur charge tariff : Nat) : Rec :=
  { r with dur := dur, charge := charge, tariff := tariff, marks := { r.marks with amended := true } }

/-- The record as the Late List holds it (R5, R63). -/
def Rec.asLate (r : Rec) : Rec := { r with marks := { r.marks with late := true } }

/-! ## The plain form (R186) -/

/-- The digit places of a plain record: 16 bytes, the earlier digit in the upper half. -/
def digitBytes (d : List Nat) : Bytes :=
  (List.range 16).map fun j => BitVec.ofNat 8 (16 * (d.getD (2 * j) 0) + d.getD (2 * j + 1) 0)

/-- The plain record of 64 bytes at the head of `b` (R186). -/
def Plain.ofBytes (b : Bytes) : Plain :=
  { account := field b 0 8, seq := field b 8 6, switch := field b 14 2, start := field b 16 4, dur := field b 20 4,
    charge := field b 24 4, cell := field b 28 4, volume := field b 32 6, tariff := field b 38 2, day := field b 40 2,
    service := field b 42 1, cls := field b 43 1, marks := field b 44 1, kind := field b 45 1,
    cellPresent := hasBit (field b 46 1) 0, volumePresent := hasBit (field b 46 1) 1, digitCount := field b 47 1,
    digits := (slice b 48 16).flatMap fun x => [x.toNat / 16, x.toNat % 16] }

/-- A record in plain form, with PENDING where `pending` is set (R14, R186). -/
def Rec.plain (r : Rec) (pending : Bool) : Bytes :=
  le 8 r.account ++ le 6 r.seq ++ le 2 r.switch ++ le 4 r.start ++ le 4 r.dur ++ le 4 r.charge ++ le 4 (r.cell.getD 0) ++
    le 6 (r.volume.getD 0) ++ le 2 r.tariff ++ le 2 (dayOf r.start) ++ le 1 r.service.code ++ le 1 r.cls ++
    le 1 (bit r.marks.volSat 0 + bit r.marks.otherTrunc 1 + bit r.marks.late 2 + bit r.marks.amended 3 + bit pending 4) ++
    le 1 0 ++ le 1 (bit r.cell.isSome 0 + bit r.volume.isSome 1) ++ le 1 (r.other.getD []).length ++ digitBytes (r.other.getD [])

/-- A GAP in plain form (R6, R186). -/
def gapPlain (ref : SheetRef) : Bytes :=
  le 8 ref.first.account ++ le 6 ref.first.seq ++ le 2 ref.first.switch ++ le 4 ref.first.start ++ le 20 0 ++ le 2 ref.day ++
    le 1 0 ++ le 1 ref.cls ++ le 1 0 ++ le 1 1 ++ le 1 0 ++ le 1 0 ++ digitBytes []

end Sys2Proof.Machine
end

