-- ==== Sys2Proof/Machine/Sheets.lean ====
section
/-!
DEFINITION. Sheet packing (R15 to R34, R190): variable-length integers, the coded record, fitting records into sheets, the
checksum, and the images of the three kinds of sheet with the tests a read makes of them.
-/

namespace Sys2Proof.Machine

/-! ## Variable-length integers (R15) -/

/-- `v` in groups of 7 bits, least significant first, in at most `n + 1` bytes. -/
def varintAux : Nat → Nat → Bytes
  | 0, v => [BitVec.ofNat 8 v]
  | n + 1, v => if v < 128 then [BitVec.ofNat 8 v] else BitVec.ofNat 8 (128 + v % 128) :: varintAux n (v / 128)

/-- The variable-length integer of `v` (R15). -/
def varint (v : Nat) : Bytes := varintAux 7 v

/-- The smallest `n` of at least 1, up to 8, for which `v < 128 ^ n` (R15). -/
def varLen (v : Nat) : Nat :=
  if v < 128 then 1 else if v < 128 ^ 2 then 2 else if v < 128 ^ 3 then 3 else if v < 128 ^ 4 then 4
  else if v < 128 ^ 5 then 5 else if v < 128 ^ 6 then 6 else if v < 128 ^ 7 then 7 else 8

/-- A variable-length integer of at most `n` bytes read from the head of the bytes; none for one that runs on, or that is longer
than the shortest form (R15). -/
def readVarAux : Nat → Bytes → Option (Nat × Bytes)
  | 0, _ => none
  | _ + 1, [] => none
  | n + 1, b :: rest =>
    if b.toNat < 128 then some (b.toNat, rest)
    else match readVarAux n rest with
      | some (v, rest) => if v = 0 then none else some (b.toNat - 128 + 128 * v, rest)
      | none => none

/-- A variable-length integer whose value is at most `max` (R15). -/
def readVar (max : Nat) (b : Bytes) : Option (Nat × Bytes) :=
  match readVarAux 8 b with
  | some (v, rest) => if v ≤ max then some (v, rest) else none
  | none => none

/-- `n` bytes from the head of the bytes. -/
def readBytes (n : Nat) (b : Bytes) : Option (Bytes × Bytes) := if n ≤ b.length then some (b.take n, b.drop n) else none

/-! ## The coded record (R16 to R20) -/

/-- Digits in pairs, the pad digit 15 after an odd last one (R18). -/
def pairDigits : List Nat → Bytes
  | [] => []
  | [d] => [BitVec.ofNat 8 (16 * d + 15)]
  | d :: e :: l => BitVec.ofNat 8 (16 * d + e) :: pairDigits l

/-- SAME_ACCOUNT's case (R16). -/
def sameAccount (prev : Option Rec) (r : Rec) : Bool := prev.any fun p => decide (p.account = r.account)

/-- SAME_TARIFF's case (R16). -/
def sameTariff (prev : Option Rec) (r : Rec) : Bool := prev.any fun p => decide (p.tariff = r.tariff)

/-- The head byte (R16, R190). -/
def headByte (prev : Option Rec) (r : Rec) : Byte :=
  BitVec.ofNat 8 (r.service.code + bit (sameAccount prev r) 3 + bit (sameTariff prev r) 4 + bit r.other.isSome 5 +
    bit r.cell.isSome 6 + bit r.volume.isSome 7)

/-- The account delta: against the previous record, 0 for the first of a sheet (R17). -/
def accountDelta (prev : Option Rec) (r : Rec) : Nat :=
  match prev with
  | none => 0
  | some p => r.account - p.account

/-- The start field: against the previous record with SAME_ACCOUNT, else against the start of the day (R17). -/
def startField (prev : Option Rec) (r : Rec) : Nat :=
  match prev with
  | none => r.start % Config.daySeconds
  | some p => if p.account = r.account then r.start - p.start else r.start % Config.daySeconds

/-- The marks byte (R19, R190). -/
def marksByte (r : Rec) : Byte :=
  BitVec.ofNat 8 (r.cls + bit r.marks.volSat 3 + bit r.marks.otherTrunc 4 + bit r.marks.late 5 + bit r.marks.amended 6)

/-- A record coded after `prev` (R16 to R19). -/
def codeRec (prev : Option Rec) (r : Rec) : Bytes :=
  [headByte prev r] ++ (if sameAccount prev r then [] else varint (accountDelta prev r)) ++ varint (startField prev r) ++
    varint r.dur ++ varint r.switch ++ varint r.seq ++ varint r.charge ++
    (if sameTariff prev r then [] else [BitVec.ofNat 8 (r.tariff / 256), BitVec.ofNat 8 r.tariff]) ++
    (match r.other with | some d => BitVec.ofNat 8 d.length :: pairDigits d | none => []) ++
    (match r.cell with | some c => varint c | none => []) ++
    (match r.volume with | some v => varint v | none => []) ++ [marksByte r]

/-- The coded length of a record after `prev` (R20). -/
def codedLen (prev : Option Rec) (r : Rec) : Nat :=
  1 + (if sameAccount prev r then 0 else varLen (accountDelta prev r)) + varLen (startField prev r) + varLen r.dur +
    varLen r.switch + varLen r.seq + varLen r.charge + (if sameTariff prev r then 0 else 2) +
    (match r.other with | some d => 1 + (d.length + 1) / 2 | none => 0) +
    (match r.cell with | some c => varLen c | none => 0) + (match r.volume with | some v => varLen v | none => 0) + 1

/-- The records of a sheet coded one after another, the first after `prev`. -/
def codeFrom (prev : Option Rec) : List Rec → Bytes
  | [] => []
  | r :: l => codeRec prev r ++ codeFrom (some r) l

/-- The body of a DATA sheet (R22). -/
def codeBody (l : List Rec) : Bytes := codeFrom none l

/-- The coded length of records, the first after `prev`. -/
def lenFrom (prev : Option Rec) : List Rec → Nat
  | [] => 0
  | r :: l => codedLen prev r + lenFrom (some r) l

/-- The body length of a DATA sheet (R26). -/
def bodyLength (l : List Rec) : Nat := lenFrom none l

/-- Digit pairs read as `n` digits (R18). -/
def readDigits : Nat → Bytes → Option (List Nat)
  | 0, _ => some []
  | _ + 1, [] => none
  | 1, b :: _ => if b.toNat / 16 ≤ 9 ∧ b.toNat % 16 = 15 then some [b.toNat / 16] else none
  | n + 2, b :: rest =>
    if b.toNat / 16 ≤ 9 ∧ b.toNat % 16 ≤ 9 then (readDigits n rest).map fun l => b.toNat / 16 :: b.toNat % 16 :: l else none

/-- An other party read from the head of the bytes (R18). -/
def readOther (b : Bytes) : Option (List Nat × Bytes) :=
  match b with
  | [] => none
  | n :: rest =>
    if 1 ≤ n.toNat ∧ n.toNat ≤ 20 then
      match readBytes ((n.toNat + 1) / 2) rest with
      | some (d, rest) => (readDigits n.toNat d).map fun l => (l, rest)
      | none => none
    else none

/-- One record read from the head of the bytes of a sheet of day `day` and class `cls` whose first account is `account`, after
`prev`; none is a decode failure (R15 to R19, R28). -/
def readRec (day cls account : Nat) (prev : Option Rec) (b : Bytes) : Option (Rec × Bytes) := do
  let (head, b) ← (match b with | [] => none | x :: rest => some (x.toNat, rest))
  let same := hasBit head 3
  let sameT := hasBit head 4
  let service := Service.ofCode (head % 8)
  if (same || sameT) && prev.isNone then none
  let (delta, b) ← if same then some (0, b) else readVar Config.maxAccount b
  if !same && decide (delta = 0) && prev.isSome then none
  if decide (delta ≠ 0) && prev.isNone then none
  let acct := match prev with | none => account | some p => p.account + delta
  if acct = 0 ∨ Config.maxAccount < acct then none
  let (off, b) ← readVar (Config.daySeconds - 1) b
  let start := match same, prev with | true, some p => p.start + off | _, _ => day * Config.daySeconds + off
  if dayOf start ≠ day ∨ 4294967295 < start then none
  let (dur, b) ← readVar 1048575 b
  let (switch, b) ← readVar 4095 b
  let (seq, b) ← readVar (2 ^ 48 - 1) b
  let (charge, b) ← readVar 2147483647 b
  let (tariff, b) ← if sameT then some ((prev.map (·.tariff)).getD 0, b)
    else (readBytes 2 b).map fun (t, b) => ((t.getD 0 0).toNat * 256 + (t.getD 1 0).toNat, b)
  if !sameT && prev.any (fun p => decide (p.tariff = tariff)) then none
  let (other, b) ← if hasBit head 5 then (readOther b).map fun (d, b) => (some d, b) else some (none, b)
  let (cell, b) ← if hasBit head 6 then (readVar 268435455 b).map fun (c, b) => (some c, b) else some (none, b)
  if hasBit head 7 && !service.holdsVolume then none
  let (volume, b) ← if hasBit head 7 then (readVar 1099511627775 b).map fun (v, b) => (some v, b) else some (none, b)
  let (m, b) ← (match b with | [] => none | x :: rest => some (x.toNat, rest))
  if m % 8 ≠ cls ∨ hasBit m 7 then none
  let r : Rec := ⟨acct, switch, seq, start, dur, service, charge, tariff, other, cell, volume, cls,
    ⟨hasBit m 3, hasBit m 4, hasBit m 5, hasBit m 6⟩⟩
  if prev.any (fun p => !p.key.lt r.key) then none
  some (r, b)

/-- `n` records that end exactly with the bytes (R28). -/
def readRecs (day cls account : Nat) : Nat → Option Rec → Bytes → Option (List Rec)
  | 0, _, b => if b = [] then some [] else none
  | n + 1, prev, b =>
    match readRec day cls account prev b with
    | some (r, b) => (readRecs day cls account n (some r) b).map fun l => r :: l
    | none => none

/-! ## Fitting records into sheets (R21) -/

/-- The greedy fill of R21: `sheet` is the sheet being filled, `body` its body length. -/
def fillFrom (sheet : List Rec) (body : Nat) : List Rec → List (List Rec)
  | [] => if sheet = [] then [] else [sheet]
  | r :: l =>
    match sheet.getLast? with
    | none => fillFrom [r] (codedLen none r) l
    | some p =>
      if body + codedLen (some p) r ≤ Config.bodyMax ∧ sheet.length + 1 ≤ Config.sheetRecords then
        fillFrom (sheet ++ [r]) (body + codedLen (some p) r) l
      else sheet :: fillFrom [r] (codedLen none r) l

/-- An ordered sequence of records packed into sheets (R21). -/
def packSheets (l : List Rec) : List (List Rec) := fillFrom [] 0 l

/-! ## Headers and the checksum (R27, R29, R190) -/

/-- One byte taken into the sums of R29. -/
def sumStep (s : Nat × Nat) (x : Byte) : Nat × Nat :=
  let a := (s.1 + x.toNat) % 65535
  (a, (s.2 + a) % 65535)

/-- The checksum of R29 over bytes. -/
def checksum (b : Bytes) : Nat :=
  let s := b.foldl sumStep (1, 0)
  s.2 * 65536 + s.1

/-- A sheet header (R27). -/
structure Header where
  kind : SheetKind
  cls : Nat
  day : Nat
  firstAccount : Nat
  lastAccount : Nat
  group : Nat
  count : Nat
  bodyLen : Nat
  deriving DecidableEq, Repr

/-- The code of a sheet kind (R190). -/
def SheetKind.code : SheetKind → Nat
  | .data => 1
  | .summary => 2
  | .hold => 3

/-- The kind of a code (R190). -/
def SheetKind.ofCode : Nat → Option SheetKind
  | 1 => some .data
  | 2 => some .summary
  | 3 => some .hold
  | _ => none

/-- Header bytes 0 to 27 (R190). -/
def Header.bytes (h : Header) : Bytes :=
  le 1 h.kind.code ++ le 1 h.cls ++ le 2 h.day ++ le 8 h.firstAccount ++ le 8 h.lastAccount ++ le 4 h.group ++ le 2 h.count ++
    le 2 h.bodyLen

/-- An image: header, checksum and body; the rest of the slot is 0 (R27). -/
def sheetImage (h : Header) (body : Bytes) : Bytes := h.bytes ++ le 4 (checksum (h.bytes ++ body)) ++ body

/-- The image of a DATA sheet (R26, R27). -/
def dataImage (day cls group : Nat) (recs : List Rec) : Bytes :=
  let body := codeBody recs
  sheetImage { kind := .data, cls := cls, day := day, firstAccount := (recs.head?.map (·.account)).getD 0,
               lastAccount := (recs.getLast?.map (·.account)).getD 0, group := group, count := recs.length,
               bodyLen := body.length } body

/-! ## Summaries (R32, R33) -/

/-- A triple of a summary's fixed part: 30 bytes (R190). -/
def tripleBytes (t : Triple) : Bytes := leInt 10 t.count ++ leInt 10 t.dur ++ leInt 10 t.charge

/-- A triple read from 30 bytes of `b` at offset `i`. -/
def tripleAt (b : Bytes) (i : Nat) : Triple :=
  ⟨signed 10 (field b i 10), signed 10 (field b (i + 10) 10), signed 10 (field b (i + 20) 10)⟩

/-- A range of a retirement list coded (R33). -/
def codeRange (r : KeyRange) : Bytes :=
  [BitVec.ofNat 8 r.cls] ++ varint r.first.account ++ varint (r.first.start % Config.daySeconds) ++ varint r.first.switch ++
    varint r.first.seq ++ varint (r.last.account - r.first.account) ++
    varint (if r.last.account = r.first.account then r.last.start - r.first.start else r.last.start % Config.daySeconds) ++
    varint r.last.switch ++ varint r.last.seq

/-- A retirement list coded (R33). -/
def codeRanges (l : List KeyRange) : Bytes := l.flatMap codeRange

/-- Whether a list is within the limits of R33. -/
def rangesFit (l : List KeyRange) : Bool :=
  decide (l.length ≤ Config.listRanges) && decide ((codeRanges l).length ≤ Config.listBytes)

/-- Whether a start lies in its range and in a day (R1, R3). -/
def startOfDay (day start : Nat) : Bool := decide (dayOf start = day) && decide (start ≤ 4294967295)

/-- A range read from the head of the bytes (R33); an account or a start outside its range is a decode failure (R1, R15). -/
def readRange (day : Nat) (b : Bytes) : Option (KeyRange × Bytes) := do
  let (c, b) ← (match b with | [] => none | x :: rest => some (x.toNat, rest))
  if 7 < c then none
  let (account, b) ← readVar Config.maxAccount b
  let (off, b) ← readVar (Config.daySeconds - 1) b
  let (switch, b) ← readVar 4095 b
  let (seq, b) ← readVar (2 ^ 48 - 1) b
  let first : Key := ⟨account, day * Config.daySeconds + off, switch, seq⟩
  let (delta, b) ← readVar Config.maxAccount b
  let (off, b) ← readVar (Config.daySeconds - 1) b
  let (switch, b) ← readVar 4095 b
  let (seq, b) ← readVar (2 ^ 48 - 1) b
  let last : Key := ⟨account + delta, (if delta = 0 then first.start else day * Config.daySeconds) + off, switch, seq⟩
  if first.account = 0 ∨ Config.maxAccount < last.account then none
  if !startOfDay day first.start || !startOfDay day last.start then none
  if last.lt first then none
  some (⟨c, first, last⟩, b)

/-- `n` ranges that end exactly with the bytes. -/
def readRanges (day : Nat) : Nat → Bytes → Option (List KeyRange)
  | 0, b => if b = [] then some [] else none
  | n + 1, b =>
    match readRange day b with
    | some (r, b) => (readRanges day n b).map fun l => r :: l
    | none => none

/-- Ranges ordered by class and first key, none overlapping (R33). -/
def rangesOrdered : List KeyRange → Bool
  | [] => true
  | [_] => true
  | a :: b :: l => (decide (a.cls < b.cls) || (decide (a.cls = b.cls) && a.last.lt b.first)) && rangesOrdered (b :: l)

/-- A summary's body (R32, R190). -/
def Summary.bytes (s : Summary) : Bytes :=
  le 1 (bit s.gone 0) ++ le 7 0 ++ tripleBytes s.intake ++ tripleBytes s.retired ++ tripleBytes s.voided ++ tripleBytes s.corr ++
    codeRanges s.ranges

/-- The image of a SUMMARY sheet (R27, R32). -/
def summaryImage (day group : Nat) (s : Summary) : Bytes :=
  sheetImage ⟨.summary, 0, day, 0, 0, group, s.ranges.length, s.bytes.length⟩ s.bytes

/-- A summary's body read; none is a decode failure (R32, R33). -/
def readSummary (day count : Nat) (b : Bytes) : Option Summary := do
  if b.length < 128 then none
  let gone := field b 0 1
  if 1 < gone then none
  let corr := tripleAt b 98
  if corr.count ≠ 0 then none
  if Config.listRanges < count then none
  let ranges ← readRanges day count (b.drop 128)
  if !rangesOrdered ranges then none
  some ⟨gone == 1, tripleAt b 8, tripleAt b 38, tripleAt b 68, corr, ranges⟩

/-! ## Hold sheets (R34) -/

/-- A day that may be absent, in 2 bytes (R183). -/
def optDay (d : Option Nat) : Bytes := le 2 (d.getD Config.absentDay)

/-- A hold entry: 32 bytes (R190). -/
def holdRowBytes (account : Nat) (e : HoldEntry) : Bytes :=
  le 8 account ++ le 1 e.disputes ++ le 1 (bit e.reg.isSome 0) ++ optDay (e.reg.map (·.placed)) ++
    optDay (e.reg.bind (·.release)) ++ le 18 0

/-- The image of a HOLD sheet over a span, with its generation (R34). -/
def holdImage (p : HoldPart) (generation : Nat) : Bytes :=
  sheetImage ⟨.hold, 0, 0, p.lo, p.hi, generation, p.rows.length, 32 * p.rows.length⟩
    (p.rows.flatMap fun r => holdRowBytes r.1 r.2)

/-- A hold entry read from 32 bytes. A regulatory-present byte other than 0 is taken as present (DESIGN CHOICE,
notes/assumptions/11.md). -/
def readHoldRow (b : Bytes) : Nat × HoldEntry :=
  let release := field b 12 2
  (field b 0 8, ⟨field b 8 1, if field b 9 1 = 0 then none else
    some ⟨field b 10 2, if release = Config.absentDay then none else some release⟩⟩)

/-- `n` hold entries. -/
def readHoldRows : Nat → Bytes → Tbl HoldEntry
  | 0, _ => []
  | n + 1, b => readHoldRow b :: readHoldRows n (b.drop 32)

/-- The tests of R34 on entries of a span. -/
def holdRowsValid (lo hi : Nat) (rows : Tbl HoldEntry) : Bool :=
  tblSorted rows && rows.all fun r => decide (lo ≤ r.1) && decide (r.1 ≤ hi) && (decide (r.2.disputes ≠ 0) || r.2.reg.isSome) &&
    (match r.2.reg with | some ⟨placed, some release⟩ => decide (placed ≤ release) | _ => true)

/-! ## Reading an image (R28, R30) -/

/-- A sheet that decodes well. -/
inductive Sheet where
  | data (h : Header) (recs : List Rec)
  | summary (h : Header) (body : Summary)
  | hold (h : Header) (rows : Tbl HoldEntry)
  deriving DecidableEq, Repr

/-- The header of an image; none when its kind is none of R190's. -/
def readHeader (b : Bytes) : Option Header :=
  (SheetKind.ofCode (field b 0 1)).map fun k =>
    ⟨k, field b 1 1, field b 2 2, field b 4 8, field b 12 8, field b 20 4, field b 24 2, field b 26 2⟩

/-- The test of R30: the checksum, then the decode of the sheet's kind (R28, R32 to R34). None is a failed test. -/
def readSheet (b : Bytes) : Option Sheet := do
  let h ← readHeader b
  if Config.bodyMax < h.bodyLen then none
  let body := slice b Config.headerBytes h.bodyLen
  if checksum (slice b 0 28 ++ body) ≠ field b 28 4 then none
  match h.kind with
  | .data =>
    if h.count = 0 ∨ Config.sheetRecords < h.count ∨ 7 < h.cls then none
    let recs ← readRecs h.day h.cls h.firstAccount h.count none body
    if (recs.getLast?.map (·.account)) ≠ some h.lastAccount then none
    some (.data h recs)
  | .summary => (readSummary h.day h.count body).map (.summary h)
  | .hold =>
    if h.bodyLen ≠ 32 * h.count ∨ h.count = 0 ∨ Config.holdSheet < h.count then none
    let rows := readHoldRows h.count body
    if !holdRowsValid h.firstAccount h.lastAccount rows then none
    some (.hold h rows)

/-- The kind of an image as its first byte names it. -/
def imageKind (b : Bytes) : SheetKind := (SheetKind.ofCode (field b 0 1)).getD .data

/-- The records of a DATA image that decodes well. -/
def imageRecs (b : Bytes) : List Rec :=
  match readSheet b with
  | some (.data _ recs) => recs
  | _ => []

end Sys2Proof.Machine
end

