-- ==== Sys2Proof/Machine/Formats.lean ====
section
/-!
DEFINITION. The layouts of what the part writes to the host: response records and notices (R188), the file report and the
settings block (R187), the day report, the audit statement and the status report (R189).
-/

namespace Sys2Proof.Machine

/-! ## Codes -/

/-- Outcome (R188). -/
def Verdict.code : Verdict → Nat
  | .done => 0
  | .partly => 1
  | .refused => 2

/-- Reason, in the order of R168's table (R188). -/
def Reason.code : Reason → Nat
  | .busy => 1
  | .dayOrder => 2
  | .duplicateFile => 3
  | .malformed => 4
  | .media => 5
  | .notFound => 6
  | .notReady => 7
  | .parcelOrder => 8
  | .quarantined => 9
  | .reset => 10
  | .state => 11
  | .tableFull => 12
  | .tooLarge => 13
  | .unbalanced => 14

/-- The place of a notice kind in R170's table, from 0. -/
def NoticeKind.index : NoticeKind → Nat
  | .quarantined => 0
  | .channelOffline => 1
  | .clearSpaceLow => 2
  | .arrayFull => 3
  | .fileSettled => 4
  | .sweepDone => 5
  | .rebuildDiscrepancy => 6
  | .rebuildDone => 7

/-- The kinds in R170's order. -/
def NoticeKind.all : List NoticeKind :=
  [.quarantined, .channelOffline, .clearSpaceLow, .arrayFull, .fileSettled, .sweepDone, .rebuildDiscrepancy, .rebuildDone]

/-- File state (R187). -/
def FileState.code : FileState → Nat
  | .receiving => 0
  | .settling => 1
  | .reconciled => 2
  | .discrepant => 3
  | .abandoned => 4

/-- Day state (R189). -/
def DayState.code : DayState → Nat
  | .opened => 0
  | .closing => 1
  | .closed => 2

/-- Kind in progress, in the order of R76 (R189). -/
def ItemKind.code : ItemKind → Nat
  | .closeRun => 1
  | .merge => 2
  | .apply => 3
  | .trim => 4
  | .retire => 5
  | .restore => 6

/-- Run state (R189). -/
def RunState.code : RunState → Nat
  | .live => 1
  | .expiring => 2
  | .residual => 3

/-- Finding, in the order of R162 (R189). -/
def Finding.code : Finding → Nat
  | .priorQuarantine => 0
  | .unread => 1
  | .readFailed => 2
  | .header => 3
  | .totals => 4
  | .identity => 5

/-- Verdict of an audit (R189). -/
def AuditVerdict.code : AuditVerdict → Nat
  | .agrees => 0
  | .differs => 1
  | .incomplete => 2

/-! ## Pieces -/

/-- A key in 20 bytes (R186). -/
def Key.bytes (k : Key) : Bytes := le 8 k.account ++ le 4 k.start ++ le 2 k.switch ++ le 6 k.seq

/-- A totals triple in 32 bytes, signed (R186). -/
def Triple.bytes (t : Triple) : Bytes := leInt 8 t.count ++ leInt 8 t.dur ++ leInt 16 t.charge

/-- File totals in 32 bytes, unsigned (R187). -/
def FileTotals.bytes (t : FileTotals) : Bytes := le 8 t.count ++ le 8 t.dur ++ le 16 t.charge

/-- A count of a notice in `n` bytes; one too large for its field is a free value. -/
def countBytes (n v : Nat) : Bytes := if v < 256 ^ n then le n v else le n (Config.overwide n v)

/-- The outcome counts of a parcel's response: 13 bits each, packed from bit 0 (R188). -/
def packCounts : List Nat → Nat
  | [] => 0
  | c :: l => c % 8192 + 8192 * packCounts l

/-- A position (R188). At BEFORE_FIRST and AFTER_LAST the class bits and the key are 0 (DESIGN CHOICE, notes/assumptions/81.md). -/
def Position.bytes : Position → Bytes
  | .beforeFirst => le 1 0 ++ le 20 0
  | .afterLast => le 1 1 ++ le 20 0
  | .place p => le 1 ((if p.gap then 3 else 2) + 16 * (p.cls % 8)) ++ p.key.bytes

/-- An entry of the Hold Table in a response (R188). -/
def holdBytes (e : Option HoldEntry) : Bytes :=
  le 1 ((e.map (·.disputes)).getD 0) ++ le 1 (bit (e.bind (·.reg)).isSome 0) ++ optDay ((e.bind (·.reg)).map (·.placed)) ++
    optDay ((e.bind (·.reg)).bind (·.release))

/-! ## Responses (R188) -/

/-- Results from offset 8, before the padding. -/
def Result.bytes : Result → Bytes
  | .empty => []
  | .named n => le 2 n
  | .parcel consumed written state counts =>
    le 2 consumed ++ le 2 written ++ le 1 state.code ++ le 18 (packCounts counts)
  | .fileSlot slot state => le 2 slot ++ le 1 state.code
  | .fileClosed slot state t =>
    le 2 slot ++ le 1 state.code ++ le 7 (min t.count (2 ^ 56 - 1)) ++ le 7 (min t.dur (2 ^ 56 - 1)) ++
      le 7 (min t.charge (2 ^ 56 - 1))
  | .cursor number generation => le 1 number ++ le 2 generation
  | .read items position => le 2 items ++ position.bytes
  | .entries n => le 2 n
  | .committed n d g net => le 2 n ++ le 2 d ++ le 4 g ++ leInt 8 net
  | .rolled today closing => le 2 today ++ le 2 closing
  | .dayState state => le 1 state.code
  | .swept again => le 1 (bit again 0)
  | .audited v => le 1 v.code
  | .hold entry earliest => holdBytes entry ++ optDay earliest
  | .released entry => holdBytes entry
  | .holdState entry lo hi generation _ _ => holdBytes entry ++ le 7 lo ++ le 7 hi ++ le 4 generation
  | .sheet d cls first => le 2 d ++ le 1 cls ++ first.bytes
  | .channelClear mc clear => le 1 mc.val ++ le 4 clear
  | .slots n => le 4 n
  | .file source fileId state => le 2 source ++ le 4 fileId ++ le 1 state.code
  | .sweepDone today c kept keptQ =>
    le 2 today ++ countBytes 2 c.runsDue ++ countBytes 4 c.retired ++ countBytes 2 c.retiredQuarantined ++
      countBytes 3 c.trimmed ++ countBytes 4 c.recordsRetired ++ countBytes 3 kept ++ countBytes 2 keptQ ++
      countBytes 2 c.daysRemoved
  | .day d => le 2 d
  | .rebuildDone c =>
    countBytes 2 c.days ++ countBytes 2 c.discrepant ++ countBytes 4 c.kept ++ countBytes 4 c.voided ++ countBytes 4 c.stale ++
      countBytes 3 c.holds

/-- The flag bits that HOLD STATE adds: REWRITING in bit 2 and the wait count, saturated at 31, from bit 3. -/
def Result.flags : Result → Nat
  | .holdState _ _ _ _ rewriting waiting => bit rewriting 2 + 8 * min waiting 31
  | _ => 0

/-- A response record or notice: 32 bytes (R188). -/
def Response.bytes (r : Response) : Bytes :=
  le 4 r.tag.toNat ++ le 1 r.verdict.code ++ le 1 ((r.reason.map (·.code)).getD 0) ++
    le 1 ((r.notice.map (·.index + 1)).getD 0) ++ le 1 (bit r.endMark 0 + bit r.merged 1 + r.result.flags) ++
    padTo 24 r.result.bytes

/-! ## The file report (R187) -/

/-- The target fields, 0 for a NORMAL file. -/
def targetBytes (t : Option Target) : Bytes :=
  match t with
  | none => le 76 0
  | some t => le 2 t.day ++ le 1 t.cls ++ le 1 0 ++ t.first.bytes ++ t.last.bytes ++ t.totals.bytes

/-- The file report: 248 bytes. An outcome count too large for its field is a free value (DESIGN CHOICE, notes/assumptions/30.md). With
no parcel in flight the byte of its request channel is 0, as its tag is (R68, R187; DESIGN CHOICE, notes/assumptions/74.md). -/
def File.report (f : File) : Bytes :=
  le 2 f.source ++ le 4 f.fileId ++ le 1 f.state.code ++ le 1 (bit f.target.isSome 0) ++ le 4 f.nextSeq ++ le 4 f.resume ++
    le 4 ((f.parcel.map (·.tag.toNat)).getD 0) ++ le 1 ((f.parcel.map (·.ch.val)).getD 0) ++
    le 1 (bit f.declared.isSome 0 + bit f.saturated 1) ++ le 2 0 ++ (f.declared.getD ⟨0, 0, 0⟩).bytes ++ f.presented.bytes ++
    (List.range 11).flatMap (fun i => countBytes 4 (f.counts.getD i 0)) ++ le 4 f.outstanding ++ le 4 f.restoreSet.length ++ (recTotals f.restoreSet).bytes ++
    targetBytes f.target

/-! ## The settings block (R187) -/

/-- A media channel of the block. -/
def MediaCfg.bytes (m : MediaCfg) : Bytes :=
  le 4 m.extents ++ le 1 (match m.sensing with | .readyLine => 0 | .fixedTime => 1) ++ le 1 m.low ++ le 1 m.high ++ le 1 0 ++
    le 2 m.program ++ le 2 m.read ++ le 2 m.clear ++ le 2 0

/-- A class entry of the block. -/
def ClassEntry.bytes (c : ClassEntry) : Bytes := le 1 (bit c.enabled 0) ++ le 1 c.exp ++ le 1 c.cls ++ le 5 0 ++ le 8 c.base

/-- A policy of the block. -/
def Policy.bytes (p : Policy) : Bytes := le 1 p.months ++ le 1 p.grace ++ le 1 (bit p.keep 0) ++ le 1 0

/-- The settings as they stand: 392 bytes, with the current copies of the class and policy tables (R174, R187; DESIGN CHOICE,
notes/assumptions/69.md). -/
def Cfg.block (c : Cfg) : Bytes :=
  let s := c.settings
  le 2 s.epoch.year ++ le 1 s.epoch.month ++ le 1 s.epoch.day ++ optDay c.today ++ le 1 s.closeLag ++ le 1 (bit s.preference 0) ++
    s.media.toList.flatMap (·.bytes) ++ le 1 s.stall ++ le 1 0 ++ le 2 s.merge ++ le 1 s.hold ++ le 1 0 ++ le 2 s.idle ++
    le 2 s.scrub ++ NoticeKind.all.flatMap (fun k => le 1 (s.routes.getD k.index 0).val) ++ s.watermarks.toList.flatMap (le 2) ++ le 6 0 ++
    slice (c.classes.flatMap (·.bytes)) 0 256 ++ slice (c.policies.flatMap (·.bytes)) 0 32

/-! ## The day part (R189) -/

/-- Every entry of a day. -/
def DayEntry.entries (d : DayEntry) : List Entry := d.runs.flatMap (·.entries)

/-- The index totals of entries (R14). -/
def indexTotals (l : List Entry) : Triple := Triple.sum (l.map (·.totals))

/-- The day part of a report or statement: 248 bytes. -/
def DayEntry.part (d : DayEntry) (day : Nat) (today : Option Nat) : Bytes :=
  le 2 day ++ optDay today ++ le 1 d.state.code ++ le 1 (bit d.underAudit 0 + bit d.discrepant 1 + bit d.going 2) ++
    le 1 ((d.inProgress.map (·.2.code)).getD 0) ++ le 1 ((d.awaiting.map (2 ^ ·)).sum) ++ le 4 d.group ++ le 4 d.owed ++
    d.intake.bytes ++ d.retired.bytes ++ d.voided.bytes ++ d.corr.bytes ++ d.staged.bytes ++ d.late.bytes ++
    (indexTotals d.entries).bytes ++ le 4 d.entries.length ++ le 4 (d.entries.countP (·.quarantined))

/-- The run place of class `c` in a day report. -/
def DayEntry.runPlace (d : DayEntry) (c : Nat) : Bytes :=
  match d.runs.find? (fun r => decide (r.cls = c)) with
  | none => padTo 64 (le 1 c)
  | some r =>
    padTo 32 (le 1 c ++ le 1 r.state.code ++ le 4 r.entries.length ++ le 4 (r.entries.countP (·.quarantined)) ++
      le 8 ((r.entries.map (·.bodyLen)).sum)) ++ (indexTotals r.entries).bytes

/-- The day report: 760 bytes. -/
def DayEntry.report (d : DayEntry) (day : Nat) (today : Option Nat) : Bytes :=
  d.part day today ++ (List.range 8).flatMap d.runPlace

/-! ## The audit statement (R189) -/

/-- A reference of a statement: 32 bytes. -/
def AuditRef.bytes (r : AuditRef) : Bytes :=
  le 1 r.cls ++ le 1 r.finding.code ++ le 1 (r.slot.idx % Config.extentSlots) ++ le 1 r.slot.ch.val ++
    le 4 (r.slot.idx / Config.extentSlots) ++ le 4 r.group ++ r.first.bytes

/-- The statement of an audit over the day's figures: 1328 bytes. -/
def Audit.statement (a : Audit) (d : DayEntry) (today : Option Nat) (verdict : AuditVerdict) : Bytes :=
  padTo 1328 (d.part a.day today ++ a.held.bytes ++ le 4 a.met ++ le 4 a.read ++ le 4 a.passed ++ le 4 a.unread ++
    le 4 a.omitted ++ le 1 a.refs.length ++ le 1 verdict.code ++ le 2 0 ++ a.refs.flatMap (·.bytes))

/-! ## The status report (R175, R189) -/

/-- Slots of a channel in a state. -/
def MediaChan.countState (c : MediaChan) (st : SlotState) : Nat := c.slots.countP fun p => decide (p.2.state = st)

/-- The extents whose CLEAR slots are not counted: RELOCATING, CLEARING, BAD or condemned (R96). -/
def MediaChan.uncounted (c : MediaChan) : List Nat :=
  (c.exts.filter fun p => decide (p.2.state = .relocating) || decide (p.2.state = .clearing) || decide (p.2.state = .bad) ||
    decide (2 ≤ p.2.failures)).map (·.1)

/-- The CLEAR count of a channel with the extents of `m`: the slots of counted extents that are in no other state (R96). -/
def MediaChan.clearCount (c : MediaChan) (m : MediaCfg) : Nat :=
  let out := c.uncounted
  Config.extentSlots * (m.extents - out.length) - c.slots.countP fun p => decide (p.1 / Config.extentSlots ∉ out)

/-- Slots the rebuild scan has passed on a channel, of those it has. -/
def scannedOf (m : MediaCfg) (s : Scan) : Nat := min s.next (Config.extentSlots * m.extents)

/-- The part's figures. -/
def statusPart (x : Ctx) (w : Works) : Bytes :=
  let scanned := (channels.map fun c => scannedOf (x.set.media.get c) (w.rebuild.scans.get c)).sum
  let total := match w.part with
    | .starting => 0
    | _ => (channels.map fun c => Config.extentSlots * (x.set.media.get c).extents).sum
  le 1 (match w.part with | .starting => 0 | .rebuilding => 1 | .running => 2) ++ le 1 0 ++ optDay x.cfg.today ++
    le 4 (min scanned total) ++ le 4 (total - min scanned total)

/-- A request channel's figures. -/
def statusChannel (x : Ctx) (w : Works) (ch : Fin 4) : Bytes :=
  le 1 (match (x.windows.get ch).state with | .unset => 0 | .active => 1 | .stopped => 2) ++ le 3 0 ++
    le 4 (w.port.reqs.countP fun r => decide (r.ch = ch)) ++ le 4 (w.port.out.get ch).length ++
    le 4 (x.set.watermarks.get ch)

/-- A media channel's figures. -/
def statusMedia (x : Ctx) (w : Works) (mc : Fin 4) : Bytes :=
  let c := w.array.chans.get mc
  let m := x.set.media.get mc
  le 1 (if m.extents = 0 then 0 else if c.online then 1 else 2) ++ le 1 (bit c.relocation.isSome 0) ++ le 2 0 ++
    le 4 (c.clearCount m) ++ le 4 (c.countState .live) ++ le 4 (c.countState .stale) ++ le 4 (c.countState .bad)

/-- Batch state code. -/
def BatchState.code : BatchState → Nat
  | .none => 0
  | .collecting => 1
  | .checking => 2
  | .applying => 3

/-- The audit's figures. The class and the first key of a scrub position of BEFORE_FIRST are 0 (R189; DESIGN CHOICE,
notes/assumptions/82.md). -/
def statusAudit (w : Works) : Bytes :=
  (match w.audit with
    | none => le 1 0 ++ le 1 0 ++ le 2 Config.absentDay
    | some a => le 1 (if a.draining then 1 else 2) ++ le 1 0 ++ le 2 a.day) ++
    (match w.scrub.position with
      | none => le 2 Config.absentDay ++ le 2 0 ++ le 20 0
      | some (d, c, k) => le 2 d ++ le 1 c ++ le 1 0 ++ k.bytes) ++
    countBytes 4 w.scrub.scrubbed ++ countBytes 4 w.scrub.failures ++ countBytes 4 w.scrub.passes

/-- The status report: 1152 bytes. -/
def statusReport (x : Ctx) (w : Works) : Bytes :=
  let entries := w.days.flatMap fun p => p.2.entries
  let part := statusPart x w
  let chans := channels.flatMap (statusChannel x w)
  let kept (k : NoticeKind) : Option PendingNotice := w.port.notices.getD k.index none
  let notices := NoticeKind.all.flatMap (fun k => le 1 (x.set.routes.getD k.index 0).val) ++
    NoticeKind.all.flatMap (fun k => le 1 (bit (kept k).isSome 0 + bit ((kept k).any (·.merged)) 1))
  let catalogue := le 4 w.days.length ++ le 4 (w.days.countP fun p => decide (p.2.state = .opened)) ++ le 4 entries.length ++
    le 4 (entries.countP (·.quarantined))
  let intake := le 4 w.intake.files.length ++ le 4 ((w.intake.staging.map (·.2.length)).sum) ++ le 4 w.intake.late.length ++
    le 1 (bit w.intake.stagingHigh 0 + bit w.intake.lateFull 1)
  let packer := le 4 w.packer.queue.length ++ le 4 w.packer.groups.length
  let array := channels.flatMap (statusMedia x w) ++ le 4 w.array.posting.length ++ le 4 w.array.cache.length ++
    le 4 (w.array.cache.countP fun i => decide (0 < i.pins))
  let others := le 4 (w.enquiry.cursors.countP (·.opened)) ++
    w.amend.batches.toList.flatMap (fun b => le 1 b.state.code) ++ le 4 w.amend.pending.length ++ le 4 w.retention.holds.length ++
    le 1 (bit w.retention.sweep.isSome 0) ++ le 1 (bit (w.retention.sweep.any (·.again)) 0)
  padTo 128 part ++ padTo 128 chans ++ padTo 128 notices ++ padTo 128 catalogue ++ padTo 128 intake ++ padTo 128 packer ++
    padTo 128 array ++ padTo 128 others ++ padTo 128 (statusAudit w)

end Sys2Proof.Machine
end

