-- ==== Sys2Proof/Machine/Operands.lean ====
section
/-!
DEFINITION. What a fetched request record and its input buffer say (R184, R186, R187): the operands of the request commands.
-/

namespace Sys2Proof.Machine

/-- The units that own requests (section 11.6). -/
inductive Owner where
  | port | startUp | catalogue | intake | enquiry | amendment | retention | audit
  deriving DecidableEq, Repr

/-- The unit that owns a request. -/
def Request.owner : Request → Owner
  | .abandonBatch => .amendment
  | .abandonFile _ _ => .intake
  | .amend _ _ _ => .amendment
  | .archiveReset => .startUp
  | .auditDay _ => .audit
  | .closeCursor _ _ => .enquiry
  | .closeDay _ => .catalogue
  | .closeFile _ _ _ => .intake
  | .configure _ => .startUp
  | .dayRoll _ => .catalogue
  | .dayState _ => .catalogue
  | .fileState _ _ => .intake
  | .forgetFile _ _ => .intake
  | .holdState _ => .retention
  | .ingestParcel _ _ _ _ _ _ => .intake
  | .lookupCall _ _ => .enquiry
  | .openCursor _ _ _ _ _ => .enquiry
  | .openFile _ _ _ _ _ _ => .intake
  | .placeHold _ _ _ => .retention
  | .readCursor _ _ _ _ _ => .enquiry
  | .releaseHold _ _ => .retention
  | .setClassTable _ => .retention
  | .setPolicy _ => .retention
  | .status => .port
  | .sweep => .retention
  | .tune _ _ => .port

/-- `n` pieces of `k` bytes. -/
def pieces (k : Nat) : Nat → Bytes → List Bytes
  | 0, _ => []
  | n + 1, b => slice b 0 k :: pieces k n (b.drop k)

/-! ## The record -/

/-- Request code (R187). -/
def recordCode (b : Bytes) : Nat := field b 0 2
/-- The close mark of AMEND. -/
def recordClose (b : Bytes) : Bool := hasBit (field b 2 2) 0
/-- Tag. -/
def recordTag (b : Bytes) : BitVec 32 := BitVec.ofNat 32 (field b 4 4)
/-- Buffer address. -/
def recordAddr (b : Bytes) : Nat := field b 8 8
/-- Buffer length. -/
def recordLength (b : Bytes) : Nat := field b 16 4
/-- Second buffer address. -/
def recordSecond (b : Bytes) : Nat := field b 20 8
/-- The parameter of `n` bytes at offset `i` of the parameter block. -/
def param (b : Bytes) (i n : Nat) : Nat := field b (28 + i) n

/-- The length R184 requires of a request's input buffer; none for a request without one. -/
def inputNeed (b : Bytes) : Option Nat :=
  match recordCode b with
  | 3 => some (32 * param b 0 1)
  | 9 => some 392
  | 15 => some (64 * param b 16 2)
  | 22 => some 256
  | 23 => some 32
  | 26 => some 392
  | _ => none

/-- The port's test of an input buffer (R167, R184); a request without an input buffer passes. -/
def inputPasses (b : Bytes) : Bool :=
  match inputNeed b with
  | none => true
  | some need =>
    decide (recordAddr b ≠ 0) && decide (need ≤ recordLength b) &&
      !(decide (recordCode b = 15) && (decide (param b 16 2 = 0) || decide (4096 < param b 16 2))) &&
      !(decide (recordCode b = 3) && decide (Config.amendEntries < param b 0 1))

/-! ## Layouts in buffers -/

/-- A key of 20 bytes at offset `i` (R186). -/
def keyAt (b : Bytes) (i : Nat) : Key := ⟨field b i 8, field b (i + 8) 4, field b (i + 12) 2, field b (i + 14) 6⟩

/-- An AMEND entry (R187). -/
def AmendEntry.ofBytes (b : Bytes) : AmendEntry :=
  ⟨field b 0 1, field b 2 2, field b 4 2, field b 8 8, field b 16 6, field b 22 2, field b 24 4, field b 28 4⟩

/-- A class entry (R187). -/
def RawClass.ofBytes (b : Bytes) : RawClass := ⟨field b 0 1, field b 1 1, field b 2 1, field b 8 8⟩

/-- A policy (R187). -/
def RawPolicy.ofBytes (b : Bytes) : RawPolicy := ⟨field b 0 1, field b 1 1, field b 2 1⟩

/-- A media channel of the settings block (R187). -/
def RawMedia.ofBytes (b : Bytes) : RawMedia :=
  ⟨field b 0 4, field b 4 1, field b 5 1, field b 6 1, field b 8 2, field b 10 2, field b 12 2⟩

/-- The settings block (R187). -/
def RawSettings.ofBytes (b : Bytes) : RawSettings :=
  { epoch := ⟨field b 0 2, field b 2 1, field b 3 1⟩, today := field b 4 2, closeLag := field b 6 1, preference := field b 7 1,
    media := ⟨.ofBytes (b.drop 8), .ofBytes (b.drop 24), .ofBytes (b.drop 40), .ofBytes (b.drop 56)⟩,
    stall := field b 72 1, merge := field b 74 2, hold := field b 76 1, idle := field b 78 2, scrub := field b 80 2,
    routes := (slice b 82 8).map (·.toNat),
    watermarks := ⟨field b 90 2, field b 92 2, field b 94 2, field b 96 2⟩,
    classes := (pieces 16 16 (b.drop 104)).map .ofBytes, policies := (pieces 4 8 (b.drop 360)).map .ofBytes }

/-! ## The request -/

/-- The file totals a CLOSE FILE declares. -/
def declaredTotals (b : Bytes) : FileTotals := ⟨param b 8 8, param b 16 8, param b 24 8⟩

/-- The request a record and its input buffer make; none when the request code names no request (R187). -/
def Request.ofBytes (b buf : Bytes) : Option Request :=
  match recordCode b with
  | 1 => some .abandonBatch
  | 2 => some (.abandonFile (param b 0 2) (param b 2 4))
  | 3 => some (.amend (recordClose b) (signed 8 (param b 8 8)) ((pieces 32 (param b 0 1) buf).map .ofBytes))
  | 4 => some .archiveReset
  | 5 => some (.auditDay (param b 0 2))
  | 6 => some (.closeCursor (param b 0 1) (param b 2 2))
  | 7 => some (.closeDay (param b 0 2))
  | 8 => some (.closeFile (param b 0 2) (param b 2 4) (declaredTotals b))
  | 9 => some (.configure (.ofBytes buf))
  | 10 => some (.dayRoll (param b 0 2))
  | 11 => some (.dayState (param b 0 2))
  | 12 => some (.fileState (param b 0 2) (param b 2 4))
  | 13 => some (.forgetFile (param b 0 2) (param b 2 4))
  | 14 => some (.holdState (param b 0 8))
  | 15 => some (.ingestParcel (param b 0 2) (param b 2 4) (param b 8 4) (param b 12 4) (param b 20 4)
      ((pieces 64 (param b 16 2) buf).map .ofBytes))
  | 16 => some (.lookupCall ⟨param b 0 2, param b 8 8, param b 2 2, param b 16 6⟩ (param b 4 1))
  | 17 => some (.openCursor (param b 0 8) (param b 8 2) (param b 10 2)
      (if param b 12 1 = 0 then none else some (param b 13 1)) (param b 14 1))
  | 18 => some (.openFile (param b 0 2) (param b 2 4) (param b 6 1) (param b 7 1) (param b 8 2) (keyAt b 40))
  | 19 => some (.placeHold (param b 0 8) (param b 8 1) (param b 10 2))
  | 20 => some (.readCursor (param b 0 1) (param b 2 2) (param b 4 1) (param b 6 2) (signed 1 (param b 8 1)))
  | 21 => some (.releaseHold (param b 0 8) (param b 8 1))
  | 22 => some (.setClassTable ((pieces 16 16 buf).map .ofBytes))
  | 23 => some (.setPolicy ((pieces 4 8 buf).map .ofBytes))
  | 24 => some .status
  | 25 => some .sweep
  | 26 => some (.tune (param b 0 4) (.ofBytes buf))
  | _ => none

/-- The owner's test of an output buffer (R184). -/
def Req.holds (r : Req) (need : Nat) : Bool := decide (r.addr ≠ 0) && decide (need ≤ r.length)

end Sys2Proof.Machine
end

