-- ==== Sys2Proof/Machine/Port.lean ====
section
/-!
DEFINITION. The operations of the Request Port (R166 to R173): requests in progress, responses and the outbound queues, notices,
writes of reports to host buffers, and the interrupt vectors.
-/

namespace Sys2Proof.Machine

/-! ## Requests -/

/-- The request in progress with serial number `id`. -/
def Works.req (w : Works) (id : Nat) : Option Req := w.port.reqs.find? fun r => decide (r.id = id)

/-- The oldest request of channel `ch` handed to a unit and not yet taken by it (R167). -/
def Works.handed (w : Works) (ch : Fin 4) (o : Owner) : Option Req :=
  w.port.reqs.find? fun r => decide (r.ch = ch) && decide (r.phase = .handed) && decide (r.request.owner = o)

/-- Requests of a channel in progress (R167). -/
def Port.inProgress (p : Port) (ch : Fin 4) : Nat := p.reqs.countP fun r => decide (r.ch = ch)

/-- A request's phase set. -/
def Works.setPhase (w : Works) (id : Nat) (ph : ReqPhase) : Works :=
  { w with port := { w.port with reqs := updateWhere (fun r => decide (r.id = id)) (fun r => { r with phase := ph }) w.port.reqs } }

/-- A request taken by its unit. -/
def Works.take (w : Works) (id : Nat) : Works := w.setPhase id .taken

/-- A request leaves progress. -/
def Port.leave (p : Port) (id : Nat) : Port := { p with reqs := p.reqs.filter fun r => decide (r.id ≠ id) }

/-- Whether a request is in progress with a response that the host can still get. -/
def Works.heard (w : Works) (id : Nat) : Bool := (w.req id).any fun r => !r.discarded

/-! ## Responses (R168, R169) -/

/-- The response of a request. -/
def responseTo (tag : BitVec 32) (v : Verdict) (reason : Option Reason) (res : Result) (endMark : Bool) : Response :=
  ⟨tag, v, reason, none, endMark, false, res⟩

/-- A response offered for request `r`: dropped if discarded, joined to the outbound queue if it has a place, else waiting. The owner of
a waiting response goes on with its other work (DESIGN CHOICE, notes/assumptions/70.md). -/
def Port.offer (p : Port) (r : Req) (resp : Response) : Port :=
  if r.discarded then p.leave r.id
  else if (p.out.get r.ch).length < Config.outbound then
    { p with out := p.out.modify r.ch (· ++ [resp]) }.leave r.id
  else
    { p with waiting := p.waiting.modify r.ch (· ++ [(r.id, resp)]),
             reqs := updateWhere (fun q => decide (q.id = r.id)) (fun q => { q with phase := .ended }) p.reqs }

/-- Request `id` ended with an outcome, a reason, results and the END mark. -/
def Works.reply (w : Works) (id : Nat) (v : Verdict) (reason : Option Reason) (res : Result) (endMark : Bool) : Works :=
  match w.req id with
  | none => w
  | some r => { w with port := w.port.offer r (responseTo r.tag v reason res endMark) }

/-- Request `id` answered DONE. -/
def Works.done (w : Works) (id : Nat) (res : Result) : Works := w.reply id .done none res false

/-- Request `id` answered REFUSED. -/
def Works.refuse (w : Works) (id : Nat) (reason : Reason) : Works := w.reply id .refused (some reason) .empty false

/-- Request `id` answered REFUSED with results. -/
def Works.refuseWith (w : Works) (id : Nat) (reason : Reason) (res : Result) : Works := w.reply id .refused (some reason) res false

/-- The request of a refusal answered before any hand-off: it enters progress and ends at once (R167). -/
def Works.portRefuse (w : Works) (ch : Fin 4) (tag : BitVec 32) (reason : Reason) : Works :=
  let (id, w) := w.next
  let r : Req := ⟨id, ch, tag, .status, 0, 0, 0, .handed, false⟩
  ({ w with port := { w.port with reqs := w.port.reqs ++ [r] } }).refuse id reason

/-- A request handed to its owning unit (R167), and in progress from this event on (DESIGN CHOICE, notes/assumptions/6.md). -/
def Works.handOver (w : Works) (ch : Fin 4) (record : Bytes) (q : Request) : Works :=
  let (id, w) := w.next
  let r : Req := ⟨id, ch, recordTag record, q, recordAddr record, recordLength record, recordSecond record, .handed, false⟩
  { w with port := { w.port with reqs := w.port.reqs ++ [r] } }

/-- The place that a response write freed on channel `ch`: to the first pending notice routed there, else to the owner that has
waited longest (R169). -/
def Works.givePlace (x : Ctx) (w : Works) (ch : Fin 4) : Works :=
  let pend := NoticeKind.all.find? fun k =>
    (w.port.notices.getD k.index none).isSome && decide (x.set.routes.getD k.index 0 = ch)
  match pend with
  | some k =>
    match w.port.notices.getD k.index none with
    | some n =>
      { w with port := { w.port with
          notices := w.port.notices.set k.index none,
          out := w.port.out.modify ch (· ++ [⟨0, .done, none, some k, false, n.merged, n.result⟩]) } }
    | none => w
  | none =>
    match w.port.waiting.get ch with
    | [] => w
    | (id, resp) :: l =>
      { w with port := ({ w.port with waiting := w.port.waiting.set ch l, out := w.port.out.modify ch (· ++ [resp]) }).leave id }

/-! ## Notices (R170) -/

/-- Whether a channel takes a notice into its outbound queue. -/
def Works.takesNotice (x : Ctx) (w : Works) (ch : Fin 4) : Bool :=
  decide ((x.windows.get ch).state = .active) && decide ((w.port.out.get ch).length < Config.outbound)

/-- A notice raised: queued on its routed channel, or kept by its kind's pending flag (R170). Its outcome byte is that of DONE (DESIGN
CHOICE, notes/assumptions/71.md). -/
def Works.notice (x : Ctx) (w : Works) (k : NoticeKind) (res : Result) : Works :=
  let ch := x.set.routes.getD k.index 0
  let was := (w.port.notices.getD k.index none).isSome
  if w.takesNotice x ch then
    { w with port := { w.port with
        notices := w.port.notices.set k.index none,
        out := w.port.out.modify ch (· ++ [⟨0, .done, none, some k, false, was, res⟩]) } }
  else { w with port := { w.port with notices := w.port.notices.set k.index (some ⟨res, was⟩) } }

/-- The pending notice of kind `k`, if its routed channel takes it, joins that channel's queue. -/
def Works.postPending (x : Ctx) (w : Works) (k : NoticeKind) : Works :=
  let ch := x.set.routes.getD k.index 0
  match w.port.notices.getD k.index none with
  | none => w
  | some n =>
    if w.takesNotice x ch then
      { w with port := { w.port with
          notices := w.port.notices.set k.index none,
          out := w.port.out.modify ch (· ++ [⟨0, .done, none, some k, false, n.merged, n.result⟩]) } }
    else w

/-- Pending notices of the given kinds posted in table order (R170: at a setup event, at a TUNE of routes). -/
def Works.postKinds (x : Ctx) (w : Works) (kinds : List NoticeKind) : Works := kinds.foldl (fun w k => w.postPending x k) w

/-! ## Reports to host buffers -/

/-- A report's write to the buffer of request `id` started; a discarded request's report is dropped and the request ends (R172,
R173). -/
def Works.report (w : Works) (id : Nat) (bytes : Bytes) (res : Result) : Works :=
  match w.req id with
  | none => w
  | some r =>
    if r.discarded then { w with port := w.port.leave id }
    else { (w.take id) with port := { (w.take id).port with writes := (w.take id).port.writes ++ [⟨id, r.ch, r.addr, bytes, res⟩] } }

/-! ## Discarding (R172, R173) -/

/-- Every request of a channel marked discarded: those whose responses wait drop them, those whose reports are under way end, and
the rest go on. -/
def Port.discard (p : Port) (ch : Fin 4) : Port :=
  let dropped := p.writes.filter fun b => decide (b.ch = ch)
  { p with
    out := p.out.set ch [], waiting := p.waiting.set ch [],
    writes := p.writes.filter fun b => decide (b.ch ≠ ch),
    reqs := (p.reqs.filter fun r => !(decide (r.ch = ch) &&
        (decide (r.phase = .ended) || dropped.any fun b => decide (b.req = r.id)))).map
      fun r => if r.ch = ch then { r with discarded := true } else r }

/-! ## Vectors (R171) -/

/-- A channel's vector raised: delivered, or held back by its mask; the count becomes 0 and the measure stops. -/
def IrqVector.fire (v : IrqVector) : IrqVector :=
  let v := { v with unsignalled := 0, measuring := false }
  if v.masked then { v with held := true } else { v with delivered := v.delivered + 1 }

/-- A channel that is UNSET or STOPPED: its count becomes 0. -/
def IrqVector.quiet (v : IrqVector) : IrqVector := { v with unsignalled := 0, measuring := false }

/-! ## Ring arithmetic (R166) -/

/-- Request records outstanding. -/
def Window.outstanding (v : Window) : Nat := (v.requestFill - v.requestConsume).toNat

/-- Responses unconsumed. -/
def Window.unconsumed (v : Window) : Nat := (v.responseFill - v.responseConsume).toNat

/-! ## The configuration window (R185) -/

/-- A channel's 64 bytes of the window as a read finds them; the pad reads 0. -/
def Window.bytes (v : Window) : Bytes :=
  le 8 v.requestBase.toNat ++ le 4 v.requestEntries.toNat ++ le 8 v.responseBase.toNat ++ le 4 v.responseEntries.toNat ++
    le 4 v.requestFill.toNat ++ le 4 v.requestConsume.toNat ++ le 4 v.responseFill.toNat ++ le 4 v.responseConsume.toNat ++ le 24 0

/-- The configuration window: channel `ch` stands at offset 64 × ch. -/
def windowBytes (q : Quad Window) : Bytes := q.toList.flatMap (·.bytes)

/-- What a host read of `n` bytes of the window from an offset finds. -/
def State.windowRead (s : State) (offset n : Nat) : Bytes := slice (windowBytes s.windows) offset n

/-- The command that a write of `value` at an offset of a channel's 64 bytes stands for. -/
def placeCommand (ch : Fin 4) (value : BitVec 64) : Nat → Option Instr
  | 0 => some (.registerWrite ch .requestBase value)
  | 8 => some (.registerWrite ch .requestEntries value)
  | 12 => some (.registerWrite ch .responseBase value)
  | 20 => some (.setupEvent ch (value.setWidth 32))
  | 24 => some (.requestFillIndexWrite ch (value.setWidth 32))
  | 28 => some (.registerWrite ch .requestConsume value)
  | 32 => some (.registerWrite ch .responseFill value)
  | 36 => some (.responseConsumeIndexWrite ch (value.setWidth 32))
  | n => if 40 ≤ n ∧ n < 64 then some (.registerWrite ch .pad value) else none

/-- The command that a write of the window at an offset stands for; none where no field begins. -/
def windowCommand (offset : Nat) (value : BitVec 64) : Option Instr :=
  if h : offset / 64 < 4 then placeCommand ⟨offset / 64, h⟩ value (offset % 64) else none

/-- A ring's entries are 16 .. 4096, a power of two. -/
def entriesValid (e : BitVec 32) : Bool := [16, 32, 64, 128, 256, 512, 1024, 2048, 4096].any fun n => decide (e.toNat = n)

/-- The four place and size fields hold values in their ranges. A base of 0 is a host address like any other. -/
def Window.valid (v : Window) : Bool :=
  decide (v.requestBase.toNat % 64 = 0) && entriesValid v.requestEntries && decide (v.responseBase.toNat % 32 = 0) &&
    entriesValid v.responseEntries

end Sys2Proof.Machine
end

