-- ==== Sys2Proof/Machine/Catalogue.lean ====
section
/-!
DEFINITION. The operations of the Catalogue (R35 to R49): the lookups, busy marks, quarantine, day entries, the close of a day, and
the summary of a day's counters.
-/

namespace Sys2Proof.Machine

/-! ## Lookups (R42) -/

/-- A day's entry. -/
def Works.day (w : Works) (d : Nat) : Option DayEntry := tblGet d w.days

/-- A day's entry unless it is GOING, as the lookups see it. -/
def Works.liveDay (w : Works) (d : Nat) : Option DayEntry := (w.day d).filter fun e => !e.going

/-- The run of a class. -/
def DayEntry.run (e : DayEntry) (cls : Nat) : Option Run := e.runs.find? fun r => decide (r.cls = cls)

/-- The entries of a class's run, in key order. -/
def DayEntry.runEntries (e : DayEntry) (cls : Nat) : List Entry := ((e.run cls).map (·.entries)).getD []

/-- The entry of a run with a given first key. -/
def DayEntry.entry (e : DayEntry) (cls : Nat) (first : Key) : Option Entry :=
  (e.runEntries cls).find? fun s => decide (s.first = first)

/-- The entry of a day, class and first key. -/
def Works.entryAt (w : Works) (d cls : Nat) (first : Key) : Option Entry := (w.liveDay d).bind fun e => e.entry cls first

/-- The entry a reference names while the index holds it with the same group number (R78). -/
def Works.current (w : Works) (r : SheetRef) : Option Entry :=
  (w.entryAt r.day r.cls r.first).filter fun e => decide (e.group = r.group)

/-- An entry named. -/
def Entry.ref (e : Entry) (d cls : Nat) : SheetRef := ⟨d, cls, e.first, e.group⟩

/-- The covering entry of a key: the last whose first key is at or below it, else the first. -/
def coveringEntry (l : List Entry) (k : Key) : Option Entry :=
  match (l.filter fun e => !k.lt e.first).getLast? with
  | some e => some e
  | none => l.head?

/-- A day's entries run by run in ascending class, each with its class. -/
def DayEntry.walk (e : DayEntry) : List (Nat × Entry) := e.runs.flatMap fun r => r.entries.map fun s => (r.cls, s)

/-- The entries of a day that span an account, in key order, merged across classes. -/
def DayEntry.ofAccount (e : DayEntry) (account : Nat) : List (Nat × Entry) :=
  sortBy (fun a b => a.2.first.lt b.2.first) (e.walk.filter fun p => spans p.2.first p.2.last account)

/-- The account lookup. -/
def Works.accountEntries (w : Works) (d account : Nat) : List (Nat × Entry) :=
  ((w.liveDay d).map fun e => e.ofAccount account).getD []

/-- The entry that names a slot, with its day and class. -/
def Works.entryOfSlot (w : Works) (a : SlotAddr) : Option (Nat × Nat × Entry) :=
  (w.days.flatMap fun p => p.2.walk.map fun q => (p.1, q.1, q.2)).find? fun t => decide (t.2.2.slot = a)

/-! ## Changes -/

/-- A day's entry changed. -/
def Works.mapDay (w : Works) (d : Nat) (f : DayEntry → DayEntry) : Works := { w with days := tblModify d f w.days }

/-- An entry of a run changed. -/
def DayEntry.mapEntry (e : DayEntry) (cls : Nat) (first : Key) (f : Entry → Entry) : DayEntry :=
  let inRun (r : Run) : Run := { r with entries := updateWhere (fun s => decide (s.first = first)) f r.entries }
  { e with runs := updateWhere (fun r => decide (r.cls = cls)) inRun e.runs }

/-- An index entry changed. -/
def Works.mapEntry (w : Works) (d cls : Nat) (first : Key) (f : Entry → Entry) : Works :=
  w.mapDay d fun e => e.mapEntry cls first f

/-- A run's state set. -/
def Works.setRun (w : Works) (d cls : Nat) (st : RunState) : Works :=
  w.mapDay d fun e => { e with runs := updateWhere (fun r => decide (r.cls = cls)) (fun r => { r with state := st }) e.runs }

/-! ## Busy marks and quarantine (R43, R44) -/

/-- Whether a claim succeeds; `any` is whether the claimant may hold a QUARANTINED entry (RETIRE and RESTORE items). -/
def Entry.grants (e : Entry) (h : Holder) (any : Bool) : Bool :=
  (decide (e.busy = none) || decide (e.busy = some h)) && (!e.quarantined || any)

/-- A claim granted. -/
def Works.claim (w : Works) (d cls : Nat) (first : Key) (h : Holder) : Works :=
  w.mapEntry d cls first fun e => { e with busy := some h }

/-- The QUARANTINED notice of an entry. -/
def Works.quarantineNotice (x : Ctx) (w : Works) (d cls : Nat) (first : Key) : Works :=
  w.notice x .quarantined (.sheet d cls first)

/-- A mark released: a requested quarantine is applied, and those who held work back are told. -/
def Works.release (x : Ctx) (w : Works) (d cls : Nat) (first : Key) : Works :=
  match w.entryAt d cls first with
  | none => w
  | some e =>
    let w := w.mapEntry d cls first fun e =>
      { e with busy := none, quarantined := e.quarantined || e.quarantineAsked, quarantineAsked := false }
    let w := if e.quarantineAsked then w.quarantineNotice x d cls first else w
    w.task (.released d cls first)

/-- The marks that a Packer item holds on the given entries of a day released. -/
def Works.releaseItem (x : Ctx) (w : Works) (d item : Nat) (claimed : List (Nat × Key)) : Works :=
  claimed.foldl (fun w p =>
    match w.entryAt d p.1 p.2 with
    | some e => if e.busy = some (.item item) then w.release x d p.1 p.2 else w
    | none => w) w

/-- A quarantine asked for the entry a reference names (R44). -/
def Works.quarantine (x : Ctx) (w : Works) (r : SheetRef) : Works :=
  match w.current r with
  | none => w
  | some e =>
    if e.quarantined then w
    else if e.busy = none then
      (w.mapEntry r.day r.cls r.first fun e => { e with quarantined := true }).quarantineNotice x r.day r.cls r.first
    else w.mapEntry r.day r.cls r.first fun e => { e with quarantineAsked := true }

/-! ## Groups (R47) -/

/-- Whether the Catalogue grants a group on the day. -/
def DayEntry.grantsGroup (e : DayEntry) : Bool :=
  decide (e.inProgress = none) && decide (e.owed = 0) && !e.underAudit && !e.going

/-- One void mark of the day completed; at 0 the Packer is told. -/
def Works.markPaid (w : Works) (d : Nat) : Works :=
  let w' := w.mapDay d fun e => { e with owed := e.owed - 1 }
  if (w'.day d).any fun e => decide (e.owed = 0) then w'.task .scan else w'

/-! ## Day entries (R36 to R39) -/

/-- A new day entry (R36). -/
def DayEntry.new (st : DayState) : DayEntry :=
  { state := st, underAudit := false, discrepant := false, going := false, intake := .zero, retired := .zero, voided := .zero,
    corr := .zero, staged := .zero, late := .zero, group := 0, inProgress := none, owed := 0, awaiting := [], runs := [],
    summary := none, goneSlot := none }

/-- The Catalogue's answer to an intake event that asks for a day (R37); the wait for a GOING day has been tested before. -/
def Works.dayFor (x : Ctx) (w : Works) (d : Nat) : Option DayState × Works :=
  match w.day d with
  | some e => (some e.state, w)
  | none =>
    if Config.dayTable ≤ w.days.length then (none, w)
    else
      let st := if x.today ≤ d + x.set.closeLag then DayState.opened else .closed
      (some st, { w with days := tblPut d (.new st) w.days })

/-- The key of a staging set. -/
def stagingKey (d cls : Nat) : Nat := 8 * d + cls

/-- The staging set of a day and class. -/
def Intake.set (i : Intake) (d cls : Nat) : List StagedRec := (tblGet (stagingKey d cls) i.staging).getD []

/-- The late records of a day and class. -/
def Intake.lateOf (i : Intake) (d cls : Nat) : List LateRec :=
  i.late.filter fun r => decide (dayOf r.call.start = d) && decide (r.call.cls = cls)

/-- The merge schedule's tests of every class of a day that has become CLOSED (R86). -/
def Works.testMerges (w : Works) (d : Nat) : Works := w.addTasks ((List.range 8).map fun c => .mergeTest d c)

/-- A day enters CLOSING, or CLOSED when it has no staged records (R39). -/
def Works.beginClosing (w : Works) (d : Nat) : Works :=
  let classes := (List.range 8).filter fun c => w.intake.set d c ≠ []
  if classes = [] then (w.mapDay d fun e => { e with state := .closed, awaiting := [] }).testMerges d
  else (w.mapDay d fun e => { e with state := .closing, awaiting := classes }).task (.ask (.catalogue d))

/-! ## Counters (R46) -/

/-- A record counted at its placement. -/
def DayEntry.place (e : DayEntry) (r : Rec) (late : Bool) : DayEntry :=
  if late then { e with intake := e.intake.add r.totals, late := e.late.add r.totals }
  else { e with intake := e.intake.add r.totals, staged := e.staged.add r.totals }

/-- A group's amounts taken into the counters. -/
def DayEntry.count (e : DayEntry) (a : Amounts) : DayEntry :=
  { e with intake := e.intake.sub a.dropped, staged := e.staged.sub a.packed, late := e.late.sub (a.inserted.add a.dropped),
           retired := e.retired.add a.retired, voided := e.voided.add a.voided, corr := e.corr.add a.corr }

/-- The contents of a summary of the day (R32, R83). -/
def DayEntry.summarise (e : DayEntry) (gone : Bool) (ranges : List KeyRange) : Summary :=
  ⟨gone, (e.intake.sub e.staged).sub e.late, e.retired, e.voided, e.corr, ranges⟩

end Sys2Proof.Machine
end

