-- ==== Sys2Proof/Machine/IntakeOps.lean ====
section
/-!
DEFINITION. The operations of the Intake Unit (R54 to R72): files, parcels and the two record intake events.
-/

namespace Sys2Proof.Machine

/-! ## Outcomes (R54) -/

/-- The outcomes of a record, in the order of R54. -/
inductive Fate where
  | accepted | late | duplicate | conflict | malformed | expired | future | noDay | lateDuplicate | lateConflict | outOfRange
  deriving DecidableEq, Repr

/-- The place of an outcome in R54's order. -/
def Fate.index : Fate → Nat
  | .accepted => 0
  | .late => 1
  | .duplicate => 2
  | .conflict => 3
  | .malformed => 4
  | .expired => 5
  | .future => 6
  | .noDay => 7
  | .lateDuplicate => 8
  | .lateConflict => 9
  | .outOfRange => 10

/-- No outcome counted. -/
def noCounts : List Nat := List.replicate 11 0

/-- An outcome counted. -/
def addFate (f : Fate) (l : List Nat) : List Nat := l.set f.index (l.getD f.index 0 + 1)

/-! ## Files -/

/-- The file of a key, with its slot. -/
def Intake.find (i : Intake) (source fileId : Nat) : Option (Nat × File) :=
  i.files.find? fun p => decide (p.2.source = source) && decide (p.2.fileId = fileId)

/-- The file in a slot. -/
def Works.file (w : Works) (slot : Nat) : Option File := tblGet slot w.intake.files

/-- A file record put in its slot. -/
def Works.setFile (w : Works) (slot : Nat) (f : File) : Works :=
  { w with intake := { w.intake with files := tblPut slot f w.intake.files } }

/-- A file record changed. -/
def Works.mapFile (w : Works) (slot : Nat) (f : File → File) : Works :=
  { w with intake := { w.intake with files := tblModify slot f w.intake.files } }

/-- The lowest free file slot. -/
def Intake.freeSlot (i : Intake) : Option Nat := (List.range Config.fileTable).find? fun s => (tblGet s i.files).isNone

/-- A new file record (R54). -/
def File.new (source fileId : Nat) (target : Option Target) : File :=
  { source := source, fileId := fileId, state := .receiving, target := target, nextSeq := 0, resume := 0, parcel := none,
    declared := none, presented := ⟨0, 0, 0⟩, saturated := false, counts := noCounts, outstanding := 0, restoreSet := [] }

/-- A file with its restore set discarded. -/
def File.discardSet (f : File) : File := { f with outstanding := f.outstanding - f.restoreSet.length, restoreSet := [] }

/-- A file restarted or reopened (R56). -/
def File.restart (f : File) (target : Option Target) : File :=
  { f.discardSet with
      state := .receiving, target := target, nextSeq := 0, resume := 0, declared := none, presented := ⟨0, 0, 0⟩,
      saturated := false, counts := noCounts }

/-- The notice of a file that enters RECONCILED or DISCREPANT (R66). -/
def Works.fileNotice (x : Ctx) (w : Works) (f : File) (st : FileState) : Works :=
  w.notice x .fileSettled (.file f.source f.fileId st)

/-! ## Parcels -/

/-- The resume index after `n` more records (R59). -/
def resumeAfter (resume n : Nat) : Nat := if resume + n < 2 ^ 32 then resume + n else Config.resumeAfterLast

/-- A parcel in flight ended DONE or PARTIAL (R59). -/
def Works.endParcel (w : Works) (slot : Nat) (v : Verdict) (reason : Option Reason) : Works :=
  match w.file slot with
  | none => w
  | some f =>
    match f.parcel with
    | none => w
    | some p =>
      let f' := { f with parcel := none, nextSeq := (f.nextSeq + 1) % 2 ^ 32, resume := resumeAfter f.resume p.consumed }
      (w.setFile slot f').reply p.req v reason (.parcel p.consumed p.written f'.state p.counts) false

/-- A RECEIVING file given up: its parcel stops and its restore set is discarded (R69). -/
def Works.abandon (w : Works) (slot : Nat) : Works :=
  (w.mapFile slot fun f => { f.discardSet with state := .abandoned }).endParcel slot .partly (some .state)

/-- Whether the gate is closed (R64). -/
def Intake.gateClosed (i : Intake) : Bool := i.stagingHigh || i.lateFull

/-- Records in staging. -/
def Intake.stagedCount (i : Intake) : Nat := (i.staging.map (·.2.length)).sum

/-- Both gate conditions tested (R64). -/
def Intake.testGate (i : Intake) : Intake :=
  let n := i.stagedCount
  { i with
    stagingHigh := if Config.stagingSet ≤ n then true else if n < Config.stagingClear then false else i.stagingHigh,
    lateFull := if Config.lateMax ≤ i.late.length then true
      else if i.late.length < Config.lateClear then false else i.lateFull }

/-- Whether a day is GOING. -/
def Works.going (w : Works) (d : Nat) : Bool := (w.day d).any (·.going)

/-- What holds a parcel of a NORMAL file back before its next record (R64, R65). -/
def Works.parcelCause (w : Works) (p : Parcel) : Option ParcelWait :=
  if w.intake.gateClosed then some .gate
  else match p.rest with
    | r :: _ => if w.going (dayOf r.start) then some (.going (dayOf r.start)) else none
    | [] => none

/-- Waiting parcels reconsidered after the gate or the Day Table has changed: those that nothing holds back go on. One that is held back
again before it takes a record measures its wait anew (DESIGN CHOICE, notes/assumptions/41.md). -/
def Works.rewait (w : Works) : Works :=
  let again (p : Parcel) : Parcel :=
    { p with wait := p.wait.bind fun t => (w.parcelCause p).map fun c => (t.1, c) }
  { w with intake := { w.intake with
      files := w.intake.files.map fun q => (q.1, { q.2 with parcel := q.2.parcel.map again }) } }

/-- Presented totals after one more record (R61). -/
def FileTotals.present (t : FileTotals) (dur charge : Nat) : FileTotals × Bool :=
  let cap := 2 ^ 64 - 1
  (⟨min (t.count + 1) cap, min (t.dur + dur) cap, min (t.charge + charge) cap⟩,
    decide (cap < t.count + 1) || decide (cap < t.dur + dur) || decide (cap < t.charge + charge))

/-- A record with the identity of `r` among a day's staged and late records (R62). -/
def Intake.twin (i : Intake) (r : Rec) : Option Rec :=
  let d := dayOf r.start
  let staged := (List.range 8).flatMap fun c => (i.set d c).map (·.call)
  let late := (i.late.filter fun l => decide (dayOf l.call.start = d)).map (·.call)
  (staged ++ late).find? fun s => decide (s.identity = r.identity)

/-- The order of the Late List: day, class, key (R64). -/
def lateLt (a b : LateRec) : Bool :=
  decide (dayOf a.call.start < dayOf b.call.start) || (decide (dayOf a.call.start = dayOf b.call.start) &&
    (decide (a.call.cls < b.call.cls) || (decide (a.call.cls = b.call.cls) && a.call.key.lt b.call.key)))

/-- A record placed in its staging set (R63). -/
def Intake.stage (i : Intake) (d : Nat) (r : StagedRec) : Intake :=
  let l := insertBy (fun a b => a.call.key.lt b.call.key) r (i.set d r.call.cls)
  { i with staging := tblPut (stagingKey d r.call.cls) l i.staging }

/-- A blocked (day, class) with no rearm time takes it from its first late placement (R86). -/
def Packer.rearmAt (p : Packer) (d cls t : Nat) : Packer :=
  let blocked (m : MergeSched) : Bool :=
    decide (m.day = d) && decide (m.cls = cls) && decide (0 < m.held) && decide (m.rearm = none)
  { p with sched := updateWhere blocked (fun m => { m with rearm := some t }) p.sched }

/-- Steps 2 to 8 of R60: the outcome of a record of a NORMAL file in slot `slot`, and the part after them. -/
def Works.placeRecord (x : Ctx) (w : Works) (slot : Nat) (p : Plain) : Fate × Works :=
  if p.malformed then (.malformed, w)
  else
    let d := dayOf p.start
    if x.today + 1 < d then (.future, w)
    else
      let cls := classOf x.cfg.classes p.account
      if due x.set.epoch x.cfg.policies x.today d cls && (tblGet p.account w.retention.holds).isNone then (.expired, w)
      else match w.dayFor x d with
        | (none, w) => (.noDay, w)
        | (some st, w) =>
          let r := p.held cls
          match w.intake.twin r with
          | some s => (if sameCall s r then .duplicate else .conflict, w)
          | none =>
            let w := w.mapFile slot fun f => { f with outstanding := f.outstanding + 1 }
            if st = .opened then
              (.accepted, { (w.mapDay d (·.place r false)) with intake := (w.intake.stage d ⟨r, slot⟩).testGate })
            else
              let l : LateRec := ⟨r.asLate, slot, x.clock⟩
              let i := { w.intake with late := insertBy lateLt l w.intake.late }.testGate
              (.late, ({ (w.mapDay d (·.place r true)) with
                intake := i, packer := w.packer.rearmAt d cls x.clock }).task (.mergeTest d cls))

/-- Steps 2 to 6 of R71: the outcome of a record of a RESTORE file, and the file after them. -/
def File.placeRestored (f : File) (t : Target) (p : Plain) : Fate × File :=
  if p.malformed then (.malformed, f)
  else
    let r := p.held t.cls
    if dayOf p.start ≠ t.day ∨ r.key.lt t.first ∨ t.last.lt r.key ∨ Config.sheetRecords ≤ f.restoreSet.length then
      (.outOfRange, f)
    else match f.restoreSet.find? fun s => decide (s.identity = r.identity) with
      | some s => (if sameCall s r then .duplicate else .conflict, f)
      | none => (.accepted, { f with restoreSet := insertBy recLt r f.restoreSet, outstanding := f.outstanding + 1 })

/-- An entry of a refusal list (R188). -/
def refusalEntry (index : Nat) (f : Fate) : Bytes := le 2 index ++ le 1 f.index ++ le 1 0

/-- Whether an outcome is entered in the refusal list (R59). -/
def Fate.refused : Fate → Bool
  | .accepted => false
  | .late => false
  | _ => true

/-- The refusal-list bytes a record's outcome writes, with their address (R59, R73). -/
def Works.refusalWrite (w : Works) (p : Parcel) (f : Fate) : Option (Nat × Bytes) :=
  if f.refused && decide (p.listAddr ≠ 0) && w.heard p.req then some (p.listAddr + 4 * p.written, refusalEntry p.consumed f)
  else none

/-- A parcel after one record. -/
def Parcel.advance (p : Parcel) (f : Fate) (written : Bool) : Parcel :=
  { p with rest := p.rest.tail, consumed := p.consumed + 1, counts := addFate f p.counts,
           written := if written then p.written + 1 else p.written, wait := none }

/-- A file with its parcel after one record of a given outcome. -/
def File.advance (f : File) (fate : Fate) (written : Bool) : File :=
  { f with counts := addFate fate f.counts, parcel := f.parcel.map fun p => p.advance fate written }

/-- A parcel whose records are all taken ends DONE (R59). -/
def Works.finishParcel (w : Works) (slot : Nat) : Works :=
  if ((w.file slot).bind (·.parcel)).any fun p => decide (p.rest = []) then w.endParcel slot .done none else w

/-- The record intake event of the parcel of the NORMAL file in a slot (R60, R64, R65): the part after it and what the refusal list
takes. -/
def Works.recordIntake (x : Ctx) (w : Works) (slot : Nat) : Works × Option (Nat × Bytes) :=
  match w.file slot with
  | none => (w, none)
  | some f =>
    match f.target, f.parcel with
    | none, some p =>
      match p.rest with
      | [] => (w, none)
      | r :: _ =>
        match w.parcelCause p with
        | some c =>
          let t := (p.wait.map (·.1)).getD x.clock
          (w.setFile slot { f with parcel := some { p with wait := some (t, c) } }, none)
        | none =>
          let (totals, sat) := f.presented.present r.dur r.charge
          let w := w.setFile slot { f with presented := totals, saturated := f.saturated || sat }
          let (fate, w) := w.placeRecord x slot r
          let out := w.refusalWrite p fate
          ((w.mapFile slot fun f => f.advance fate out.isSome).finishParcel slot, out)
    | _, _ => (w, none)

/-- The record intake event of a RESTORE file (R71). -/
def Works.restoreIntake (w : Works) (slot : Nat) : Works × Option (Nat × Bytes) :=
  match w.file slot with
  | none => (w, none)
  | some f =>
    match f.target, f.parcel with
    | some t, some p =>
      match p.rest with
      | [] => (w, none)
      | r :: _ =>
        let (totals, sat) := f.presented.present r.dur r.charge
        let (fate, f) := ({ f with presented := totals, saturated := f.saturated || sat }).placeRestored t r
        let out := w.refusalWrite p fate
        ((w.setFile slot (f.advance fate out.isSome)).finishParcel slot, out)
    | _, _ => (w, none)

/-- The moment a waiting parcel reaches the stall limit. -/
def Parcel.stallAt (x : Ctx) (p : Parcel) : Option Nat := p.wait.map fun t => t.1 + 1000 * x.set.stall

/-- Every waiting parcel that has reached the stall limit ends PARTIAL BUSY (a TUNE of the limit, R65). -/
def Works.endStalled (x : Ctx) (w : Works) : Works :=
  w.intake.files.foldl (fun w p =>
    if (p.2.parcel.bind (·.stallAt x)).any fun t => decide (t ≤ x.clock) then w.endParcel p.1 .partly (some .busy) else w) w

/-! ## The requests -/

/-- A target still QUARANTINED in the index (R57, R72). -/
def Works.targetEntry (w : Works) (day cls : Nat) (first : Key) : Option Entry := w.entryAt day cls first

/-- Whether another file than the one in `slot` names a target while RECEIVING or SETTLING (R57). -/
def Intake.targeted (i : Intake) (slot : Option Nat) (day cls : Nat) (first : Key) : Bool :=
  i.files.any fun p => decide (some p.1 ≠ slot) && (decide (p.2.state = .receiving) || decide (p.2.state = .settling)) &&
    p.2.target.any fun t => decide (t.day = day) && decide (t.cls = cls) && decide (t.first = first)

/-- The tests of R57: a refusal, or the target as the file records it. -/
def Works.openTarget (w : Works) (slot : Option Nat) (day cls : Nat) (first : Key) : Except Reason Target :=
  match w.targetEntry day cls first with
  | none => .error .notFound
  | some e =>
    if !e.quarantined then .error .state
    else if w.intake.targeted slot day cls first then .error .busy
    else .ok ⟨day, cls, first, e.last, e.totals⟩

/-- The rival of a source becomes ABANDONED at a successful open of the file in `slot` (R56). -/
def Works.abandonRival (w : Works) (slot source : Nat) : Works :=
  match w.intake.files.find? fun p => decide (p.1 ≠ slot) && decide (p.2.source = source) && decide (p.2.state = .receiving) with
  | some p => w.abandon p.1
  | none => w

/-- A successful open: the file stands in its slot, its rival is abandoned, and the request is answered (R56). -/
def Works.opened (w : Works) (r : Req) (slot : Nat) (f : File) : Works :=
  ((w.setFile slot f).abandonRival slot f.source).done r.id (.fileSlot slot f.state)

/-- The target an OPEN FILE's kind gives: none for NORMAL, the tests of R57 for RESTORE. -/
def Works.kindTarget (w : Works) (slot : Option Nat) (kind cls day : Nat) (first : Key) : Except Reason (Option Target) :=
  if kind = 0 then .ok none else (w.openTarget slot day cls first).map some

/-- Whether a file has the kind and target an OPEN FILE names. -/
def File.sameKind (f : File) (kind cls day : Nat) (first : Key) : Bool :=
  match f.target with
  | none => decide (kind = 0)
  | some t => decide (kind = 1) && decide (t.cls = cls) && decide (t.day = day) && decide (t.first = first)

/-- OPEN FILE (R56, R57). -/
def Works.openFile (w : Works) (r : Req) (source fileId kind cls day : Nat) (first : Key) : Works :=
  if 1 < kind ∨ 4095 < source then w.refuse r.id .malformed
  else match w.intake.find source fileId with
    | some (slot, f) =>
      if f.parcel.isSome then w.refuse r.id .busy
      else if f.state = .settling ∨ f.state = .reconciled ∨ f.state = .discrepant then w.refuse r.id .duplicateFile
      else if f.state = .receiving then
        if f.sameKind kind cls day first then w.opened r slot (f.restart f.target) else w.refuse r.id .state
      else if 0 < f.outstanding ∧ decide (kind = 0) ≠ f.target.isNone then w.refuse r.id .state
      else match w.kindTarget (some slot) kind cls day first with
        | .error e => w.refuse r.id e
        | .ok t => w.opened r slot (f.restart t)
    | none =>
      match w.kindTarget none kind cls day first with
      | .error e => w.refuse r.id e
      | .ok t =>
        match w.intake.freeSlot with
        | none => w.refuse r.id .tableFull
        | some slot => w.opened r slot (.new source fileId t)

/-- INGEST PARCEL (R58, R184). -/
def Works.ingest (w : Works) (r : Req) (source fileId sequence start listLength : Nat) (records : List Plain) : Works :=
  let n := records.length
  if n = 0 ∨ 4096 < n ∨ 2 ^ 32 < start + n ∨ (r.listAddr ≠ 0 ∧ listLength < 4 * n) then w.refuse r.id .malformed
  else match w.intake.find source fileId with
    | none => w.refuse r.id .notFound
    | some (slot, f) =>
      if f.state ≠ .receiving then w.refuse r.id .state
      else if f.parcel.isSome then w.refuse r.id .busy
      else if sequence ≠ f.nextSeq ∨ start ≠ f.resume then w.refuse r.id .parcelOrder
      else (w.setFile slot { f with parcel := some ⟨r.id, r.ch, r.tag, records, 0, noCounts, 0, r.listAddr, none⟩ }).take r.id

/-- The state a CLOSE FILE moves a file to (R66, R72). A restore set is compared with the index totals recorded at the open
(DESIGN CHOICE, notes/assumptions/54.md). -/
def Works.closeState (w : Works) (f : File) (declared : FileTotals) : FileState :=
  if f.saturated ∨ f.presented ≠ declared then .discrepant
  else match f.target with
    | none => if f.outstanding = 0 then .reconciled else .settling
    | some t =>
      if (w.targetEntry t.day t.cls t.first).any (·.quarantined) ∧ recTotals f.restoreSet = t.totals then .settling
      else .discrepant

/-- CLOSE FILE (R66, R72). -/
def Works.closeFile (x : Ctx) (w : Works) (r : Req) (source fileId : Nat) (declared : FileTotals) : Works :=
  match w.intake.find source fileId with
  | none => w.refuse r.id .notFound
  | some (slot, f) =>
    if f.state ≠ .receiving then w.refuse r.id .state
    else if f.parcel.isSome then w.refuse r.id .busy
    else
      let st := w.closeState f declared
      let f := { f with declared := some declared, state := st }
      let f := if st = .discrepant ∧ f.target.isSome then f.discardSet else f
      let w := w.setFile slot f
      let w := if st = .reconciled ∨ st = .discrepant then w.fileNotice x f st else w
      let w := if st = .settling ∧ f.target.isSome then w.task (.ask (.intake slot)) else w
      w.done r.id (.fileClosed slot st f.presented)

/-- ABANDON FILE (R69). -/
def Works.abandonFile (w : Works) (r : Req) (source fileId : Nat) : Works :=
  match w.intake.find source fileId with
  | none => w.refuse r.id .notFound
  | some (slot, f) =>
    match f.state with
    | .abandoned => w.done r.id .empty
    | .receiving => (w.abandon slot).done r.id .empty
    | _ => w.refuse r.id .state

/-- FORGET FILE (R70). -/
def Works.forgetFile (w : Works) (r : Req) (source fileId : Nat) : Works :=
  match w.intake.find source fileId with
  | none => w.refuse r.id .notFound
  | some (slot, f) =>
    if f.state = .receiving ∨ f.state = .settling ∨ 0 < f.outstanding then w.refuse r.id .state
    else ({ w with intake := { w.intake with files := tblDrop slot w.intake.files } }).done r.id .empty

/-- FILE STATE (R68, R184). -/
def Works.fileState (w : Works) (r : Req) (source fileId : Nat) : Works :=
  if !r.holds 248 then w.refuse r.id .malformed
  else match w.intake.find source fileId with
    | none => w.refuse r.id .notFound
    | some (_, f) => w.report r.id f.report .empty

/-! ## What a group completion does (R67, R72) -/

/-- A file's record has reached a sheet or been dropped with a merge outcome. -/
def Works.settleRecord (x : Ctx) (w : Works) (slot : Nat) (fate : Option Fate) : Works :=
  match w.file slot with
  | none => w
  | some f =>
    let f := { f with outstanding := f.outstanding - 1,
                      counts := match fate with | some g => addFate g f.counts | none => f.counts }
    if f.state = .settling ∧ f.outstanding = 0 then (w.setFile slot { f with state := .reconciled }).fileNotice x f .reconciled
    else w.setFile slot f

/-- The file of a RESTORE item that was dropped becomes DISCREPANT (R72). -/
def Works.restoreFailed (x : Ctx) (w : Works) (slot : Nat) : Works :=
  match w.file slot with
  | none => w
  | some f => (w.setFile slot { f.discardSet with state := .discrepant }).fileNotice x f .discrepant

end Sys2Proof.Machine
end

