-- ==== Sys2Proof/Machine/Array.lean ====
section
/-!
DEFINITION. The operations of the Array Controller (R91 to R108): the slot and extent tables, the operation queues and the arbiter,
the posting queue and allocation, the sheet cache and reads, void marks, channel faults and probes, relocation, and the space
notices. Nothing here changes the media: what an operation leaves there is in the second part, on `Media` alone.
-/

namespace Sys2Proof.Machine

/-! ## Channels, slots and extents -/

/-- A media channel. -/
def Works.chan (w : Works) (mc : Fin 4) : MediaChan := w.array.chans.get mc

/-- A media channel changed. -/
def Works.mapChan (w : Works) (mc : Fin 4) (f : MediaChan → MediaChan) : Works :=
  { w with array := { w.array with chans := w.array.chans.modify mc f } }

/-- The extent of a slot. -/
def extOf (idx : Nat) : Nat := idx / Config.extentSlots

/-- A slot's entry in the slot table; none is CLEAR. -/
def MediaChan.slot (c : MediaChan) (idx : Nat) : Option SlotInfo := tblGet idx c.slots

/-- A slot's entry wherever it lies. -/
def Works.slot (w : Works) (a : SlotAddr) : Option SlotInfo := (w.chan a.ch).slot a.idx

/-- An extent's entry. -/
def MediaChan.ext (c : MediaChan) (e : Nat) : ExtInfo := (tblGet e c.exts).getD ⟨.clear, 0⟩

/-- An extent's state set. -/
def MediaChan.setExt (c : MediaChan) (e : Nat) (st : ExtState) : MediaChan :=
  { c with exts := tblPut e { c.ext e with state := st } c.exts }

/-- A slot's state set, its kind kept. -/
def MediaChan.setSlot (c : MediaChan) (idx : Nat) (st : SlotState) : MediaChan :=
  { c with slots := tblPut idx ⟨st, ((c.slot idx).map (·.kind)).getD .data⟩ c.slots }

/-- A slot made STALE: it no longer excludes its extent from relocation (R106, R107). -/
def MediaChan.stale (c : MediaChan) (idx : Nat) : MediaChan :=
  { c.setSlot idx .stale with excluded := c.excluded.filter (· ≠ idx) }

/-- CLEAR slots of an extent. -/
def MediaChan.clearIn (c : MediaChan) (e : Nat) : Nat :=
  Config.extentSlots - c.slots.countP fun p => decide (extOf p.1 = e)

/-- The entries of the slots of an extent. -/
def MediaChan.slotsOf (c : MediaChan) (e : Nat) : Tbl SlotInfo := c.slots.filter fun p => decide (extOf p.1 = e)

/-- An extent with a failure count of 2 that is not BAD (R96, R105). -/
def ExtInfo.condemned (e : ExtInfo) : Bool := decide (2 ≤ e.failures) && decide (e.state ≠ .bad)

/-- A channel's CLEAR count. -/
def Works.clearOf (x : Ctx) (w : Works) (mc : Fin 4) : Nat := (w.chan mc).clearCount (x.set.media.get mc)

/-- The total CLEAR count over ONLINE channels. -/
def Works.clearTotal (x : Ctx) (w : Works) : Nat :=
  ((channels.filter fun mc => (w.chan mc).online).map fun mc => w.clearOf x mc).sum

/-- A mark's slot count (R105). -/
def markSlots (m : MediaCfg) (mark : Nat) : Nat := Config.extentSlots * m.extents * mark / 1000

/-- The total of LIVE, STALE and BAD slots (R108), over all four channels (DESIGN CHOICE, notes/assumptions/56.md). -/
def Works.usedSlots (w : Works) : Nat :=
  (channels.map fun mc => (w.chan mc).slots.countP fun p => decide (p.2.state ≠ .writing)).sum

/-! ## Space notices (R108) -/

/-- CLEAR_SPACE_LOW and its arming tested on a channel. -/
def Works.lowTest (x : Ctx) (w : Works) (mc : Fin 4) : Works :=
  let m := x.set.media.get mc
  let n := w.clearOf x mc
  if m.extents = 0 ∨ w.part ≠ .running then w
  else if (w.chan mc).lowArmed ∧ n < markSlots m m.low then
    (w.mapChan mc fun c => { c with lowArmed := false }).notice x .clearSpaceLow (.channelClear mc n)
  else if markSlots m m.high ≤ n then w.mapChan mc fun c => { c with lowArmed := true }
  else w

/-- ARRAY_FULL raised when the total is 0, as an allocation or a channel fault may leave it; armed when it is not. -/
def Works.fullTest (x : Ctx) (w : Works) : Works :=
  if w.part ≠ .running then w
  else if w.clearTotal x = 0 then
    if w.array.fullArmed then
      ({ w with array := { w.array with fullArmed := false } }).notice x .arrayFull (.slots w.usedSlots)
    else w
  else { w with array := { w.array with fullArmed := true } }

/-- ARRAY_FULL armed when the total is above 0. -/
def Works.fullArm (x : Ctx) (w : Works) : Works :=
  if 0 < w.clearTotal x then { w with array := { w.array with fullArmed := true } } else w

/-- A channel's CLEAR count has changed: the notices and the relocation are tested (R105, R108). -/
def Works.spaceChanged (x : Ctx) (w : Works) (mc : Fin 4) : Works := ((w.lowTest x mc).fullArm x).task (.relocationTest mc)

/-- An extent's failure count rises by 1; a condemned OPEN extent becomes FILLED (R96, R99). -/
def Works.failExt (x : Ctx) (w : Works) (mc : Fin 4) (e : Nat) : Works :=
  let c := w.chan mc
  let i := c.ext e
  let n := min 2 (i.failures + 1)
  let w := w.mapChan mc fun c => { c with exts := tblPut e ⟨i.state, n⟩ c.exts }
  if n < 2 then w
  else
    let w := if i.state = .opened then w.mapChan mc fun c => { c.setExt e .filled with openExt := none } else w
    w.spaceChanged x mc

/-! ## The operation queues and the arbiter (R103) -/

/-- An operation asked of an ONLINE channel: it joins the queue, or waits for a place in it. -/
def Works.askOp (w : Works) (mc : Fin 4) (kind : OpKind) (foreground : Bool) : Works :=
  let (n, w) := w.next
  let op : Op := ⟨n, foreground, kind, false⟩
  (w.mapChan mc fun c =>
    if c.queue.length < Config.opQueue then { c with queue := c.queue ++ [op] } else { c with waiting := c.waiting ++ [op] }).task
    (.grant mc)

/-- An operation to be made once more, in its original place (R100, R104, R107). A queue filled since its grant keeps its limit: the
operation that joined it last waits again, first of those that wait (R103; DESIGN CHOICE, notes/assumptions/44.md). -/
def MediaChan.repeatOp (c : MediaChan) (op : Op) : MediaChan :=
  let queue := insertBy (fun a b => decide (a.arrival < b.arrival)) op c.queue
  { c with queue := queue.take Config.opQueue, waiting := queue.drop Config.opQueue ++ c.waiting }

/-- The oldest operation of a class. -/
def MediaChan.oldest (c : MediaChan) (foreground : Bool) : Option Op :=
  (c.queue.filter fun o => decide (o.foreground = foreground)).foldl
    (fun b o => match b with | none => some o | some p => if o.arrival < p.arrival then some o else some p) none

/-- The arbiter's choice and the contest state after it. -/
def MediaChan.choose (c : MediaChan) (preference : Bool) : Option (Op × Nat × Bool) :=
  match c.oldest true, c.oldest false with
  | none, none => none
  | some f, none => some (f, c.contest, c.lastForeground)
  | none, some b => some (b, c.contest, c.lastForeground)
  | some f, some b =>
    if preference then
      if c.contest < 3 then some (f, c.contest + 1, c.lastForeground) else some (b, 0, c.lastForeground)
    else if c.lastForeground then some (b, c.contest, false) else some (f, c.contest, true)

/-- An operation leaves the queue, and the oldest operation that waits for a place joins it. -/
def MediaChan.unqueue (c : MediaChan) (op : Op) : MediaChan :=
  let queue := c.queue.filter fun o => decide (o.arrival ≠ op.arrival)
  match c.waiting with
  | [] => { c with queue := queue }
  | o :: l => if queue.length < Config.opQueue then { c with queue := queue ++ [o], waiting := l } else { c with queue := queue }

/-- Whether a read may be made of a slot outside the rebuild: it is LIVE or WRITING (R100). -/
def SlotInfo.readable (i : SlotInfo) : Bool := decide (i.state = .live) || decide (i.state = .writing)

/-- The next grant of an idle ONLINE channel. A read of a slot that has lost its sheet is answered GONE, and the next grant made. -/
def Works.grant (x : Ctx) (w : Works) (mc : Fin 4) : Works :=
  let c := w.chan mc
  if !c.online || c.busy.isSome then w
  else match c.choose x.set.preference with
    | none => w
    | some (op, contest, last) =>
      let c := { c.unqueue op with contest := contest, lastForeground := last }
      match op.kind with
      | .read idx who _ =>
        if w.part = .rebuilding ∨ ((c.slot idx).any (·.readable)) then w.mapChan mc fun _ => { c with busy := some op }
        else ((w.mapChan mc fun _ => c).addTasks (who.map fun r => Task.answer r.1 .gone)).task (.grant mc)
      | _ => w.mapChan mc fun _ => { c with busy := some op }

/-- A channel's operation in progress ended, and the next grant is made. -/
def Works.opEnded (w : Works) (mc : Fin 4) : Works := (w.mapChan mc fun c => { c with busy := none }).task (.grant mc)

/-! ## The sheet cache (R101, R102) -/

/-- The attached image of a slot. -/
def ArrayCtl.cached (a : ArrayCtl) (s : SlotAddr) : Option CacheImage :=
  a.cache.find? fun i => i.attached && decide (i.slot = s)

/-- Room for one more image: the least recent unpinned image leaves a full cache. -/
def cacheRoom (l : List CacheImage) : List CacheImage :=
  if l.length < Config.cacheImages then l
  else match l.reverse.find? fun i => decide (i.pins = 0) with
    | some i => l.filter fun j => decide (j.id ≠ i.id)
    | none => l

/-- An image enters the cache, or becomes the most recent if it stands there; its number. Where the slot's attached image differs from
the one that enters, as after an audit or scrub read, an unpinned one takes the new bytes and a pinned one is detached as its holders
read it (R102), the new image entering attached beside it (DESIGN CHOICE, notes/assumptions/45.md). -/
def Works.enterCache (w : Works) (s : SlotAddr) (image : Bytes) : Nat × Works :=
  match w.array.cached s with
  | some i =>
    if i.pins = 0 ∨ i.image = image then
      let l := w.array.cache.filter fun j => decide (j.id ≠ i.id)
      (i.id, { w with array := { w.array with cache := { i with image := image } :: l } })
    else
      let (n, w) := w.next
      let l := updateWhere (fun j => decide (j.id = i.id)) (fun j => { j with attached := false }) w.array.cache
      (n, { w with array := { w.array with cache := ⟨n, s, true, 0, image⟩ :: cacheRoom l } })
  | none =>
    let (n, w) := w.next
    (n, { w with array := { w.array with cache := ⟨n, s, true, 0, image⟩ :: cacheRoom w.array.cache } })

/-- A pin added. -/
def Works.pin (w : Works) (id : Nat) : Works :=
  let l := updateWhere (fun i => decide (i.id = id)) (fun i => { i with pins := i.pins + 1 }) w.array.cache
  { w with array := { w.array with cache := l } }

/-- A pin released: a detached image leaves with its last pin. -/
def Works.unpin (w : Works) (id : Nat) : Works :=
  let l := updateWhere (fun i => decide (i.id = id)) (fun i => { i with pins := i.pins - 1 }) w.array.cache
  { w with array := { w.array with cache := l.filter fun i => i.attached || decide (0 < i.pins) } }

/-- The image of a slot detached (R101). -/
def Works.detach (w : Works) (s : SlotAddr) : Works :=
  let l := updateWhere (fun i => decide (i.slot = s)) (fun i => { i with attached := false }) w.array.cache
  { w with array := { w.array with cache := l.filter fun i => i.attached || decide (0 < i.pins) } }

/-- A pinned image served to the holder of its pin becomes the most recent (R101). -/
def Works.touch (w : Works) (id : Nat) : Works :=
  match w.array.cache.find? fun i => decide (i.id = id) with
  | some i => { w with array := { w.array with cache := i :: w.array.cache.filter fun j => decide (j.id ≠ id) } }
  | none => w

/-- A pinned image's records. -/
def Works.pinned (w : Works) (id : Nat) : List Rec :=
  ((w.array.cache.find? fun i => decide (i.id = id)).map fun i => imageRecs i.image).getD []

/-! ## Reads (R100) -/

/-- Whether a requester's reads are FOREGROUND (R103). -/
def Requester.foreground : Requester → Bool
  | .cursor _ _ _ => true
  | .prefetch _ _ => true
  | .lookup _ _ => true
  | .rebuild => true
  | _ => false

/-- Whether a requester's reads are pinned (R102). -/
def Requester.pinned : Requester → Bool
  | .batch _ _ _ _ => true
  | .prefetch _ _ => true
  | _ => false

/-- Whether a requester's reads pass over the posting queue and the cache (R160, R164); the rebuild's read the media. -/
def Requester.direct : Requester → Bool
  | .audit _ => true
  | .scrub => true
  | .rebuild => true
  | _ => false

/-- A read in the queue, waiting for it or in progress joined by one more requester. -/
def Op.joinRead (o : Op) (idx : Nat) (who : Requester) : Op :=
  match o.kind with
  | .read i l again =>
    if i = idx ∧ !o.stray then { o with foreground := o.foreground || who.foreground, kind := .read i (l ++ [(who, who.pinned)]) again }
    else o
  | _ => o

/-- Whether an operation is a read of a slot that a requester can share. -/
def Op.reads (o : Op) (idx : Nat) : Bool :=
  match o.kind with
  | .read i _ _ => decide (i = idx) && !o.stray
  | _ => false

/-- Every operation of a channel: in progress, queued, waiting. -/
def MediaChan.ops (c : MediaChan) : List Op := c.busy.toList ++ c.queue ++ c.waiting

/-- Every operation of a channel changed. -/
def MediaChan.mapOps (c : MediaChan) (f : Op → Op) : MediaChan :=
  { c with busy := c.busy.map f, queue := c.queue.map f, waiting := c.waiting.map f }

/-- The answer of an image to a requester, with a pin for a pinned read of image `id`. -/
def Works.serve (w : Works) (who : Requester) (id : Nat) (image : Bytes) : Works :=
  if who.pinned then (w.pin id).task (.answer who (.image image (some id))) else w.task (.answer who (.image image none))

/-- A read by slot address (R100). -/
def Works.askRead (w : Works) (s : SlotAddr) (who : Requester) : Works :=
  let posted := if who.direct then none else w.array.posting.find? fun p => decide (p.slot = some s)
  match posted with
  | some p =>
    if who.pinned then let (id, w) := w.enterCache s p.image; w.serve who id p.image
    else w.task (.answer who (.image p.image none))
  | none =>
    let cached := if who.direct then none else w.array.cached s
    match cached with
    | some i => let (id, w) := w.enterCache s i.image; w.serve who id i.image
    | none =>
      let c := w.chan s.ch
      if !c.online then w.task (.answer who (.media s.ch))
      else if c.ops.any fun o => o.reads s.idx then w.mapChan s.ch fun c => c.mapOps fun o => o.joinRead s.idx who
      else w.askOp s.ch (.read s.idx [(who, who.pinned)] false) who.foreground

/-- Whether a slot holds a QUARANTINED sheet of the index. -/
def Works.quarantinedAt (w : Works) (s : SlotAddr) : Bool := (w.entryOfSlot s).any fun t => t.2.2.quarantined

/-- A media read completed outside the rebuild, `image` being what the module gave and `none` a failed status (R100). A scrub read
of a sheet that was QUARANTINED before it ended is discarded, and one whose failure quarantines the sheet is counted (R165; DEDUCED,
notes/assumptions/61.md). -/
def Works.readEnded (x : Ctx) (w : Works) (mc : Fin 4) (op : Op) (idx : Nat) (who : List (Requester × Bool)) (again : Bool)
    (image : Option Bytes) : Works :=
  match image.filter fun b => (readSheet b).isSome with
  | some b =>
    let (id, w) := w.enterCache ⟨mc, idx⟩ b
    (who.foldl (fun w r => w.serve r.1 id b) w).opEnded mc
  | none =>
    if !again then
      (w.mapChan mc fun c => { c.repeatOp { op with kind := .read idx who true } with busy := none }).task (.grant mc)
    else
      let before := w.quarantinedAt ⟨mc, idx⟩
      let w := match w.entryOfSlot ⟨mc, idx⟩ with
        | some (d, cls, e) => w.quarantine x (e.ref d cls)
        | none => w
      let answer (r : Requester) : ReadAnswer := if before ∧ r = .scrub then .gone else .failed
      (w.addTasks (who.map fun r => Task.answer r.1 (answer r.1))).opEnded mc

/-! ## Posting and allocation (R97, R98) -/

/-- DATA images of the posting queue. -/
def ArrayCtl.dataPosts (a : ArrayCtl) : Nat := a.posting.countP fun p => decide (p.kind = .data)

/-- Whether an image is admitted to the posting queue. -/
def ArrayCtl.admits (a : ArrayCtl) (kind : SheetKind) : Bool :=
  decide (a.posting.length < Config.postingQueue) && (decide (kind ≠ .data) || decide (a.dataPosts < Config.postingData))

/-- The waiting images admitted in the order in which they were offered. -/
def Works.admitList (w : Works) : List Post → Works
  | [] => w
  | p :: l =>
    if w.array.admits p.kind then
      ({ w with array := { w.array with posting := w.array.posting ++ [p],
                                        offered := w.array.offered.filter fun q => decide (q.id ≠ p.id) } }.addTasks
        [.admitted p.poster, .allocate]).admitList l
    else w.admitList l

/-- Places have freed or an image has been offered: images are admitted. -/
def Works.takeIn (w : Works) : Works := w.admitList w.array.offered

/-- An image offered to the posting queue. -/
def Works.post (w : Works) (image : Bytes) (kind : SheetKind) (poster : Poster) : Works :=
  let (n, w) := w.next
  let p : Post := ⟨n, image, kind, poster, none, false⟩
  { w with array := { w.array with offered := w.array.offered ++ [p] } }.takeIn

/-- The lowest CLEAR slot of an extent. -/
def MediaChan.lowestClear (c : MediaChan) (e : Nat) : Option Nat :=
  ((List.range Config.extentSlots).map fun k => Config.extentSlots * e + k).find? fun i => (c.slot i).isNone

/-- The extent to be opened next (R98). An extent that the table does not list is CLEAR with 64 CLEAR slots. -/
def MediaChan.nextOpen (c : MediaChan) (extents : Nat) : Option Nat :=
  match (List.range (min extents (c.exts.length + 1))).find? fun e => (tblGet e c.exts).isNone with
  | some e => some e
  | none =>
    firstMax c.clearIn ((c.exts.filter fun p =>
      (decide (p.2.state = .clear) || decide (p.2.state = .filled)) && decide (p.2.failures < 2) &&
        decide (0 < c.clearIn p.1)).map (·.1))

/-- The open extent with a CLEAR slot, chosen anew where the present one has none or is condemned. -/
def MediaChan.reopen (c : MediaChan) (extents : Nat) : MediaChan :=
  match c.openExt.filter fun e => decide (0 < c.clearIn e) && decide ((c.ext e).failures < 2) with
  | some _ => c
  | none =>
    let c := match c.openExt with | some e => { c.setExt e .filled with openExt := none } | none => c
    match c.nextOpen extents with
    | some e => { c.setExt e .opened with openExt := some e }
    | none => c

/-- The ONLINE channel with the greatest CLEAR count above 0, the lowest number on equal counts. -/
def Works.bestChannel (x : Ctx) (w : Works) : Option (Fin 4) :=
  firstMax (fun mc => w.clearOf x mc) (channels.filter fun mc => (w.chan mc).online && decide (0 < w.clearOf x mc))

/-- A slot allocated to a sheet of `kind`: it becomes WRITING. -/
def Works.takeSlot (x : Ctx) (w : Works) (kind : SheetKind) : Option (SlotAddr × Works) :=
  match w.bestChannel x with
  | none => none
  | some mc =>
    let c := (w.chan mc).reopen (x.set.media.get mc).extents
    match c.openExt.bind fun e => c.lowestClear e with
    | none => none
    | some i =>
      let w := w.mapChan mc fun _ => { c with slots := tblPut i ⟨.writing, kind⟩ c.slots }
      some (⟨mc, i⟩, (w.spaceChanged x mc).fullTest x)

/-- The posting queue's WAITING_POST entries given slots in order; DATA entries leave the reserve (R98). -/
def Works.allocPosts (x : Ctx) (w : Works) : List Post → Works
  | [] => w
  | p :: l =>
    if p.slot.isSome || (decide (p.kind = .data) && decide (w.clearTotal x ≤ Config.reserve)) then w.allocPosts x l
    else match w.takeSlot x p.kind with
      | none => w.allocPosts x l
      | some (s, w) =>
        let posting := updateWhere (fun q => decide (q.id = p.id)) (fun q => { q with slot := some s }) w.array.posting
        (({ w with array := { w.array with posting := posting } }).askOp s.ch (.program p.id s.idx p.image) false).allocPosts x l

/-! ## Void marks (R104) -/

/-- An operation joined by one more who is told of its void mark. -/
def Op.joinVoid (o : Op) (idx : Nat) (who : VoidOwner) : Op :=
  match o.kind with
  | .voidMark i l again => if i = idx ∧ !o.stray then { o with kind := .voidMark i (l ++ [who]) again } else o
  | _ => o

/-- Whether an operation is a void mark of a slot. -/
def Op.voids (o : Op) (idx : Nat) : Bool :=
  match o.kind with
  | .voidMark i _ _ => decide (i = idx) && !o.stray
  | _ => false

/-- A void mark owed on a channel, joined to the one already owed for its slot (R93, R104). -/
def MediaChan.owe (c : MediaChan) (idx : Nat) (who : List VoidOwner) (deferred : Bool) : MediaChan :=
  if c.owed.any fun m => decide (m.idx = idx) then
    let join (m : OwedMark) : OwedMark := { m with who := m.who ++ who, deferred := m.deferred || deferred }
    { c with owed := updateWhere (fun m => decide (m.idx = idx)) join c.owed }
  else { c with owed := c.owed ++ [⟨idx, who, deferred⟩] }

/-- Whether a void mark of a slot is in progress, queued, waiting or owed on its channel. -/
def MediaChan.voidAsked (c : MediaChan) (idx : Nat) : Bool :=
  (c.ops.any fun o => o.voids idx) || c.owed.any fun m => decide (m.idx = idx)

/-- A void mark asked for a slot. -/
def Works.voidMark (w : Works) (s : SlotAddr) (who : VoidOwner) : Works :=
  let c := w.chan s.ch
  if c.ops.any fun o => o.voids s.idx then w.mapChan s.ch fun c => c.mapOps fun o => o.joinVoid s.idx who
  else if !c.online || c.owed.any fun m => decide (m.idx = s.idx) then w.mapChan s.ch fun c => c.owe s.idx [who] false
  else if (c.slot s.idx).any (·.readable) then w.askOp s.ch (.voidMark s.idx [who] false) false
  else w.task (.voidDone who s)

/-- A void mark completed, the slot having been marked or its repeat having failed too. -/
def Works.voidEnded (x : Ctx) (w : Works) (mc : Fin 4) (idx : Nat) (who : List VoidOwner) (failed : Bool) : Works :=
  let w := (w.mapChan mc fun c => c.stale idx).detach ⟨mc, idx⟩
  let w := if failed then w.failExt x mc (extOf idx) else w
  ((w.addTasks (who.map fun o => Task.voidDone o ⟨mc, idx⟩)).addTasks [.relocationTest mc, .relocationSettle mc]).opEnded mc

/-! ## Relocation (R105 to R107) -/

/-- The extents a relocation may take as its source. -/
def Works.sources (w : Works) (mc : Fin 4) : List (Nat × ExtInfo) :=
  let c := w.chan mc
  c.exts.filter fun p => decide (p.2.state = .filled) && !(c.excluded.any fun i => decide (extOf i = p.1)) &&
    !((c.slotsOf p.1).any fun s => w.quarantinedAt ⟨mc, s.1⟩)

/-- STALE slots of an extent. -/
def MediaChan.staleIn (c : MediaChan) (e : Nat) : Nat := (c.slotsOf e).countP fun p => decide (p.2.state = .stale)

/-- The source chosen: a condemned FILLED extent first, the lowest-numbered of several (DESIGN CHOICE, notes/assumptions/46.md), then the
one with the most STALE slots. -/
def Works.chooseSource (w : Works) (mc : Fin 4) : Option Nat :=
  let c := w.chan mc
  let l := w.sources mc
  match l.find? fun p => decide (2 ≤ p.2.failures) with
  | some p => some p.1
  | none => firstMax c.staleIn ((l.map (·.1)).filter fun e => decide (0 < c.staleIn e))

/-- Whether relocation may run: the catalogue stands. -/
def Works.settled (w : Works) : Bool := decide (w.part = .running) || (decide (w.part = .rebuilding) && w.rebuild.resolved)

/-- A relocation given its next source while work remains below `mark`, else made IDLE. -/
def Works.nextSource (x : Ctx) (w : Works) (mc : Fin 4) (mark : Nat) : Works :=
  let c := w.chan mc
  let m := x.set.media.get mc
  if c.exts.any (fun p => p.2.condemned) || decide (w.clearOf x mc < markSlots m mark) then
    match w.chooseSource mc with
    | some e =>
      ((w.mapChan mc fun c => { c.setExt e .relocating with relocation := some ⟨e, 0, [], none, false⟩ }).lowTest x mc).fullArm x
    | none => w.mapChan mc fun c => { c with relocation := none }
  else w.mapChan mc fun c => { c with relocation := none }

/-- An IDLE relocation on an ONLINE channel tested for starting (R105). -/
def Works.relocationTest (x : Ctx) (w : Works) (mc : Fin 4) : Works :=
  let c := w.chan mc
  let m := x.set.media.get mc
  if c.relocation.isSome || !c.online || decide (m.extents = 0) || !w.settled then w else w.nextSource x mc m.low

/-- A relocation changed. -/
def Works.mapReloc (w : Works) (mc : Fin 4) (f : Relocation → Relocation) : Works :=
  w.mapChan mc fun c => { c with relocation := c.relocation.map f }

/-- The slot `idx` has been handled: the walk goes on from it, or it leaves the revisit set. -/
def Relocation.past (r : Relocation) (idx : Nat) : Relocation :=
  if r.next < Config.extentSlots ∧ Config.extentSlots * r.source + r.next = idx then { r with next := r.next + 1 }
  else { r with revisit := r.revisit.filter (· ≠ idx) }

/-- The claim that relocation holds on the sheet of a slot released. -/
def Works.releaseSlot (x : Ctx) (w : Works) (s : SlotAddr) : Works :=
  match w.entryOfSlot s with
  | some (d, cls, e) => if e.busy = some .relocation then w.release x d cls e.first else w
  | none => w

/-- A copy given up (R106): its new slot is void-marked, its claim released, and a SUMMARY or HOLD slot excluded. -/
def Works.giveUp (x : Ctx) (w : Works) (mc : Fin 4) (markNew exclude : Bool) : Works :=
  match (w.chan mc).relocation.bind (·.copy) with
  | none => w
  | some cp =>
    let w := match cp.new with
      | some s => if markNew then w.voidMark s .untold else w
      | none => w
    let w := w.releaseSlot x ⟨mc, cp.old⟩
    let w := if exclude ∧ cp.kind ≠ .data then w.mapChan mc fun c => { c with excluded := addNew cp.old c.excluded } else w
    (w.mapReloc mc fun r => { (r.past cp.old) with copy := none }).task (.relocationSettle mc)

/-- A copy without a slot: its claim is released and the relocation pauses (R106). -/
def Works.pauseCopy (x : Ctx) (w : Works) (mc : Fin 4) (old : Nat) : Works :=
  (w.releaseSlot x ⟨mc, old⟩).mapReloc mc fun r => { r with copy := none, paused := true }

/-- A copy begun of a slot whose sheet is claimed or needs no claim. -/
def Works.startCopy (x : Ctx) (w : Works) (mc : Fin 4) (old : Nat) (kind : SheetKind) : Works :=
  match w.takeSlot x kind with
  | none => w.pauseCopy x mc old
  | some (s, w) => (w.mapReloc mc fun r => { r with copy := some ⟨old, kind, some s, none⟩ }).askRead ⟨mc, old⟩ (.copy mc old)

/-- A copy whose slot was lost asks for another; with its image read, the program follows. -/
def Works.recopy (x : Ctx) (w : Works) (mc : Fin 4) : Works :=
  match (w.chan mc).relocation.bind (·.copy) with
  | none => w
  | some cp =>
    match w.takeSlot x cp.kind with
    | none => w.pauseCopy x mc cp.old
    | some (s, w) =>
      let w := w.mapReloc mc fun r => { r with copy := some { cp with new := some s } }
      match cp.image with
      | some b => w.askOp s.ch (.copy s.idx b mc) false
      | none => w

/-- What the walk does with a slot of its source (R106). -/
inductive WalkAct where
  | pass | later | copy (kind : SheetKind) (claim : Option (Nat × Nat × Key))
  deriving DecidableEq, Repr

/-- The action for a slot. -/
def Works.walkAct (w : Works) (mc : Fin 4) (idx : Nat) : WalkAct :=
  match (w.chan mc).slot idx with
  | none => .pass
  | some i =>
    match i.state with
    | .stale => .pass
    | .bad => .pass
    | .writing => .later
    | .live =>
      match i.kind with
      | .data =>
        match w.entryOfSlot ⟨mc, idx⟩ with
        | none => .later
        | some (d, cls, e) =>
          if e.quarantined then .pass else if e.busy = none then .copy .data (some (d, cls, e.first)) else .later
      | k => .copy k none

/-- A slot handled by the walk. -/
def Works.handleSlot (x : Ctx) (w : Works) (mc : Fin 4) (idx : Nat) : Works :=
  match w.walkAct mc idx with
  | .pass => (w.mapReloc mc fun r => r.past idx).task (.relocationSettle mc)
  | .later => (w.mapReloc mc fun r => { r.past idx with revisit := addNew idx r.revisit }).task (.relocationSettle mc)
  | .copy kind claim =>
    let w := match claim with
      | some (d, cls, first) => w.claim d cls first .relocation
      | none => w
    w.startCopy x mc idx kind

/-- The next step of a relocation that is not paused and has no copy: the next slot of the walk, else the first slot of the revisit
set that can be handled. -/
def Works.relocationStep (x : Ctx) (w : Works) (mc : Fin 4) : Works :=
  match (w.chan mc).relocation with
  | none => w
  | some r =>
    if r.copy.isSome || r.paused || !(w.chan mc).online then w
    else if r.next < Config.extentSlots then w.handleSlot x mc (Config.extentSlots * r.source + r.next)
    else match r.revisit.find? fun i => decide (w.walkAct mc i ≠ .later) with
      | some i => w.handleSlot x mc i
      | none => w

/-- A release made known to relocation (R43, R106): a walk that has reached slot 63 tests its revisit set for the slot of the entry
released. -/
def Works.relocationReleased (x : Ctx) (w : Works) (d cls : Nat) (first : Key) : Works :=
  channels.foldl (fun w mc =>
    let freed (i : Nat) : Bool :=
      (w.entryOfSlot ⟨mc, i⟩).any (fun t => decide (t.1 = d ∧ t.2.1 = cls ∧ t.2.2.first = first)) && decide (w.walkAct mc i ≠ .later)
    match (w.chan mc).relocation with
    | none => w
    | some r =>
      if r.next < Config.extentSlots ∨ r.copy.isSome ∨ r.paused ∨ (w.chan mc).online = false then w
      else match r.revisit.find? freed with
        | some i => w.handleSlot x mc i
        | none => w) w

/-- Paused relocations resumed while a CLEAR slot can be had (R98, R106). -/
def Works.resumePaused (x : Ctx) (w : Works) : List (Fin 4) → Works
  | [] => w
  | mc :: l =>
    if (w.chan mc).relocation.any (·.paused) ∧ 0 < w.clearTotal x then
      ((w.mapReloc mc fun r => { r with paused := false }).relocationStep x mc).resumePaused x l
    else w.resumePaused x l

/-- An allocation event (R98). -/
def Works.allocate (x : Ctx) (w : Works) : Works :=
  let w := w.resumePaused x channels
  w.allocPosts x w.array.posting

/-- The source tested for being finished and settled by what it holds, also while the relocation is paused (R107). Slots whose void marks
are still to complete keep it waiting; a slot that no mark is asked for (quarantined, excluded or given up) leaves it FILLED. -/
def Works.relocationSettle (x : Ctx) (w : Works) (mc : Fin 4) : Works :=
  let staleNow (c : MediaChan) (i : Nat) : Bool := !((c.slot i).any (·.readable))
  let w := w.mapChan mc fun c => { c with relocation := c.relocation.map fun r => { r with revisit := r.revisit.filter fun i => !staleNow c i } }
  match (w.chan mc).relocation with
  | none => w
  | some r =>
    let c := w.chan mc
    if r.next < Config.extentSlots ∨ r.revisit ≠ [] ∨ r.copy.isSome ∨ (c.ext r.source).state ≠ .relocating ∨
        c.ops.any (fun o => decide (o.kind = .retireMark r.source false) || decide (o.kind = .retireMark r.source true)) then w
    else
      let held := ((c.slotsOf r.source).filter fun p => p.2.readable).map (·.1)
      let left := held.filter fun i => !c.voidAsked i
      if left ≠ [] then
        let w := w.mapChan mc fun c => { c.setExt r.source .filled with excluded := left.foldl (fun l i => addNew i l) c.excluded }
        (w.spaceChanged x mc).nextSource x mc (x.set.media.get mc).high
      else if held ≠ [] then w
      else if (c.ext r.source).failures < 2 then
        (w.mapChan mc fun c => c.setExt r.source .clearing).askOp mc (.clear r.source) false
      else w.askOp mc (.retireMark r.source false) false

/-- A relocation whose source has been cleared or made BAD takes its next source. -/
def Works.sourceDone (x : Ctx) (w : Works) (mc : Fin 4) (e : Nat) : Works :=
  if (w.chan mc).relocation.any fun r => decide (r.source = e) then w.nextSource x mc (x.set.media.get mc).high
  else w.task (.relocationTest mc)

/-- A clear completed with its status passed (R107). -/
def Works.cleared (x : Ctx) (w : Works) (mc : Fin 4) (e : Nat) : Works :=
  let w := w.mapChan mc fun c =>
    { c with exts := tblDrop e c.exts, slots := c.slots.filter fun p => decide (extOf p.1 ≠ e),
             excluded := c.excluded.filter fun i => decide (extOf i ≠ e) }
  ((((w.lowTest x mc).fullArm x).sourceDone x mc e).task .allocate).opEnded mc

/-- An extent made BAD with all its slots (R107, R178). -/
def MediaChan.makeBad (c : MediaChan) (e : Nat) : MediaChan :=
  let slots := (List.range Config.extentSlots).foldl
    (fun t k => tblPut (Config.extentSlots * e + k) (SlotInfo.mk .bad .data) t) c.slots
  { c.setExt e .bad with slots := slots, openExt := if c.openExt = some e then none else c.openExt }

/-- A retire mark completed (R107). -/
def Works.retired (x : Ctx) (w : Works) (mc : Fin 4) (e : Nat) : Works :=
  ((w.mapChan mc fun c => c.makeBad e).sourceDone x mc e).opEnded mc

/-- Whether the owner of a SUMMARY or HOLD sheet still names its slot (R106). -/
def Works.named (w : Works) (s : SlotAddr) : Bool :=
  w.days.any (fun p => decide (p.2.summary = some s) || decide (p.2.goneSlot = some s)) ||
    w.retention.ranges.any fun r => r.sheet.any (fun q => decide (q.1 = s)) ||
      r.rewrite.any fun v => v.sheets.any fun h => decide (h.slot = s)

/-- A SUMMARY or HOLD sheet's owner takes the new slot. -/
def Works.rename (w : Works) (old new : SlotAddr) : Works :=
  let slot (s : SlotAddr) : SlotAddr := if s = old then new else s
  let days := w.days.map fun p => (p.1, { p.2 with summary := p.2.summary.map slot, goneSlot := p.2.goneSlot.map slot })
  let sheets (v : Rewrite) : Rewrite := { v with sheets := v.sheets.map fun h => { h with slot := slot h.slot } }
  let ranges := w.retention.ranges.map fun r =>
    { r with sheet := r.sheet.map fun q => (slot q.1, q.2), rewrite := r.rewrite.map sheets }
  { w with days := days, retention := { w.retention with ranges := ranges } }

/-- The cached image of a copied slot takes the new address (R101). -/
def Works.moveCached (w : Works) (old new : SlotAddr) : Works :=
  let l := updateWhere (fun i => i.attached && decide (i.slot = old)) (fun i => { i with slot := new }) w.array.cache
  { w with array := { w.array with cache := l } }

/-- A relocation copy's program passed on slot `s` (R45, R106). -/
def Works.copyPassed (x : Ctx) (w : Works) (mc : Fin 4) (s : SlotAddr) : Works :=
  match (w.chan mc).relocation.bind fun r => r.copy with
  | none => w
  | some cp =>
    if cp.new ≠ some s then w
    else
      let old : SlotAddr := ⟨mc, cp.old⟩
      let w := match cp.kind with
        | .data =>
          match w.entryOfSlot old with
          | some (d, cls, e) =>
            (((w.mapEntry d cls e.first fun e => { e with slot := s }).moveCached old s).releaseSlot x s).voidMark old .untold
          | none => w.voidMark s .untold
        | _ => if w.named old then ((w.rename old s).moveCached old s).voidMark old .untold else w.voidMark s .untold
      (w.mapReloc mc fun r => { (r.past cp.old) with copy := none }).task (.relocationSettle mc)

/-- The answer to a relocation copy's read (R106). -/
def Works.copyAnswer (x : Ctx) (w : Works) (mc : Fin 4) (old : Nat) (a : ReadAnswer) : Works :=
  match (w.chan mc).relocation.bind fun r => r.copy with
  | none => w
  | some cp =>
    if cp.old ≠ old ∨ cp.image.isSome then w
    else match a with
      | .image b _ =>
        let w := w.mapReloc mc fun r => { r with copy := some { cp with image := some b } }
        match cp.new with
        | some s => w.askOp s.ch (.copy s.idx b mc) false
        | none => w.recopy x mc
      | .failed => w.giveUp x mc true true
      | .media _ => w.giveUp x mc true true
      | .gone => w.giveUp x mc true false

/-! ## Programs (R99) -/

/-- A posted image's program completed. -/
def Works.programEnded (x : Ctx) (w : Works) (mc : Fin 4) (post idx : Nat) (passed : Bool) : Works :=
  let s : SlotAddr := ⟨mc, idx⟩
  match w.array.posting.find? fun p => decide (p.id = post) with
  | none => w.opEnded mc
  | some p =>
    let rest := w.array.posting.filter fun q => decide (q.id ≠ post)
    if passed then
      let w := w.mapChan mc fun c => c.setSlot idx .live
      let w := { w with array := { w.array with posting := rest } }
      let (_, w) := w.enterCache s p.image
      let w := if p.orphan then w else w.task (.sheetLive p.poster s)
      (w.takeIn.task .allocate).opEnded mc
    else
      let w := (w.mapChan mc fun c => c.stale idx).failExt x mc (extOf idx)
      let posting := if p.orphan then rest else { p with slot := none } :: rest
      let w := { w with array := { w.array with posting := posting } }
      (w.takeIn.addTasks [.allocate, .relocationTest mc, .relocationSettle mc]).opEnded mc

/-- A relocation copy's program completed on channel `mc`, the copy being `source`'s. -/
def Works.copyEnded (x : Ctx) (w : Works) (mc : Fin 4) (idx : Nat) (source : Fin 4) (passed : Bool) : Works :=
  let s : SlotAddr := ⟨mc, idx⟩
  if passed then (((w.mapChan mc fun c => c.setSlot idx .live).copyPassed x source s).task .allocate).opEnded mc
  else
    let w := (w.mapChan mc fun c => c.stale idx).failExt x mc (extOf idx)
    let mine := ((w.chan source).relocation.bind (·.copy)).any fun cp => decide (cp.new = some s)
    let w := if mine then w.recopy x source else w
    (w.addTasks [.allocate, .relocationTest mc, .relocationSettle mc]).opEnded mc

/-! ## Channel faults and probes (R93, R94) -/

/-- The group that posted an image, if its poster is one. -/
def Poster.group : Poster → Option Nat
  | .output g _ => some g
  | .summary g => some g
  | _ => none

/-- A slot made STALE by a fault: it enters the deferred-mark list. -/
def MediaChan.defer (c : MediaChan) (idx : Nat) : MediaChan := (c.stale idx).owe idx [] true

/-- The settlement of one operation of a faulted channel (R93). Programs are settled with the posting queue. A void mark that was to be
repeated is owed as one not yet made, with a repeat of its own (R93, R104; DESIGN CHOICE, notes/assumptions/75.md). -/
def Works.settleOp (x : Ctx) (w : Works) (mc : Fin 4) (o : Op) : Works :=
  if o.stray then w
  else match o.kind with
    | .read _ who _ => w.addTasks (who.map fun r => Task.answer r.1 (.media mc))
    | .program _ idx _ => w.mapChan mc fun c => c.defer idx
    | .copy idx _ source =>
      let w := w.mapChan mc fun c => c.defer idx
      if ((w.chan source).relocation.bind (·.copy)).any fun cp => decide (cp.new = some ⟨mc, idx⟩) then
        w.giveUp x source false true
      else w
    | .voidMark idx who _ => w.mapChan mc fun c => c.owe idx who false
    | .clear e => w.mapChan mc fun c => { c with clearAgain := addNew e c.clearAgain }
    | .retireMark e _ =>
      if ((w.chan mc).ext e).state = .clearing then w.mapChan mc fun c => { c with retireAgain := addNew e c.retireAgain } else w

/-- The posting queue after a fault: images WRITING on the channel leave it if a group posted them, and otherwise wait again. -/
def faultPosts (mc : Fin 4) (l : List Post) : List Post :=
  let hit (p : Post) : Bool := p.slot.any fun s => decide (s.ch = mc)
  (l.filter fun p => !(hit p && p.poster.group.isSome)).map fun p => if hit p then { p with slot := none } else p

/-- The groups that a fault aborts, each with the slots it lost. -/
def lostSlots (mc : Fin 4) (l : List Post) : List (Nat × List SlotAddr) :=
  let hits := l.filter fun p => !p.orphan && p.slot.any fun s => decide (s.ch = mc)
  (hits.filterMap (·.poster.group)).eraseDups.map fun g =>
    (g, (hits.filter fun p => decide (p.poster.group = some g)).filterMap (·.slot))

/-- The relocation of a faulted channel stopped: its source becomes FILLED unless it is CLEARING, and a copy is given up. A copy whose
read the fault answers MEDIA leaves its slot excluded (R93, R106). -/
def Works.stopRelocation (x : Ctx) (w : Works) (mc : Fin 4) : Works :=
  match (w.chan mc).relocation with
  | none => w
  | some r =>
    let w := w.giveUp x mc true (r.copy.any fun cp => cp.image.isNone)
    let w := w.mapChan mc fun c =>
      let c := if (c.ext r.source).state = .relocating then c.setExt r.source .filled else c
      { c with relocation := none }
    w.spaceChanged x mc

/-- Copies of other channels whose allocated slot lay WRITING on the faulted channel ask for another (R93). -/
def Works.recopyLost (x : Ctx) (w : Works) (mc : Fin 4) : Works :=
  channels.foldl (fun w c =>
    if ((w.chan c).relocation.bind (·.copy)).any fun cp => cp.new.any fun s => decide (s.ch = mc) then w.recopy x c else w) w

/-- A channel fault (R93). ARRAY_FULL is tested where the total was above 0 before it (R108). -/
def Works.fault (x : Ctx) (w : Works) (mc : Fin 4) : Works :=
  let space := w.clearTotal x
  let ops := (w.chan mc).ops
  let lost := lostSlots mc w.array.posting
  let w := w.mapChan mc fun c =>
    { c with online := false, probing := false, probeDue := x.clock + Config.probeMs, busy := none, queue := [], waiting := [] }
  let w := w.notice x .channelOffline (.channelClear mc (w.clearOf x mc))
  let w := ops.foldl (fun w o => w.settleOp x mc o) w
  let w := { w with array := { w.array with posting := faultPosts mc w.array.posting } }
  let w := w.mapChan mc fun c =>
    (c.slots.filter fun p => decide (p.2.state = .writing)).foldl (fun c p => c.defer p.1) c
  let w := w.stopRelocation x mc
  let w := w.recopyLost x mc
  let w := w.addTasks (lost.map fun p => .abort p.1 (some mc) p.2)
  if 0 < space then w.takeIn.fullTest x else w.takeIn

/-- A probe succeeded: the channel is ONLINE and its deferred work is queued (R94). -/
def Works.probeReady (x : Ctx) (w : Works) (mc : Fin 4) : Works :=
  let c := w.chan mc
  let w := w.mapChan mc fun c => { c with online := true, probing := false, owed := [], clearAgain := [], retireAgain := [] }
  let w := c.owed.foldl (fun w m => w.askOp mc (.voidMark m.idx m.who false) false) w
  let w := c.clearAgain.foldl (fun w e => w.askOp mc (.clear e) false) w
  let w := c.retireAgain.foldl (fun w e => w.askOp mc (.retireMark e false) false) w
  (w.fullArm x).addTasks [.online mc, .allocate, .relocationTest mc, .grant mc]

/-! ## What an operation leaves on the media (R92, R95) -/

/-- A program's image on the media, or what a failed program leaves. -/
def Media.programmed (m : Media) (idx : Nat) (image : Bytes) : ProgramEnd → Media
  | .passed => m.put idx ⟨some image, false⟩
  | .failed found => m.put idx found

/-- A void mark on the media. -/
def Media.voided (m : Media) (idx : Nat) : MarkEnd → Media
  | .passed => m.mark idx
  | .failed marked => if marked then m.mark idx else m

/-- A retire mark on the media. -/
def Media.retireMarked (m : Media) (e : Nat) : MarkEnd → Media
  | .passed => m.retire e
  | .failed marked => if marked then m.retire e else m

/-- Slots of an extent made to hold what is found there. -/
def Media.putAll (m : Media) (e : Nat) (found : List (Nat × Cell)) : Media :=
  found.foldl (fun m p => if p.1 < Config.extentSlots then m.put (Config.extentSlots * e + p.1) p.2 else m) m

/-- A clear on the media. -/
def Media.clearDone (m : Media) (e : Nat) : ClearEnd → Media
  | .passed => m.clearExt e
  | .failed found => m.putAll e found

/-- What an operation that did not end leaves: only on the slots it worked on. -/
def Media.torn (m : Media) (o : Op) (t : Torn) : Media :=
  let mine (idx : Nat) : List (Nat × Cell) := t.found.filter fun p => decide (p.1 = idx % Config.extentSlots)
  match o.kind with
  | .program _ idx _ => m.putAll (extOf idx) (mine idx)
  | .copy idx _ _ => m.putAll (extOf idx) (mine idx)
  | .voidMark idx _ _ => if t.marked then m.mark idx else m
  | .clear e => m.putAll e t.found
  | .retireMark e _ => if t.marked then m.retire e else m
  | .read _ _ _ => m

end Sys2Proof.Machine
end

