-- ==== Sys2Proof/Machine/PackerOps.lean ====
section
/-!
DEFINITION. The operations of the Packer (R21 to R25, R75 to R90): the work queue and its scan, the merge schedule, and groups from
their take to their completion or abort.
-/

namespace Sys2Proof.Machine

/-! ## The work queue (R75, R76) -/

/-- The kind of an item's work. -/
def Work.kind : Work → ItemKind
  | .closeRun _ => .closeRun
  | .merge _ => .merge
  | .apply _ _ => .apply
  | .trim _ _ => .trim
  | .retire _ => .retire
  | .restore _ _ _ => .restore

/-- An item queued at the tail; none when the queue holds 1024 items. -/
def Works.pushItem (w : Works) (d : Nat) (work : Work) (askers : List (Fin 4)) : Option (Nat × Works) :=
  if w.packer.queue.length < Config.packerQueue then
    let (n, w) := w.next
    let i : Item := ⟨n, d, work, askers, false, none⟩
    some (n, { w with packer := { w.packer with queue := w.packer.queue ++ [i] } }.task .scan)
  else none

/-- An asker refused as full is noted. -/
def Works.noteAsker (w : Works) (a : Asker) : Works := { w with packer := { w.packer with noted := addNew a w.packer.noted } }

/-- An item of the queue. -/
def Works.item (w : Works) (id : Nat) : Option Item := w.packer.queue.find? fun i => decide (i.id = id)

/-- An item changed. -/
def Works.mapItem (w : Works) (id : Nat) (f : Item → Item) : Works :=
  { w with packer := { w.packer with queue := updateWhere (fun i => decide (i.id = id)) f w.packer.queue } }

/-- An item leaves the queue, and free space is reported to the askers noted. -/
def Works.itemLeaves (w : Works) (id : Nat) : Works :=
  let noted := w.packer.noted
  let queue := w.packer.queue.filter fun i => decide (i.id ≠ id)
  { w with packer := { w.packer with queue := queue, noted := [] } }.addTasks (noted.map fun a => Task.ask a)

/-- The CLOSE_RUN items of a day's classes awaiting close asked for, in ascending class (R39). -/
def Works.askCloseRuns (w : Works) (d : Nat) : List Nat → Works
  | [] => w
  | c :: l =>
    if w.packer.queue.any fun i => decide (i.day = d) && decide (i.work = .closeRun c) then w.askCloseRuns d l
    else match w.pushItem d (.closeRun c) [] with
      | some (_, w) => w.askCloseRuns d l
      | none => w.noteAsker (.catalogue d)

/-- The RESTORE item of a SETTLING restore file asked for (R72). -/
def Works.askRestore (w : Works) (slot : Nat) : Works :=
  match w.file slot with
  | none => w
  | some f =>
    match f.target with
    | none => w
    | some t =>
      let work : Work := .restore slot t.cls t.first
      if f.state ≠ .settling ∨ w.packer.queue.any (fun i => decide (i.work = work)) then w
      else match w.pushItem t.day work [] with
        | some (_, w) => w
        | none => w.noteAsker (.intake slot)

/-! ## The merge schedule (R86, R88) -/

/-- The schedule's entry of a (day, class); one that is not listed is not blocked and has no askers. -/
def Packer.schedOf (p : Packer) (d c : Nat) : MergeSched :=
  (p.sched.find? fun m => decide (m.day = d) && decide (m.cls = c)).getD ⟨d, c, 0, none, []⟩

/-- The schedule's entry set; an entry that says nothing is not listed. -/
def Packer.setSched (p : Packer) (m : MergeSched) : Packer :=
  let rest := p.sched.filter fun n => !(decide (n.day = m.day) && decide (n.cls = m.cls))
  { p with sched := if m.held = 0 ∧ m.rearm = none ∧ m.askers = [] then rest else rest ++ [m] }

/-- A schedule entry changed. -/
def Works.mapSched (w : Works) (d c : Nat) (f : MergeSched → MergeSched) : Works :=
  { w with packer := w.packer.setSched (f (w.packer.schedOf d c)) }

/-- The WAITING MERGE of a (day, class). -/
def Packer.waitingMerge (p : Packer) (d c : Nat) : Option Item :=
  p.queue.find? fun i => decide (i.day = d) && decide (i.work = .merge c) && !i.inGroup

/-- The arrival of the oldest of some late records. -/
def oldestArrival : List LateRec → Option Nat
  | [] => none
  | r :: l => match oldestArrival l with
    | none => some r.arrival
    | some t => some (min r.arrival t)

/-- The moment at which the merge delay of a (day, class) runs out, if it is measured. -/
def Works.mergeExpiry (x : Ctx) (w : Works) (d c : Nat) : Option Nat :=
  let m := w.packer.schedOf d c
  if m.held = 0 then (oldestArrival (w.intake.lateOf d c)).map (· + 1000 * x.set.merge)
  else m.rearm.map (· + 1000 * x.set.merge)

/-- Whether a merge of a (day, class) holds a late record back: its covering entry or an entry of its account is QUARANTINED (R87). -/
def Works.holdsBack (w : Works) (d c : Nat) (r : LateRec) : Bool :=
  let run := ((w.liveDay d).map fun e => e.runEntries c).getD []
  (coveringEntry run r.call.key).any (·.quarantined) || (w.accountEntries d r.call.account).any fun p => p.2.quarantined

/-- The late records of a (day, class) that can be merged, and the number held back (R87). -/
def Works.mergeable (w : Works) (d c : Nat) : List LateRec × Nat :=
  let late := w.intake.lateOf d c
  (late.filter fun r => !w.holdsBack d c r, late.countP fun r => w.holdsBack d c r)

/-- Whether an ask of the Amendment Unit stays with the schedule: the last MERGE held back as many records as the (day, class) has, and
none of them can be merged. The item asked for would be dropped at its scan and asked again without end, so it is made due when a record
can be merged (R131; DESIGN CHOICE, notes/assumptions/67.md). -/
def Works.askStays (w : Works) (d c : Nat) : Bool :=
  decide ((w.intake.lateOf d c).length ≤ (w.packer.schedOf d c).held) && decide ((w.mergeable d c).1 = [])

/-- Whether a MERGE is due (R86). -/
def Works.mergeDue (x : Ctx) (w : Works) (d c : Nat) : Bool :=
  let m := w.packer.schedOf d c
  let n := (w.intake.lateOf d c).length
  (w.day d).any (fun e => decide (e.state = .closed)) && (w.packer.waitingMerge d c).isNone && decide (0 < n) &&
    (decide (Config.mergeCount + m.held ≤ n) || (w.mergeExpiry x d c).any (fun t => decide (t ≤ x.clock)) ||
      (decide (m.askers ≠ []) && !w.askStays d c))

/-- The merge test of a (day, class): a due MERGE is queued with those who asked for it. -/
def Works.mergeTest (x : Ctx) (w : Works) (d c : Nat) : Works :=
  if w.mergeDue x d c then
    match w.pushItem d (.merge c) (w.packer.schedOf d c).askers with
    | some (_, w) => w.mapSched d c fun m => { m with askers := [] }
    | none => w.noteAsker (.schedule d c)
  else w

/-- The Amendment Unit asks for a merge of a (day, class): it joins a WAITING MERGE or asks the schedule (R86, R131). -/
def Works.askMerge (w : Works) (ch : Fin 4) (d c : Nat) : Works :=
  match w.packer.waitingMerge d c with
  | some i => w.mapItem i.id fun i => { i with askers := addNew ch i.askers }
  | none => (w.mapSched d c fun m => { m with askers := addNew ch m.askers }).task (.mergeTest d c)

/-- Every blocked (day, class) of a day unblocked (R88). -/
def Works.unblock (w : Works) (d : Nat) : Works :=
  let classes := (List.range 8).filter fun c => decide (0 < (w.packer.schedOf d c).held)
  (classes.foldl (fun w c => w.mapSched d c fun m => { m with held := 0, rearm := none }) w).addTasks
    (classes.map fun c => Task.mergeTest d c)

/-! ## Retirement lists (R33, R82) -/

/-- The ranges of the entries of one run that `gone` names: consecutive entries make one range. -/
def rangesOfRun (cls : Nat) (gone : Entry → Bool) : Option KeyRange → List Entry → List KeyRange
  | acc, [] => acc.toList
  | acc, e :: l =>
    if gone e then
      rangesOfRun cls gone (some ⟨cls, (acc.map (·.first)).getD e.first, e.last⟩) l
    else acc.toList ++ rangesOfRun cls gone none l

/-- The retirement list of the entries of a day that `gone` names, by class and first key. -/
def DayEntry.rangesOf (e : DayEntry) (gone : Nat → Entry → Bool) : List KeyRange :=
  e.runs.flatMap fun r => rangesOfRun r.cls (gone r.cls) none r.entries

/-- The list of some sheets of a day. -/
def DayEntry.sheetRanges (e : DayEntry) (l : List SheetRef) : List KeyRange :=
  e.rangesOf fun c s => l.any fun r => decide (r.cls = c) && decide (r.first = s.first)

/-- The order of sheets by class and first key. -/
def refLt (a b : SheetRef) : Bool := decide (a.cls < b.cls) || (decide (a.cls = b.cls) && a.first.lt b.first)

/-- The longest prefix of the sheets, in order of class and first key, whose list is within both limits (R82). -/
def DayEntry.retirePrefix (e : DayEntry) (l : List SheetRef) : List SheetRef :=
  let sorted := sortBy refLt l
  let fits := (List.range (sorted.length + 1)).filter fun n => rangesFit (e.sheetRanges (sorted.take n))
  sorted.take (fits.getLast?.getD 0)

/-! ## The tests of an item (R78) -/

/-- Whether the Pending Amendment Set names the day and an account within a span. -/
def Works.pendingIn (w : Works) (d : Nat) (first last : Key) : Bool :=
  w.amend.pending.any fun p => decide (p.id.day = d) && spans first last p.id.account

/-- The current entry that holds an APPLY entry's record: that of its class which covers its key (R89). -/
def Works.applyEntry (w : Works) (d : Nat) (a : ApplyEntry) : Option Entry :=
  coveringEntry (((w.liveDay d).map fun e => e.runEntries a.cls).getD []) a.key

/-- The sheets of an APPLY that lose every record: those all of whose records its VOID entries name (R82). -/
def Works.applyRanges (w : Works) (d : Nat) (l : List ApplyEntry) : List KeyRange :=
  let voids := l.filter fun a => decide (a.change = .void)
  let named (c : Nat) (s : Entry) : Nat :=
    voids.countP fun a => decide (a.cls = c) && (w.applyEntry d a).any fun e => decide (e.first = s.first)
  match w.liveDay d with
  | none => []
  | some e => e.rangesOf fun c s => decide (s.totals.count = (named c s : Int))

/-- The index of the first APPLY entry whose record lies in a QUARANTINED entry: of several, the lowest is named (R139; DESIGN CHOICE,
notes/assumptions/68.md). -/
def Works.applyQuarantined (w : Works) (d : Nat) : Nat → List ApplyEntry → Option Nat
  | _, [] => none
  | n, a :: l => if (w.applyEntry d a).any (·.quarantined) then some n else w.applyQuarantined d (n + 1) l

/-- What the tests of R78 leave of an item. -/
inductive Tested where
  | go
  | drop
  deriving DecidableEq, Repr

/-- The entries of a channel's batch leave the Pending Amendment Set. -/
def Works.dropPending (w : Works) (ch : Fin 4) : Works :=
  { w with amend := { w.amend with pending := w.amend.pending.filter fun p => decide (p.ch ≠ ch) } }

/-- An item dropped: it leaves the queue, its askers are told and a scan is made. -/
def Works.dropItem (x : Ctx) (w : Works) (i : Item) : Works :=
  let w := (w.itemLeaves i.id).task .scan
  match i.work with
  | .merge c =>
    let n := (w.intake.lateOf i.day c).length
    let w := w.mapSched i.day c fun m => { m with held := n, rearm := none }
    w.addTasks (i.askers.map (fun ch => Task.mergeTold ch) ++ [.mergeTest i.day c])
  | .restore f _ _ => w.restoreFailed x f
  | _ => w

/-- The tests of R78 on an item considered: what it leaves, and the part after withdrawals or a drop. A dropped APPLY's entries leave the
Pending Amendment Set in the drop itself (R139); a TRIM whose one sheet is withdrawn is dropped (DESIGN CHOICE,
notes/assumptions/47.md). -/
def Works.testItem (x : Ctx) (w : Works) (i : Item) : Tested × Works :=
  match i.work with
  | .closeRun _ => (.go, w)
  | .merge c => if (w.mergeable i.day c).1 = [] then (.drop, w.dropItem x i) else (.go, w)
  | .apply ch l =>
    match w.applyQuarantined i.day 0 l with
    | some n => (.drop, ((w.dropPending ch).task (.applyDropped ch .quarantined n)).dropItem x i)
    | none =>
      if rangesFit (w.applyRanges i.day l) then (.go, w)
      else (.drop, ((w.dropPending ch).task (.applyDropped ch .tooLarge l.length)).dropItem x i)
  | .trim r _ =>
    match w.current r with
    | none => (.drop, (w.dropItem x i).task (.reported r .undecided))
    | some e =>
      if e.quarantined then (.drop, (w.dropItem x i).task (.reported r .undecided))
      else if w.pendingIn r.day e.first e.last then (.drop, (w.dropItem x i).task (.reported r .pending))
      else (.go, w)
  | .retire l =>
    let lost := l.filter fun r => (w.current r).isNone
    let pend := l.filter fun r => (w.current r).any fun e => w.pendingIn r.day e.first e.last
    let keep := l.filter fun r => !(lost.contains r) && !(pend.contains r)
    let w := w.addTasks (lost.map (fun r => Task.reported r .undecided) ++ pend.map fun r => Task.reported r .pending)
    let w := w.mapItem i.id fun i => { i with work := .retire keep }
    if keep = [] then (.drop, w.dropItem x i) else (.go, w)
  | .restore f cls first =>
    match w.file f with
    | none => (.drop, w.dropItem x i)
    | some g =>
      let good := match packSheets g.restoreSet with
        | [s] => g.target.any fun t => decide (s.head?.map (·.key) = some t.first) && decide (s.getLast?.map (·.key) = some t.last)
        | _ => false
      if (w.entryAt i.day cls first).any (·.quarantined) && good then (.go, w) else (.drop, w.dropItem x i)

/-! ## The take of a group (R77, R79) -/

/-- A group of the Packer. -/
def Works.group (w : Works) (id : Nat) : Option Group := w.packer.groups.find? fun g => decide (g.id = id)

/-- A group changed. -/
def Works.mapGroup (w : Works) (id : Nat) (f : Group → Group) : Works :=
  { w with packer := { w.packer with groups := updateWhere (fun g => decide (g.id = id)) f w.packer.groups } }

/-- What a group takes: its claims with whether QUARANTINED sheets may be claimed, its reads, its late records, its sheets to retire
and its retirement list. -/
structure Take where
  claims : List (Nat × Entry)
  any : Bool
  reads : List GroupRead
  merging : List (LateRec × MergeOutcome)
  heldBack : Nat
  retiring : List SheetRef
  ranges : List KeyRange
  served : List Nat
  deriving DecidableEq, Repr

/-- The reads of a MERGE: its covering entries and the other entries of its records' accounts (R87). -/
def Works.mergeTake (w : Works) (d c : Nat) : Take :=
  let (late, heldBack) := w.mergeable d c
  let run := ((w.liveDay d).map fun e => e.runEntries c).getD []
  let cover := (late.filterMap fun r => coveringEntry run r.call.key).eraseDups
  let others := late.flatMap fun r => (w.accountEntries d r.call.account).map fun p => p.2.ref d p.1
  let refs := (cover.map (fun e => e.ref d c) ++ others).eraseDups
  { claims := cover.map fun e => (c, e), any := false, reads := refs.map fun r => ⟨r, none⟩,
    merging := late.map fun r => (r, .inserted), heldBack := heldBack, retiring := [], ranges := [], served := [] }

/-- The take of an APPLY: a current entry is served by a pinned image of its group number, and else read (R89). -/
def Works.applyTake (w : Works) (d : Nat) (l : List ApplyEntry) : Take :=
  let pairs := l.filterMap fun a => (w.applyEntry d a).map fun e => (a, e)
  let entries := (pairs.map fun p => (p.1.cls, p.2)).eraseDups
  let pin (p : Nat × Entry) : Option Nat :=
    (pairs.find? fun q => decide (q.1.cls = p.1) && decide (q.2 = p.2) && decide (q.1.group = p.2.group)).map fun q => q.1.pin
  { claims := entries, any := false, reads := entries.map fun p => ⟨p.2.ref d p.1, (pin p).map w.pinned⟩, merging := [], heldBack := 0,
    retiring := [], ranges := w.applyRanges d l, served := entries.filterMap pin }

/-- What an item takes (R76). -/
def Works.takeOf (w : Works) (i : Item) : Take :=
  let none : Take := ⟨[], false, [], [], 0, [], [], []⟩
  match i.work with
  | .closeRun _ => none
  | .merge c => w.mergeTake i.day c
  | .apply _ l => w.applyTake i.day l
  | .trim r _ => { none with claims := ((w.current r).map fun e => (r.cls, e)).toList, reads := [⟨r, Option.none⟩] }
  | .retire l =>
    match w.liveDay i.day with
    | Option.none => none
    | some d =>
      let l := d.retirePrefix l
      { none with
          claims := l.filterMap fun r => (w.current r).map fun e => (r.cls, e), any := true, retiring := l,
          ranges := d.sheetRanges l }
  | .restore _ cls first => { none with claims := ((w.entryAt i.day cls first).map fun e => (cls, e)).toList, any := true }

/-- No amounts. -/
def Amounts.zero : Amounts := ⟨.zero, .zero, .zero, .zero, .zero, .zero⟩

/-- A group's reads are asked; with none outstanding it goes on to PACKING (R80). -/
def Works.groupReads (w : Works) (id : Nat) : Works :=
  match w.group id with
  | none => w
  | some g =>
    if g.phase ≠ .reading then w
    else if g.reads.all fun r => r.image.isSome then w.mapGroup id fun g => { g with phase := .packing }
    else w

/-- A group begun with its claims granted (R79). -/
def Works.beginGroup (w : Works) (i : Item) (t : Take) : Works :=
  match w.day i.day with
  | none => w
  | some d =>
    let (n, w) := w.next
    let g : Group :=
      { id := n, item := i.id, day := i.day, number := d.group + 1, phase := .reading,
        claimed := t.claims.map fun p => (p.1, p.2.first), reads := t.reads, merging := t.merging, heldBack := t.heldBack,
        todo := [], current := none, coalescing := none, packed := [], outputs := [], posted := 0, retiring := t.retiring,
        ranges := t.ranges, amounts := .zero }
    let w := t.served.foldl (fun w n => w.touch n) w
    let w := t.claims.foldl (fun w p => w.claim i.day p.1 p.2.first (.item i.id)) w
    let w := (w.mapDay i.day fun e => { e with inProgress := some (i.id, i.work.kind) }).mapItem i.id fun i => { i with inGroup := true }
    let w := { w with packer := { w.packer with groups := w.packer.groups ++ [g] } }
    let w := (g.reads.filter fun r => r.image.isNone).foldl (fun w r =>
      match w.current r.ref with
      | some e => w.askRead e.slot (.group n r.ref)
      | none => w) w
    w.groupReads n

/-- One scan of the queue: each WAITING item that can begin a group is taken; `held` are the days whose earlier item was passed over
for a cause other than busy sheets (R77). -/
def Works.scanItems (x : Ctx) (held : List Nat) (w : Works) : List Nat → Works
  | [] => w
  | id :: l =>
    match w.item id with
    | none => w.scanItems x held l
    | some i =>
      if i.inGroup then w.scanItems x held l
      else if Config.groups ≤ w.packer.groups.length then w
      else if i.channelWait.isSome || held.contains i.day || !((w.day i.day).any (·.grantsGroup)) then
        w.scanItems x (addNew i.day held) l
      else match w.testItem x i with
        | (.drop, w) => w.scanItems x held l
        | (.go, w) =>
          match w.item id with
          | none => w.scanItems x held l
          | some i =>
            let t := w.takeOf i
            if t.claims.all fun p => p.2.grants (.item i.id) t.any then (w.beginGroup i t).scanItems x held l
            else w.scanItems x held l

/-- A scan (R77). -/
def Works.scan (x : Ctx) (w : Works) : Works := w.scanItems x [] (w.packer.queue.map (·.id))

/-! ## Forming the new sheets (R81, R87, R89) -/

/-- The records of a sheet the group has read. -/
def Group.image (g : Group) (r : SheetRef) : List Rec :=
  ((g.reads.find? fun q => decide (q.ref = r)).bind (·.image)).getD []

/-- The claimed entries of a run in stretches of consecutive entries. -/
def stretchesOf (claimed : Entry → Bool) : List Entry → List Entry → List (List Entry)
  | acc, [] => if acc = [] then [] else [acc]
  | acc, e :: l =>
    if claimed e then stretchesOf claimed (acc ++ [e]) l
    else if acc = [] then stretchesOf claimed [] l else acc :: stretchesOf claimed [] l

/-- The stretches of a day's claimed entries, class by class. -/
def DayEntry.stretches (d : DayEntry) (claimed : List (Nat × Key)) : List (Nat × List Entry) :=
  d.runs.flatMap fun r => (stretchesOf (fun e => claimed.contains (r.cls, e.first)) [] r.entries).map fun l => (r.cls, l)

/-- A record after the changes that name it; none when it is voided. -/
def applyChange (l : List ApplyEntry) (r : Rec) : Option Rec :=
  match l.find? fun a => decide (a.id = r.identity) with
  | none => some r
  | some a =>
    match a.change with
    | .void => none
    | .correct dur charge tariff => some (r.corrected dur charge tariff)

/-- What forming the sequences of a group gives: its stretches, its late records' outcomes and its amounts. -/
structure Formed where
  stretches : List Stretch
  merging : List (LateRec × MergeOutcome)
  amounts : Amounts
  deriving DecidableEq, Repr

/-- A late record's outcome against the sheeted records of its identity (R87). -/
def mergeOutcome (sheeted : List Rec) (r : LateRec) : MergeOutcome :=
  match sheeted.find? fun s => decide (s.identity = r.call.identity) with
  | none => .inserted
  | some s => if sameCall s r.call then .duplicate else .conflict

/-- A MERGE's sequences. -/
def formMerge (d : DayEntry) (g : Group) (c : Nat) : Formed :=
  let sheeted := g.reads.flatMap fun r => r.image.getD []
  let merging := g.merging.map fun p => (p.1, mergeOutcome sheeted p.1)
  let ins := (merging.filter fun p => decide (p.2 = .inserted)).map fun p => p.1.call
  let out := (merging.filter fun p => decide (p.2 ≠ .inserted)).map fun p => p.1.call
  let run := d.runEntries c
  let here (l : List Entry) (r : Rec) : Bool := (coveringEntry run r.key).any fun e => l.contains e
  let old := (d.stretches g.claimed).map fun p =>
    (⟨p.1, p.2.map (·.first), sortBy recLt (p.2.flatMap (fun e => g.image (e.ref g.day p.1)) ++ ins.filter (here p.2))⟩ : Stretch)
  let fresh : List Stretch := if run = [] ∧ ins ≠ [] then [⟨c, [], sortBy recLt ins⟩] else []
  ⟨old ++ fresh, merging, { Amounts.zero with inserted := recTotals ins, dropped := recTotals out }⟩

/-- The correction delta of a record changed. -/
def corrDelta (a b : Rec) : Triple := ⟨0, (b.dur : Int) - a.dur, (b.charge : Int) - a.charge⟩

/-- An APPLY's sequences. -/
def formApply (d : DayEntry) (g : Group) (l : List ApplyEntry) : Formed :=
  let sheets := (d.stretches g.claimed).map fun p => (p, p.2.flatMap fun e => g.image (e.ref g.day p.1))
  let recs := sheets.flatMap (·.2)
  let changed := recs.filterMap fun r => (applyChange l r).map fun r' => (r, r')
  let gone := recs.filter fun r => decide (applyChange l r = none)
  ⟨sheets.map fun p => ⟨p.1.1, p.1.2.map (·.first), p.2.filterMap (applyChange l)⟩, [],
    { Amounts.zero with corr := Triple.sum (changed.map fun p => corrDelta p.1 p.2), voided := recTotals gone }⟩

/-- The sequences of a group by its item's kind (R81). -/
def Works.form (w : Works) (d : DayEntry) (g : Group) (work : Work) : Formed :=
  match work with
  | .closeRun c =>
    let recs := (w.intake.set g.day c).map (·.call)
    ⟨[⟨c, [], recs⟩], [], { Amounts.zero with packed := recTotals recs }⟩
  | .merge c => formMerge d g c
  | .apply _ l => formApply d g l
  | .trim r keep =>
    let recs := g.image r
    let kept := recs.filter fun s => keep.contains s.account
    let gone := recs.filter fun s => !(keep.contains s.account)
    ⟨[⟨r.cls, [r.first], kept⟩], [], { Amounts.zero with retired := recTotals gone }⟩
  | .retire _ =>
    let t := Triple.sum (g.retiring.filterMap fun r => (d.entry r.cls r.first).map (·.totals))
    ⟨[], [], { Amounts.zero with retired := t }⟩
  | .restore f cls first =>
    ⟨[⟨cls, [first], ((w.file f).map (·.restoreSet)).getD []⟩], [], .zero⟩

/-- Whether an item's kind tests coalescing (R81). -/
def Work.coalesces : Work → Bool
  | .merge _ => true
  | .apply _ _ => true
  | .trim _ _ => true
  | _ => false

/-- The retirement list of a group whose record sequences are formed: a TRIM that keeps no record enters its sheet's range (R24, R82). -/
def DayEntry.formedRanges (d : DayEntry) (g : Group) (work : Work) (l : List Stretch) : List KeyRange :=
  match work with
  | .trim r _ => if l.all fun s => decide (s.recs = []) then d.sheetRanges [r] else g.ranges
  | _ => g.ranges

/-- PACKING begun: the record sequences are formed (R81). -/
def Works.beginPacking (w : Works) (id : Nat) : Works :=
  match w.group id with
  | none => w
  | some g =>
    match w.day g.day, w.item g.item with
    | some d, some i =>
      let f := w.form d g i.work
      (w.mapGroup id fun g =>
        { g with todo := f.stretches, merging := f.merging, amounts := f.amounts,
                 ranges := d.formedRanges g i.work f.stretches }).task (.packStep id)
    | _, _ => w

/-- The right-hand neighbour of a stretch: the next sheet of its run (R25). -/
def DayEntry.neighbour (d : DayEntry) (p : Packed) : Option Entry :=
  match p.olds.getLast? with
  | none => none
  | some k => (d.runEntries p.cls).find? fun e => k.lt e.first

/-- Whether the last output sheet of a stretch is below 1016 bytes. -/
def Packed.small (p : Packed) : Bool := (p.sheets.getLast?).any fun s => decide (bodyLength s < Config.smallBody)

/-- The output sheets of the packed stretches with their index values (R26). -/
def outputsOf (day number : Nat) : Nat → List Packed → List Output
  | _, [] => []
  | n, p :: l =>
    (p.sheets.map fun s =>
      (⟨n, ((s.head?).map (·.key)).getD .zero, ((s.getLast?).map (·.key)).getD .zero, recTotals s, bodyLength s,
        dataImage day p.cls number s, none⟩ : Output)) ++ outputsOf day number (n + 1) l

/-- The next output image of a group handed to the posting queue (R83). -/
def Works.postNext (w : Works) (id : Nat) : Works :=
  match w.group id with
  | none => w
  | some g =>
    match g.outputs[g.posted]? with
    | some o => w.post o.image .data (.output id g.posted)
    | none => w

/-- The SUMMARY of a group whose output sheets are all LIVE formed and posted (R83). -/
def Works.toSummary (w : Works) (id : Nat) : Works :=
  match w.group id with
  | none => w
  | some g =>
    if g.phase ≠ .posting ∨ g.outputs.any fun o => o.slot.isNone then w
    else match w.day g.day with
      | none => w
      | some d =>
        let s := (d.count g.amounts).summarise false g.ranges
        (w.mapGroup id fun g => { g with phase := .summary }).post (summaryImage g.day g.number s) .summary (.summary id)

/-- PACKING ended: the output images are formed, and POSTING begins (R81, R83). -/
def Works.beginPosting (w : Works) (id : Nat) : Works :=
  let out (g : Group) : Group := { g with phase := .posting, outputs := outputsOf g.day g.number 0 g.packed }
  ((w.mapGroup id out).postNext id).toSummary id

/-- A packed stretch that stands. -/
def Group.stand (g : Group) (p : Packed) : Group := { g with current := none, coalescing := none, packed := g.packed ++ [p] }

/-- One step of PACKING: the next stretch packed, or the last output sheet of a packed one tested for coalescing (R25). -/
def Works.packStep (w : Works) (id : Nat) : Works :=
  match w.group id with
  | none => w
  | some g =>
    if g.phase ≠ .packing ∨ g.coalescing.isSome then w
    else match g.current with
      | none =>
        match g.todo with
        | [] => w.beginPosting id
        | s :: l =>
          (w.mapGroup id fun g => { g with todo := l, current := some ⟨s.cls, s.olds, packSheets s.recs⟩ }).task (.packStep id)
      | some p =>
        let joins := ((w.item g.item).any fun i => i.work.coalesces) && p.small
        match (w.day g.day).bind fun d => if joins then d.neighbour p else none with
        | none => (w.mapGroup id fun g => g.stand p).task (.packStep id)
        | some e =>
          if e.quarantined || e.busy.isSome then (w.mapGroup id fun g => g.stand p).task (.packStep id)
          else
            let r := e.ref g.day p.cls
            let w := w.claim g.day p.cls e.first (.item g.item)
            (w.mapGroup id fun g => { g with coalescing := some r, claimed := g.claimed ++ [(p.cls, e.first)] }).askRead e.slot
              (.neighbour id r)

/-- The neighbour's image read: joined if one sheet holds both, else released (R25). -/
def Works.coalesce (x : Ctx) (w : Works) (id : Nat) (recs : List Rec) : Works :=
  match w.group id with
  | none => w
  | some g =>
    match g.current, g.coalescing with
    | some p, some r =>
      let both := (p.sheets.getLast?.getD []) ++ recs
      if bodyLength both ≤ Config.bodyMax ∧ both.length ≤ Config.sheetRecords then
        (w.mapGroup id fun g =>
          { g with coalescing := none,
                   current := some { p with olds := p.olds ++ [r.first], sheets := p.sheets.dropLast ++ [both] } }).task
          (.packStep id)
      else
        let w := w.releaseItem x g.day g.item [(r.cls, r.first)]
        (w.mapGroup id fun g =>
          { (g.stand p) with claimed := g.claimed.filter fun q => decide (q ≠ (r.cls, r.first)) }).task (.packStep id)
    | _, _ => w

/-! ## Abort (R85) -/

/-- The slots that the aborted group's sheets have reached. -/
def Works.reachedSlots (w : Works) (g : Group) : List SlotAddr :=
  let writing := w.array.posting.filterMap fun p => if p.poster.group = some g.id then p.slot else none
  (g.outputs.filterMap (·.slot) ++ writing).eraseDups

/-- A group's images withdrawn: those WAITING_POST leave, those WRITING become orphans. -/
def ArrayCtl.withdraw (a : ArrayCtl) (id : Nat) : ArrayCtl :=
  let mine (p : Post) : Bool := decide (p.poster.group = some id)
  { a with offered := a.offered.filter fun p => !mine p,
           posting := updateWhere mine (fun p => { p with orphan := true }) (a.posting.filter fun p => !(mine p && p.slot.isNone)) }

/-- A group aborted: `mc` is the OFFLINE channel its item waits for, `lost` the slots a channel fault took from it. -/
def Works.abort (x : Ctx) (w : Works) (id : Nat) (mc : Option (Fin 4)) (lost : List SlotAddr) : Works :=
  match w.group id with
  | none => w
  | some g =>
    let slots := (w.reachedSlots g ++ lost).eraseDups
    let w := { w with array := w.array.withdraw id }
    let w := w.mapDay g.day fun d => { d with owed := d.owed + slots.length, inProgress := none }
    let w := { w with packer := { w.packer with groups := w.packer.groups.filter fun h => decide (h.id ≠ id) } }
    let w := w.mapItem g.item fun i => { i with inGroup := false, channelWait := mc }
    let w := slots.foldl (fun w s => w.voidMark s (.day g.day)) w
    ((w.releaseItem x g.day g.item g.claimed).takeIn).addTasks [.auditDrained g.day, .scan]

/-! ## Answers of the Array Controller (R80, R83) -/

/-- The answer to a read of a group's sheet. A MEDIA answer makes the item wait for the OFFLINE channel that gave it, also where the sheet
has since been relocated to another. -/
def Works.groupAnswer (x : Ctx) (w : Works) (id : Nat) (r : SheetRef) (a : ReadAnswer) : Works :=
  match w.group id with
  | none => w
  | some g =>
    if g.phase ≠ .reading ∨ !(g.reads.any fun q => decide (q.ref = r) && q.image.isNone) then w
    else match a with
      | .image b _ =>
        let got (q : GroupRead) : GroupRead := { q with image := some (imageRecs b) }
        (w.mapGroup id fun g => { g with reads := updateWhere (fun q => decide (q.ref = r)) got g.reads }).groupReads id
      | .failed => w.abort x id none []
      | .media mc => w.abort x id (some mc) []
      | .gone =>
        match w.current r with
        | some e => w.askRead e.slot (.group id r)
        | none => (w.mapGroup id fun g => { g with reads := g.reads.filter fun q => decide (q.ref ≠ r) }).groupReads id

/-- The answer to the read of a coalescing neighbour (R80). -/
def Works.neighbourAnswer (x : Ctx) (w : Works) (id : Nat) (r : SheetRef) (a : ReadAnswer) : Works :=
  match w.group id with
  | none => w
  | some g =>
    if g.coalescing ≠ some r then w
    else match a with
      | .image b _ => w.coalesce x id (imageRecs b)
      | .failed => w.abort x id none []
      | .media mc => w.abort x id (some mc) []
      | .gone =>
        match w.current r with
        | some e => w.askRead e.slot (.neighbour id r)
        | none => w.abort x id none []

/-- An output sheet admitted to the posting queue: the next is handed over. -/
def Works.outputAdmitted (w : Works) (id n : Nat) : Works :=
  (w.mapGroup id fun g => { g with posted := n + 1 }).postNext id

/-- An output sheet LIVE at its slot (R83). -/
def Works.outputLive (w : Works) (id n : Nat) (s : SlotAddr) : Works :=
  let live (g : Group) : Group :=
    { g with outputs := match g.outputs[n]? with | some o => g.outputs.set n { o with slot := some s } | none => g.outputs }
  (w.mapGroup id live).toSummary id

/-! ## Completion (R48, R67, R84) -/

/-- An index entry of an output sheet. -/
def Output.entry (o : Output) (group : Nat) : Entry :=
  ⟨o.first, o.last, o.totals, o.bodyLen, o.slot.getD ⟨0, 0⟩, group, false, none, false⟩

/-- A run's entries with some replaced by new ones, in key order. -/
def replaceEntries (olds : List Key) (news l : List Entry) : List Entry :=
  sortBy (fun a b => a.first.lt b.first) ((l.filter fun e => !(olds.contains e.first)) ++ news)

/-- A day's runs with the entries of class `c` replaced; a run is created where none stands, and an empty one removed. -/
def replaceInRuns (c : Nat) (olds : List Key) (news : List Entry) (runs : List Run) : List Run :=
  let all := if runs.any fun r => decide (r.cls = c) then runs
    else insertBy (fun a b => decide (a.cls < b.cls)) ⟨c, .live, []⟩ runs
  let one (r : Run) : Run := { r with entries := replaceEntries olds news r.entries }
  (updateWhere (fun r => decide (r.cls = c)) one all).filter fun r => decide (r.entries ≠ [])

/-- The index changes of a group: each stretch replaced and each retired entry removed (R48 steps 1 to 3). -/
def DayEntry.reindex (d : DayEntry) (g : Group) : DayEntry :=
  let new (n : Nat) : List Entry := (g.outputs.filter fun o => decide (o.stretch = n)).map fun o => o.entry g.number
  let runs := (g.packed.zipIdx).foldl (fun runs p => replaceInRuns p.1.cls p.1.olds (new p.2) runs) d.runs
  { d with runs := g.retiring.foldl (fun runs r => replaceInRuns r.cls [r.first] [] runs) runs }

/-- The entries a group supersedes or retires. -/
def DayEntry.leaving (d : DayEntry) (g : Group) : List (Nat × Entry) :=
  (g.packed.flatMap fun p => p.olds.filterMap fun k => (d.entry p.cls k).map fun e => (p.cls, e)) ++
    g.retiring.filterMap fun r => (d.entry r.cls r.first).map fun e => (r.cls, e)

/-- What the Intake Unit does at a group's completion (R67). -/
def Works.intakeCompletes (x : Ctx) (w : Works) (g : Group) (work : Work) : Works :=
  match work with
  | .closeRun c =>
    let l := w.intake.set g.day c
    let w := { w with intake := { w.intake with staging := tblDrop (stagingKey g.day c) w.intake.staging } }
    l.foldl (fun w r => w.settleRecord x r.file none) w
  | .merge _ =>
    let gone := g.merging.map (·.1)
    let w := { w with intake := { w.intake with late := w.intake.late.filter fun r => !(gone.contains r) } }
    g.merging.foldl (fun w p => w.settleRecord x p.1.file (match p.2 with
      | .inserted => none
      | .duplicate => some .lateDuplicate
      | .conflict => some .lateConflict)) w
  | .restore f _ _ =>
    let n := ((w.file f).map fun f => f.restoreSet.length).getD 0
    let w := w.mapFile f fun f => { f with restoreSet := [] }
    (List.range n).foldl (fun w _ => w.settleRecord x f none) w
  | _ => w

/-- The gate tested after records have left, and waiting parcels going on (R64). -/
def Works.gateTest (w : Works) : Works := ({ w with intake := w.intake.testGate }).rewait

/-- What an item's askers are told at its completion (R84, R86, R88). An asker for whom no MERGE could be queued is told at the completion
that empties the pair's Late List (DESIGN CHOICE, notes/assumptions/55.md). -/
def Works.reportDone (w : Works) (g : Group) (i : Item) (left : List (Nat × Entry)) : Works :=
  match i.work with
  | .merge c =>
    let empty := decide (w.intake.lateOf g.day c = [])
    let others := if empty then (w.packer.schedOf g.day c).askers else []
    let w := w.mapSched g.day c fun m =>
      { m with held := if empty then 0 else g.heldBack, rearm := none, askers := if empty then [] else m.askers }
    w.addTasks ((i.askers ++ others).map (fun ch => Task.mergeTold ch) ++ [.mergeTest g.day c])
  | .apply ch _ => w.task (.committed ch g.number)
  | .trim r _ => w.task (.trimmedDone r g.amounts.retired.count.toNat)
  | .retire _ => w.task (.retiredDone (left.map fun p => (p.2.ref g.day p.1, p.2.quarantined)))
  | _ => w

/-- An item whose group has completed leaves the queue; a RETIRE with sheets left over returns to WAITING (R82). -/
def Works.itemCompletes (w : Works) (g : Group) (i : Item) : Works :=
  match i.work with
  | .retire l =>
    let rest := l.filter fun r => !(g.retiring.contains r)
    if rest = [] then w.itemLeaves i.id else w.mapItem i.id fun i => { i with work := .retire rest, inGroup := false }
  | _ => w.itemLeaves i.id

/-- Whether a day's state moves on at a CLOSE_RUN's completion (R39, R48 step 7). -/
def DayEntry.classClosed (d : DayEntry) (c : Nat) : DayEntry :=
  let awaiting := d.awaiting.filter (· ≠ c)
  { d with awaiting := awaiting, state := if awaiting = [] ∧ d.state = .closing then .closed else d.state }

/-- The classes of the runs that a completion has removed. -/
def DayEntry.runsGone (before after : DayEntry) : List Nat :=
  (before.runs.map (·.cls)).filter fun c => (after.run c).isNone

/-- The releases of a completion made known: the marks of the entries it superseded left the index with them (R43). -/
def releasesTold (g : Group) (left : List (Nat × Entry)) : List Task :=
  (left.filter fun p => decide (p.2.busy = some (.item g.item))).map fun p => .released g.day p.1 p.2.first

/-- The group whose summary is LIVE at `s` completes (R48, R84). -/
def Works.complete (x : Ctx) (w : Works) (id : Nat) (s : SlotAddr) : Works :=
  match w.group id with
  | none => w
  | some g =>
    match w.day g.day, w.item g.item with
    | some d, some i =>
      let left := d.leaving g
      let slots := left.map (fun p => p.2.slot) ++ d.summary.toList
      let d' := (d.reindex g).count g.amounts
      let d' := { d' with group := g.number, inProgress := none, owed := slots.length, summary := some s }
      let d' : DayEntry := match i.work with | .closeRun c => d'.classClosed c | _ => d'
      let w := { w with days := tblPut g.day d' w.days,
                        packer := { w.packer with groups := w.packer.groups.filter fun h => decide (h.id ≠ id) } }
      let w := w.releaseItem x g.day g.item g.claimed
      let w := (w.intakeCompletes x g i.work).gateTest
      let w := w.reportDone g i left
      let removes := match i.work with | .retire _ => true | .restore _ _ _ => true | _ => false
      let w := if removes && left.any (fun p => p.2.quarantined) then w.unblock g.day else w
      let w := if d.state ≠ .closed ∧ d'.state = .closed then w.testMerges g.day else w
      let w := slots.foldl (fun w a => w.voidMark a (.day g.day)) w
      (w.itemCompletes g i).addTasks
        ((d.runsGone d').map (fun c => Task.runRemoved g.day c) ++ releasesTold g left ++ [.auditDrained g.day, .scan])
    | _, _ => w

end Sys2Proof.Machine
end

