-- ==== Sys2Proof/Machine/EnquiryOps.lean ====
section
/-!
DEFINITION. The operations of the Enquiry Unit (R109 to R124): the items of a cursor, the steps of a read, prefetch, and the lookup
of one record.
-/

namespace Sys2Proof.Machine

/-! ## Cursors -/

/-- A cursor. -/
def Works.cursor (w : Works) (n : Nat) : Cursor := w.enquiry.cursors.getD n .free

/-- A cursor set. -/
def Works.setCursor (w : Works) (n : Nat) (c : Cursor) : Works :=
  { w with enquiry := { w.enquiry with cursors := w.enquiry.cursors.set n c } }

/-- A cursor's prefetch released: a READY image's pin goes; a FETCHING read is left to release its own (R120, R121). -/
def Works.dropPrefetch (w : Works) (n : Nat) : Works :=
  let c := w.cursor n
  let w := match c.prefetch with
    | .ready _ pin _ => w.unpin pin
    | _ => w
  w.setCursor n { c with prefetch := .none }

/-- A cursor made FREE, its generation kept (R109, R122). -/
def Works.freeCursor (w : Works) (n : Nat) : Works :=
  let w := w.dropPrefetch n
  w.setCursor n { Cursor.free with generation := (w.cursor n).generation }

/-- Whether a handle names a cursor that is not FREE. -/
def Works.handle (w : Works) (n generation : Nat) : Bool := (w.cursor n).opened && decide ((w.cursor n).generation = generation)

/-! ## Items (R110, R111) -/

/-- Whether a service passes a filter. -/
def passes (filter : Option (List Service)) (r : Rec) : Bool := filter.all fun l => l.contains r.service

/-- The place of a record (R110). -/
def recPlace (r : Rec) : Place := ⟨dayOf r.start, r.key, false, r.cls⟩

/-- An image a read holds of the sheet a reference names. -/
def heldImage (images : List HeldImage) (r : SheetRef) : Option (List Rec) :=
  (images.find? fun i => decide (i.ref = r)).map (·.recs)

/-- What a read sees of one day: its known items, and the LIVE entries whose images it does not hold. -/
structure DayView where
  items : List (Place × EnquiryItem)
  unread : List (SheetRef × Entry)
  deriving DecidableEq, Repr

/-- A day as a read sees it (R110): images held count only for entries the index still names. -/
def Works.dayView (w : Works) (c : Cursor) (rd : Reading) (d : Nat) : DayView :=
  let entries := (w.accountEntries d c.account).map fun p => (p.2.ref d p.1, p.2)
  let gone (p : SheetRef × Entry) : Bool := p.2.quarantined || rd.failed.contains p.1
  let gaps := (entries.filter fun p => gone p && !(rd.gaps.contains p.1)).map fun p =>
    ((⟨d, p.1.first, true, p.1.cls⟩ : Place), EnquiryItem.gap p.1)
  let live := entries.filter fun p => !gone p
  let sheeted := live.flatMap fun p => ((heldImage rd.images p.1).getD []).filter fun r => decide (r.account = c.account)
  let staged := ((List.range 8).flatMap fun k => (w.intake.set d k).map (·.call)).filter fun r => decide (r.account = c.account)
  let late := (w.intake.late.filter fun l => decide (dayOf l.call.start = d)).map (·.call)
  let shown := late.filter fun r => decide (r.account = c.account) && !(sheeted.any fun s => decide (s.identity = r.identity))
  let item (isLate : Bool) (r : Rec) : Place × EnquiryItem := (recPlace r, .record r isLate)
  { items := gaps ++ ((sheeted ++ staged).filter (passes c.filter)).map (item false) ++
      (shown.filter (passes c.filter)).map (item true),
    unread := live.filter fun p => (heldImage rd.images p.1).isNone }

/-! ## Finding an item (R112) -/

/-- What a step's search finds: no item, an item at a place, or that it needs a sheet, with the place at which that sheet's records
may next stand. -/
inductive Find where
  | none
  | item (p : Place) (i : EnquiryItem)
  | need (r : SheetRef) (e : Entry) (p : Place)
  deriving DecidableEq, Repr

/-- The greater of two keys. -/
def Key.max (a b : Key) : Key := if a.lt b then b else a

/-- The lesser of two keys. -/
def Key.min (a b : Key) : Key := if a.lt b then a else b

/-- The first possible key of an account in a day. -/
def accountLow (account d : Nat) : Key := ⟨account, Config.daySeconds * d, 0, 0⟩

/-- The last possible key of an account in a day. -/
def accountHigh (account d : Nat) : Key := ⟨account, Config.daySeconds * d + Config.daySeconds - 1, 4095, 2 ^ 48 - 1⟩

/-- The least of some elements by an order, the first of equals. -/
def least {α : Type} (lt : α → α → Bool) : List α → Option α
  | [] => none
  | a :: l => match least lt l with
    | none => some a
    | some b => if lt b a then some b else some a

/-- Whether a candidate is a late record, which an unread sheet of the day may hide (R110). -/
def isLate : Option (Place × EnquiryItem) → Bool
  | some (_, .record _ true) => true
  | _ => false

/-- What a day's search comes to once no sheet that may hold a nearer item is unread: the candidate, unless it is a late record that an
unread sheet of the day may hide wherever that sheet lies (R110). -/
def settleFind (v : DayView) : Option (Place × EnquiryItem) → Find
  | none => .none
  | some q =>
    match if isLate (some q) then v.unread.head? else none with
    | some u => .need u.1 u.2 q.1
    | none => .item q.1 q.2

/-- The key that follows `k` in key order. -/
def Key.next (k : Key) : Key :=
  if k.seq < 2 ^ 48 - 1 then { k with seq := k.seq + 1 }
  else if k.switch < 4095 then { k with switch := k.switch + 1, seq := 0 }
  else { k with start := k.start + 1, switch := 0, seq := 0 }

/-- The key before `k` in key order among the keys of its account; none is before the first, which it leaves above `k`. -/
def Key.prev (k : Key) : Key :=
  if 0 < k.seq then { k with seq := k.seq - 1 }
  else if 0 < k.switch then { k with switch := k.switch - 1, seq := 2 ^ 48 - 1 }
  else { k with start := k.start - 1, switch := 4095, seq := 2 ^ 48 - 1 }

/-- Whether a search from a place (`beyond`: strictly beyond it) may come to the place `p`. -/
def reaches (ahead : Bool) (from_ : Option (Place × Bool)) (p : Place) : Bool :=
  match from_ with
  | some (q, beyond) => if ahead then (if beyond then q.lt p else !p.lt q) else if beyond then p.lt q else !q.lt p
  | none => true

/-- The first item of a day at or after (`beyond`: strictly after) a place, or of the whole day; `standing` are the GAPs that count as
standing at the place. A sheet is needed from the first place it may give that the search reaches: at the key of the place itself only
where its class comes after the place's. -/
def findUp (v : DayView) (standing : List (Place × EnquiryItem)) (account d : Nat) (from_ : Option (Place × Bool)) : Find :=
  let ok := reaches true from_
  let cand := least (fun a b => a.1.lt b.1) (standing ++ v.items.filter fun p => ok p.1)
  let bound := ((from_.map fun q => q.1.key).getD Key.zero).max (accountLow account d)
  let lower (u : SheetRef × Entry) : Place :=
    let p : Place := ⟨d, bound.max u.1.first, false, u.1.cls⟩
    if ok p then p else { p with key := p.key.next }
  let needed := v.unread.filter fun u =>
    !u.2.last.lt (lower u).key && !(accountHigh account d).lt (lower u).key && match cand with | some q => !q.1.lt (lower u) | none => true
  match least (fun a b => (lower a).lt (lower b)) needed with
  | some u =>
    .need u.1 u.2 (lower u)
  | none => settleFind v cand

/-- The last item of a day at or before (`beyond`: strictly before) a place, or of the whole day. -/
def findDown (v : DayView) (account d : Nat) (from_ : Option (Place × Bool)) : Find :=
  let ok := reaches false from_
  let cand := least (fun a b => b.1.lt a.1) (v.items.filter fun p => ok p.1)
  let bound := (accountHigh account d).min ((from_.map fun q => q.1.key).getD (accountHigh account d))
  let upper (u : SheetRef × Entry) : Place :=
    let p : Place := ⟨d, bound.min u.2.last, false, u.1.cls⟩
    if ok p then p else { p with key := p.key.prev }
  let needed := v.unread.filter fun u =>
    ok (upper u) && !(upper u).key.lt u.2.first && !(upper u).key.lt (accountLow account d) &&
      match cand with | some q => !(upper u).lt q.1 | none => true
  match least (fun a b => (upper b).lt (upper a)) needed with
  | some u =>
    .need u.1 u.2 (upper u)
  | none => settleFind v cand

/-- The GAPs of a day that count as standing at a position: those whose range contains its key (R111). They stand before a RECORD at that
key. A search strictly beyond a record's place meets those the read has not shown whose range goes on beyond that key, at the next key:
a sheet over the record just used may become unreadable before the next item is found, and neither it nor the record is then met twice
(DESIGN CHOICE, notes/assumptions/21.md). -/
def Works.standing (w : Works) (v : DayView) (q : Place) (beyond : Bool) : List (Place × EnquiryItem) :=
  let past := beyond && !q.gap
  let key := if past then q.key.next else q.key
  v.items.filterMap fun p =>
    match p.2 with
    | .gap r =>
      let g : Place := ⟨q.day, key, true, p.1.cls⟩
      if p.1.key.lt q.key ∧ (w.entryAt r.day r.cls r.first).any (fun e => !e.last.lt key) ∧
          (!past || !(accountHigh q.key.account q.day).lt key) then
        some (if beyond ∧ !q.lt g then q else g, p.2)
      else none
    | _ => none

/-- The days of a cursor's range that have an entry that is not GOING, ascending. -/
def Works.cursorDays (w : Works) (c : Cursor) : List Nat :=
  (w.days.filter fun p => !p.2.going && decide (c.fromDay ≤ p.1) && decide (p.1 ≤ c.toDay)).map (·.1)

/-- The first day of the list that gives an item or needs a sheet. -/
def firstFind (f : Nat → Find) : List Nat → Find
  | [] => .none
  | d :: l => match f d with
    | .none => firstFind f l
    | r => r

/-- Item 0 of a search, or the item before it (R112). -/
def Works.find (w : Works) (c : Cursor) (rd : Reading) (forward : Bool) (s : SearchFrom) : Find :=
  let days := w.cursorDays c
  let up (q : Option Place) (d : Nat) : Find :=
    let v := w.dayView c rd d
    match q with
    | some q =>
      if q.day = d then
        findUp v (w.standing v q s.beyond) c.account d (some (q, s.beyond))
      else findUp v [] c.account d none
    | none => findUp v [] c.account d none
  let down (q : Option Place) (d : Nat) : Find :=
    let v := w.dayView c rd d
    match q with
    | some q => findDown v c.account d (if q.day = d then some (q, s.beyond) else none)
    | none => findDown v c.account d none
  if forward then
    match s.position with
    | .beforeFirst => firstFind (up none) days
    | .place q => firstFind (up (some q)) (days.filter fun d => decide (q.day ≤ d))
    | .afterLast => .none
  else
    match s.position with
    | .beforeFirst => .none
    | .place q => firstFind (down (some q)) (days.filter fun d => decide (d ≤ q.day)).reverse
    | .afterLast => firstFind (down none) days.reverse

/-! ## Reads (R114 to R119) -/

/-- Whether a read searches forward. -/
def ReadMode.ahead : ReadMode → Bool
  | .forward => true
  | .skipForward => true
  | .backward => false
  | .peek k => decide (0 ≤ k)

/-- Whether a read leaves the position and the prefetch as they are. -/
def ReadMode.peeks : ReadMode → Bool
  | .peek _ => true
  | _ => false

/-- Items a PEEK passes over before the one it returns. -/
def ReadMode.passed : ReadMode → Nat
  | .peek k => if 0 ≤ k then k.toNat else (-k).toNat - 1
  | _ => 0

/-- The GAPs a read has shown once it has passed an item. -/
def Reading.shown (rd : Reading) (i : EnquiryItem) : Reading :=
  match i with
  | .gap r => { rd with gaps := rd.gaps ++ [r] }
  | .record _ _ => rd

/-- The item reached by passing `k` items of a search, all of them found in one event (R112). -/
def Works.findNth (w : Works) (c : Cursor) (forward : Bool) : Nat → Reading → SearchFrom → Find
  | 0, rd, s => w.find c rd forward s
  | k + 1, rd, s =>
    match w.find c rd forward s with
    | .item p i => w.findNth c forward k (rd.shown i) ⟨.place p, true⟩
    | f => f

/-- The item a step needs: a PEEK's is numbered from the position at every step (R112, R117). -/
def Works.findStep (w : Works) (c : Cursor) (rd : Reading) : Find := w.findNth c rd.mode.ahead rd.mode.passed rd rd.search

/-- A read taken: the cursor enters READING (R114). -/
def Cursor.beginRead (c : Cursor) (req : Nat) (mode : ReadMode) (n : Nat) : Cursor :=
  let beyond := match mode with
    | .backward => !c.meetsBack
    | .peek k => decide (k < 0)
    | _ => false
  let rd : Reading :=
    { req := req, mode := mode, n := n, used := 0, images := [], failed := [], gaps := [], search := ⟨c.position, beyond⟩,
      skip := decide (mode = .skipForward), advancing := false, heldPlace := none, wait := .none }
  { c with reading := some rd }

/-- The prefetch target after a read (R120). The next day that has an entry is the next with an index entry of the account, be it
QUARANTINED or cached (DESIGN CHOICE, notes/assumptions/76.md). -/
def Works.prefetchTarget (w : Works) (c : Cursor) (rd : Reading) (p : Place) : Option (SheetRef × SlotAddr) :=
  let ofDay (d : Nat) : List (SheetRef × Entry) := (w.accountEntries d c.account).map fun q => (q.2.ref d q.1, q.2)
  let good (q : SheetRef × Entry) : Bool :=
    !q.2.quarantined && (heldImage rd.images q.1).isNone && (w.array.cached q.2.slot).isNone
  let pick (l : List (SheetRef × Entry)) : Option (SheetRef × Entry) :=
    if rd.mode.ahead then least (fun a b => a.2.first.lt b.2.first) l else least (fun a b => b.2.last.lt a.2.last) l
  let here := (ofDay p.day).filter fun q => good q && if rd.mode.ahead then !q.2.first.lt p.key else q.2.last.lt p.key
  match pick here with
  | some q => some (q.1, q.2.slot)
  | none =>
    let days := w.cursorDays c
    let on := if rd.mode.ahead then days.filter fun d => decide (p.day < d) else (days.filter fun d => decide (d < p.day)).reverse
    match on.find? fun d => decide (ofDay d ≠ []) with
    | some d => (pick ((ofDay d).filter good)).map fun q => (q.1, q.2.slot)
    | none => none

/-- Whether a prefetch holds a target. -/
def Prefetch.holds (p : Prefetch) (t : SheetRef) : Bool :=
  match p with
  | .none => false
  | .fetching u _ => decide (u = t)
  | .ready u _ _ => decide (u = t)

/-- The prefetch started anew after a read that left the cursor at a place (R120). -/
def Works.prefetch (x : Ctx) (w : Works) (n : Nat) (rd : Reading) : Works :=
  let c := w.cursor n
  let target := match c.position with
    | .place p => if x.set.hold = 0 then none else w.prefetchTarget c rd p
    | _ => none
  match target with
  | none => w.dropPrefetch n
  | some (t, slot) =>
    if c.prefetch.holds t then w
    else
      let (k, w) := (w.dropPrefetch n).next
      (w.setCursor n { w.cursor n with prefetch := .fetching t k }).askRead slot (.prefetch ⟨n % 16, Nat.mod_lt _ (by decide)⟩ k)

/-- A read ended (R119): `position` is the new position, `items` what was written. A read REFUSED leaves the prefetch as it was
(DESIGN CHOICE, notes/assumptions/57.md). -/
def Works.endRead (x : Ctx) (w : Works) (n : Nat) (v : Verdict) (reason : Option Reason) (position : Position) (meetsBack endMark : Bool) :
    Works :=
  let c := w.cursor n
  match c.reading with
  | none => w
  | some rd =>
    let c' := { c with position := position, meetsBack := meetsBack, reading := none, lastUse := x.clock }
    let items := match rd.mode with | .peek _ => if v = .done ∧ !endMark then 1 else 0 | _ => rd.used
    let w := (w.setCursor n c').reply rd.req v reason (.read items position) endMark
    if rd.mode.peeks ∨ v = .refused then w
    else if endMark then w.dropPrefetch n
    else w.prefetch x n rd

/-- The items that a read in progress has written so far; a PEEK writes its item as it ends. -/
def Reading.written (rd : Reading) : Nat := if rd.mode.peeks then 0 else rd.used

/-- The position a read's end leaves: a PEEK keeps it. -/
def Reading.leaves (rd : Reading) (c : Cursor) (p : Position) : Position := if rd.mode.peeks then c.position else p

/-- The result buffer's bytes of an item (R119): PENDING where a PASS cursor meets a pending entry. -/
def itemBytes (i : EnquiryItem) (pending : Bool) : Bytes :=
  match i with
  | .record r _ => r.plain pending
  | .gap r => gapPlain r

/-- The pending entry of an item's identity. -/
def Works.pendingOf (w : Works) (i : EnquiryItem) : Option PendingEntry :=
  match i with
  | .record r _ => w.amend.pending.find? fun p => decide (p.id = r.identity)
  | .gap _ => none

/-- A read changed. -/
def Works.mapReading (w : Works) (n : Nat) (f : Reading → Reading) : Works :=
  let c := w.cursor n
  w.setCursor n { c with reading := c.reading.map f }

/-- The image of a needed sheet, whose records may next stand at place `p`: from the cursor's READY prefetch where its group number still
agrees, else asked of the Array Controller (R115, R120). A READY image of another group number is dropped, by a PEEK too (R117, R119;
DESIGN CHOICE, notes/assumptions/77.md). -/
def Works.needSheet (w : Works) (n : Nat) (rd : Reading) (r : SheetRef) (e : Entry) (p : Place) : Works :=
  let c := w.cursor n
  match c.prefetch with
  | .ready t pin _ =>
    if t = r then (w.touch pin).mapReading n fun rd => { rd with images := rd.images ++ [⟨r, w.pinned pin⟩] }
    else
      let w := if t.day = r.day ∧ t.cls = r.cls ∧ t.first = r.first then w.dropPrefetch n else w
      (w.mapReading n fun rd => { rd with heldPlace := some p, wait := .image r }).askRead e.slot (.cursor ⟨n % 16, Nat.mod_lt _ (by decide)⟩ rd.req r)
  | _ => (w.mapReading n fun rd => { rd with heldPlace := some p, wait := .image r }).askRead e.slot (.cursor ⟨n % 16, Nat.mod_lt _ (by decide)⟩ rd.req r)

/-- An item used: written to the buffer, or waited for while a WAIT cursor meets its pending entry (R118, R119). A forward read then looks
for the item it advances to; a BACKWARD read stands at the item used, and looks on only once it has used n (R116, R117). -/
def Works.useItem (x : Ctx) (w : Works) (n : Nat) (c : Cursor) (rd : Reading) (p : Place) (i : EnquiryItem) : Works × Option (Nat × Bytes) :=
  match w.pendingOf i, c.visibility with
  | some q, .wait =>
    (w.mapReading n fun rd => { rd with heldPlace := some p, wait := .pending q.id x.clock }, none)
  | q, _ =>
    let bytes := itemBytes i q.isSome
    let addr := ((w.req rd.req).map (·.addr)).getD 0
    let out := if w.heard rd.req then some (addr + if rd.mode.peeks then 0 else 64 * rd.used, bytes) else none
    if rd.mode.peeks then (w.endRead x n .done none c.position c.meetsBack false, out)
    else
      let back := decide (rd.mode = .backward)
      let c' := if back then { c with position := .place p, meetsBack := false } else c
      let rd' := { rd.shown i with used := rd.used + 1, search := ⟨.place p, true⟩,
                                   advancing := !back || decide (rd.n ≤ rd.used + 1) }
      (w.setCursor n { c' with reading := some rd' }, out)

/-- A step of a READING cursor that waits for nothing (R115 to R119): the part after it and what the result buffer takes. The advance to
the next item is a step of its own (DESIGN CHOICE, notes/assumptions/48.md), and so is a BACKWARD read's look for an earlier item after its
n items. That look asks no sheet: one that may still hold an item ends the read with END clear, as in the worked example of R117
(DEDUCED, notes/assumptions/72.md). -/
def Works.readStep (x : Ctx) (w : Works) (n : Nat) : Works × Option (Nat × Bytes) :=
  let c := w.cursor n
  match c.reading with
  | none => (w, none)
  | some rd =>
    if rd.wait ≠ .none then (w, none)
    else match w.findStep c rd with
      | .need r e p =>
        if rd.advancing && !rd.mode.ahead then (w.endRead x n .done none c.position false false, none)
        else (w.needSheet n rd r e p, none)
      | .none =>
        let at_ := if rd.mode.ahead then Position.afterLast else .beforeFirst
        (w.endRead x n .done none (rd.leaves c at_) (rd.mode.peeks && c.meetsBack) true, none)
      | .item p i =>
        if rd.advancing then
          if rd.mode.ahead then
            let w := w.setCursor n
              { c with position := .place p, meetsBack := false,
                       reading := some { rd with search := ⟨.place p, false⟩, advancing := false } }
            if rd.used < rd.n then (w, none) else (w.endRead x n .done none (.place p) false false, none)
          else (w.endRead x n .done none c.position false false, none)
        else if rd.skip then
          (w.mapReading n fun rd => { rd.shown i with skip := false, search := ⟨.place p, true⟩ }, none)
        else w.useItem x n c rd p i

/-- A WAIT step at the idle limit ends its read at the waiting item's place (R118). -/
def Works.waitEnds (x : Ctx) (w : Works) (n : Nat) : Works :=
  let c := w.cursor n
  match c.reading with
  | none => w
  | some rd =>
    let p := (rd.heldPlace.map Position.place).getD c.position
    w.endRead x n .partly (some .busy) (rd.leaves c p) (!rd.mode.peeks || c.meetsBack) false

/-- Of two places that may be absent, the one met first in a direction. -/
def nearest (ahead : Bool) (a b : Option Place) : Option Place :=
  match a, b with
  | some p, some q => some (if (if ahead then q.lt p else p.lt q) then q else p)
  | some p, none => some p
  | none, q => q

/-- A read whose image request was answered MEDIA ends at the place the sheet asked would next have given, or at that of a nearer item
(R119; DEDUCED, notes/assumptions/20.md); a forward read whose advance from its last item asked the sheet ends so
too (DESIGN CHOICE, notes/assumptions/49.md). -/
def Works.mediaEnds (x : Ctx) (w : Works) (n : Nat) : Works :=
  let c := w.cursor n
  match c.reading with
  | none => w
  | some rd =>
    if rd.used = 0 ∨ rd.mode.peeks then w.endRead x n .refused (some .media) c.position c.meetsBack false
    else
      let now := match w.findStep c rd with
        | .need _ _ p => some p
        | .item p _ => some p
        | .none => none
      let p := nearest rd.mode.ahead rd.heldPlace now
      w.endRead x n .partly (some .media) ((p.map Position.place).getD c.position) (!rd.mode.ahead) false

/-- The answer to a read's image request (R115). -/
def Works.cursorAnswer (x : Ctx) (w : Works) (n req : Nat) (r : SheetRef) (a : ReadAnswer) : Works :=
  match (w.cursor n).reading with
  | none => w
  | some rd =>
    if rd.req ≠ req ∨ rd.wait ≠ .image r then w
    else match a with
      | .image b _ => w.mapReading n fun rd => { rd with wait := .none, images := rd.images ++ [⟨r, imageRecs b⟩] }
      | .failed => w.mapReading n fun rd => { rd with wait := .none, failed := rd.failed ++ [r] }
      | .media _ => (w.mapReading n fun rd => { rd with wait := .none }).mediaEnds x n
      | .gone => w.mapReading n fun rd => { rd with wait := .none }

/-- The answer to a prefetch's pinned read (R120); one answered GONE leaves the prefetch NONE (DESIGN CHOICE,
notes/assumptions/50.md). -/
def Works.prefetchAnswer (x : Ctx) (w : Works) (n serial : Nat) (a : ReadAnswer) : Works :=
  let c := w.cursor n
  let mine := match c.prefetch with | .fetching t k => if k = serial then some t else none | _ => none
  match a, mine with
  | .image _ (some pin), some t => w.setCursor n { c with prefetch := .ready t pin x.clock }
  | .image _ (some pin), none => w.unpin pin
  | .image _ none, _ => w
  | _, some _ => w.setCursor n { c with prefetch := .none }
  | _, none => w

/-! ## Limits and timers (R118, R121, R122) -/

/-- The moment a cursor's WAIT step reaches the idle limit. -/
def Cursor.waitAt (x : Ctx) (c : Cursor) : Option Nat :=
  match c.reading with
  | some rd => match rd.wait with | .pending _ t => some (t + 1000 * x.set.idle) | _ => none
  | none => none

/-- The moment a READY image reaches the hold window. -/
def Cursor.holdAt (x : Ctx) (c : Cursor) : Option Nat :=
  match c.prefetch with
  | .ready _ _ t => some (t + 1000 * x.set.hold)
  | _ => none

/-- The moment an OPEN cursor expires. -/
def Cursor.idleAt (x : Ctx) (c : Cursor) : Option Nat :=
  if c.opened ∧ c.reading.isNone then some (c.lastUse + 1000 * x.set.idle) else none

/-! ## LOOKUP CALL (R123) -/

/-- A lookup changed. -/
def Works.mapLookup (w : Works) (req : Nat) (f : Lookup → Lookup) : Works :=
  { w with enquiry := { w.enquiry with lookups := updateWhere (fun l => decide (l.req = req)) f w.enquiry.lookups } }

/-- A lookup ended. -/
def Works.dropLookup (w : Works) (req : Nat) : Works :=
  { w with enquiry := { w.enquiry with lookups := w.enquiry.lookups.filter fun l => decide (l.req ≠ req) } }

/-- A lookup refused. -/
def Works.lookupRefused (w : Works) (req : Nat) (reason : Reason) (res : Result) : Works :=
  (w.dropLookup req).refuseWith req reason res

/-- A record found: returned, or waited for while a WAIT lookup meets its pending entry. -/
def Works.lookupFound (x : Ctx) (w : Works) (l : Lookup) (r : Rec) : Works :=
  let pend := w.amend.pending.any fun p => decide (p.id = l.id)
  if pend ∧ l.visibility = .wait then w.mapLookup l.req fun l => { l with wait := .pending l.id x.clock }
  else (w.dropLookup l.req).report l.req (r.plain pend) .empty

/-- A lookup taken, or taken afresh after a wait. -/
def Works.lookupStep (x : Ctx) (w : Works) (req : Nat) : Works :=
  match w.enquiry.lookups.find? fun l => decide (l.req = req) with
  | none => w
  | some l =>
    let w := w.mapLookup req fun l => { l with wait := .none }
    let d := l.id.day
    let has (rs : List Rec) : Option Rec := rs.find? fun r => decide (r.identity = l.id)
    if (w.liveDay d).isNone then w.lookupRefused req .notFound .empty
    else
      let entries := (w.accountEntries d l.id.account).map fun p => (p.2.ref d p.1, p.2)
      let gone := entries.filter fun p => p.2.quarantined || l.failed.contains p.1
      let live := entries.filter fun p => !(p.2.quarantined || l.failed.contains p.1)
      match has (live.flatMap fun p => (heldImage l.images p.1).getD []) with
      | some r => w.lookupFound x l r
      | none =>
        match live.find? fun p => (heldImage l.images p.1).isNone with
        | some p => (w.mapLookup req fun l => { l with wait := .image p.1 }).askRead p.2.slot (.lookup req p.1)
        | none =>
          match has ((List.range 8).flatMap fun k => (w.intake.set d k).map (·.call)) with
          | some r => w.lookupFound x l r
          | none =>
            match gone.head? with
            | some p => w.lookupRefused req .quarantined (.sheet d p.1.cls p.1.first)
            | none =>
              match has (w.intake.late.map (·.call)) with
              | some r => w.lookupFound x l r
              | none => w.lookupRefused req .notFound .empty

/-- The answer to a lookup's image request. -/
def Works.lookupAnswer (w : Works) (req : Nat) (r : SheetRef) (a : ReadAnswer) : Works :=
  match w.enquiry.lookups.find? fun l => decide (l.req = req) with
  | none => w
  | some l =>
    if l.wait ≠ .image r then w
    else match a with
      | .image b _ => (w.mapLookup req fun l => { l with images := l.images ++ [⟨r, imageRecs b⟩] }).task (.lookup req)
      | .failed => (w.mapLookup req fun l => { l with failed := l.failed ++ [r] }).task (.lookup req)
      | .media _ => w.lookupRefused req .media .empty
      | .gone => w.task (.lookup req)

/-- The moment a WAIT lookup reaches the idle limit. -/
def Lookup.waitAt (x : Ctx) (l : Lookup) : Option Nat :=
  match l.wait with
  | .pending _ t => some (t + 1000 * x.set.idle)
  | _ => none

/-- Pending entries have left the set: reads and lookups that waited for one that has gone are taken afresh (R118). -/
def Works.enquiriesGoOn (w : Works) : Works :=
  let still (id : Identity) : Bool := w.amend.pending.any fun p => decide (p.id = id)
  let free (t : EnquiryWait) : EnquiryWait := match t with | .pending id s => if still id then .pending id s else .none | t => t
  let cursors := w.enquiry.cursors.map fun (c : Cursor) =>
    { c with reading := c.reading.map fun (rd : Reading) => { rd with wait := free rd.wait } }
  let waiting (l : Lookup) : Bool := match l.wait with | .pending id _ => !still id | _ => false
  let again : List Task := (w.enquiry.lookups.filter waiting).map fun (l : Lookup) => .lookup l.req
  { w with enquiry := { w.enquiry with cursors := cursors } }.addTasks again

/-! ## Effects of a TUNE, and resets (R118, R121, R122, R124) -/

/-- The cursor numbers. -/
def cursorNumbers : List Nat := List.range 16

/-- A limit that the clock has reached. -/
def Ctx.reached (x : Ctx) (t : Option Nat) : Bool := t.any fun t => decide (t ≤ x.clock)

/-- A TUNE of the hold window: READY images older than the new window are dropped, and a window of 0 drops them all (R121). -/
def Works.holdTuned (x : Ctx) (w : Works) : Works :=
  cursorNumbers.foldl (fun w n => if decide (x.set.hold = 0) || x.reached ((w.cursor n).holdAt x) then w.dropPrefetch n else w) w

/-- A TUNE of the idle limit: WAIT steps and lookups that have waited for it end, and cursors idle for it are closed (R118, R122). -/
def Works.idleTuned (x : Ctx) (w : Works) : Works :=
  let w := cursorNumbers.foldl (fun w n => if x.reached ((w.cursor n).waitAt x) then w.waitEnds x n else w) w
  let w := w.enquiry.lookups.foldl (fun w l => if x.reached (l.waitAt x) then w.lookupRefused l.req .busy .empty else w) w
  cursorNumbers.foldl (fun w n => if x.reached ((w.cursor n).idleAt x) then w.freeCursor n else w) w

/-- READ CURSOR and LOOKUP CALL. -/
def Request.reads : Request → Bool
  | .readCursor _ _ _ _ _ => true
  | .lookupCall _ _ => true
  | _ => false

/-- A port reset's end of the reads and lookups in progress, taken by the Enquiry Unit or only handed to it (R167), and the close of
every cursor (R124). -/
def Works.enquiryReset (w : Works) : Works :=
  let w := cursorNumbers.foldl (fun w n => w.freeCursor n) w
  { w with port := { w.port with reqs := w.port.reqs.filter fun r => !r.request.reads },
           enquiry := { w.enquiry with lookups := [] } }

end Sys2Proof.Machine
end

