-- ==== Sys2Proof/Machine/AmendOps.lean ====
section
/-!
DEFINITION. The operations of the Amendment Unit (R125 to R140): collecting and closing a batch, finding its records, the placement
event, and a batch's commit, drop or refusal.
-/

namespace Sys2Proof.Machine

/-- A channel's batch. -/
def Works.batch (w : Works) (ch : Fin 4) : Batch := w.amend.batches.get ch

/-- A channel's batch set. -/
def Works.setBatch (w : Works) (ch : Fin 4) (b : Batch) : Works :=
  { w with amend := { w.amend with batches := w.amend.batches.set ch b } }

/-- The identity an entry names. -/
def AmendEntry.identity (e : AmendEntry) : Identity := ⟨e.day, e.account, e.switch, e.seq⟩

/-- The change an entry makes. -/
def AmendEntry.change (e : AmendEntry) : Change := if e.kind = 2 then .void else .correct e.dur e.charge e.tariff

/-! ## The close (R128) -/

/-- The position of the first element that satisfies `p`. -/
def firstIndex {α : Type} (p : α → Bool) : Nat → List α → Option Nat
  | _, [] => none
  | n, a :: l => if p a then some n else firstIndex p (n + 1) l

/-- The position of the first identity that stands earlier in the list. -/
def firstRepeat (seen : List Identity) : Nat → List Identity → Option Nat
  | _, [] => none
  | n, i :: l => if seen.contains i then some n else firstRepeat (seen ++ [i]) (n + 1) l

/-- Whether an identity lies in its ranges. -/
def AmendEntry.inRange (e : AmendEntry) : Bool :=
  decide (e.day ≤ Config.maxDay) && decide (1 ≤ e.account) && decide (e.account ≤ Config.maxAccount) && decide (e.switch ≤ 4095)

/-- The tests of a batch at its close: the first that fails, with the entry index it reports. -/
def Works.closeTest (w : Works) (net : Int) (l : List AmendEntry) : Option (Reason × Nat) :=
  let first (p : AmendEntry → Bool) : Option (Reason × Nat) := (firstIndex p 0 l).map fun n => (.malformed, n)
  let day := (l.head?.map (·.day)).getD 0
  if l = [] then some (.malformed, 0)
  else if net < -(2 ^ 41) ∨ 2 ^ 41 < net then some (.malformed, l.length)
  else (first fun e => decide (e.kind ≠ 1) && decide (e.kind ≠ 2))
    <|> (first fun e => !e.inRange)
    <|> (first fun e => decide (e.kind = 1) && (decide (1048575 < e.dur) || decide (2147483647 < e.charge)))
    <|> (first fun e => decide (e.day ≠ day))
    <|> ((firstRepeat [] 0 (l.map (·.identity))).map fun n => (.malformed, n))
    <|> (match w.liveDay day with
      | none => some (.notFound, 0)
      | some d => if d.state = .closed then none else some (.state, 0))

/-! ## Ends of a batch (R134, R138, R139) -/

/-- Every pin a batch holds released (R136). -/
def Works.releasePins (w : Works) (b : Batch) : Works :=
  let pins := b.entries.filterMap (fun e => e.found.map (·.pin)) ++ (b.hit.map (·.pin)).toList
  pins.foldl (fun w p => w.unpin p) w

/-- A batch ended: its pins are released and it becomes NONE; a read still outstanding for it is told apart by its number. -/
def Works.endBatch (w : Works) (ch : Fin 4) : Works :=
  let (n, w) := (w.releasePins (w.batch ch)).next
  w.setBatch ch { Batch.empty with serial := n }

/-- A batch refused: its closing request is answered with the reason and the entry index (R134). -/
def Works.refuseBatch (w : Works) (ch : Fin 4) (reason : Reason) (entry : Nat) : Works :=
  match (w.batch ch).closing with
  | some id => (w.endBatch ch).refuseWith id reason (.named entry)
  | none => w.endBatch ch

/-- The pending entries of a channel's batch leave the set, and the readers of R135 are told. -/
def Works.leavePending (w : Works) (ch : Fin 4) : Works :=
  let day := ((w.batch ch).day).getD 0
  (w.dropPending ch).task (.pendingLeft day)

/-- The net change of a batch (R133). -/
def Batch.netChange (b : Batch) : Int :=
  (b.entries.map fun e =>
    match e.found, e.given.change with
    | some f, .correct _ charge _ => (charge : Int) - f.call.charge
    | some f, .void => -(f.call.charge : Int)
    | none, _ => 0).sum

/-- A batch's APPLY group completed: it commits (R138). -/
def Works.commit (w : Works) (ch : Fin 4) (group : Nat) : Works :=
  let b := w.batch ch
  let w := (w.leavePending ch).endBatch ch
  match b.closing with
  | some id => w.done id (.committed b.entries.length (b.day.getD 0) group b.netChange)
  | none => w

/-- A batch's APPLY item dropped (R139). -/
def Works.dropBatch (w : Works) (ch : Fin 4) (reason : Reason) (entry : Nat) : Works :=
  (w.leavePending ch).refuseBatch ch reason entry

/-! ## The check (R130 to R132) -/

/-- The finding of entry `n` begun: no sheet is examined yet. -/
def Works.beginFinding (w : Works) (ch : Fin 4) (n : Nat) : Works :=
  let (k, w) := w.next
  (w.setBatch ch { w.batch ch with wait := .finding n none, examined := [], serial := k }).task (.find ch)

/-- The first entry not yet found, or the wait for the placement event. -/
def Works.findNext (w : Works) (ch : Fin 4) : Works :=
  match firstIndex (fun e : BatchEntry => e.found.isNone) 0 (w.batch ch).entries with
  | some n => w.beginFinding ch n
  | none => (w.setBatch ch { w.batch ch with wait := .placing }).task (.place ch)

/-- A hit whose sheet is no longer the one examined is dropped. -/
def Works.dropStaleHit (w : Works) (ch : Fin 4) : Works :=
  let b := w.batch ch
  match b.hit with
  | none => w
  | some f =>
    if (w.current f.ref).any fun e => !e.quarantined then w else (w.unpin f.pin).setBatch ch { b with hit := none }

/-- The finding of the entry under way, taken from its beginning (R130). -/
def Works.findEntry (w : Works) (ch : Fin 4) : Works :=
  let w := w.dropStaleHit ch
  let b := w.batch ch
  match b.state, b.wait with
  | .checking, .finding n none =>
    match b.entries[n]? with
    | none => w
    | some e =>
      let id := e.given.identity
      let d := id.day
      if (w.liveDay d).isNone then w.refuseBatch ch .notFound n
      else
        let entries := w.accountEntries d id.account
        let bad := entries.any fun p => p.2.quarantined
        match w.intake.late.find? fun l => decide (l.call.identity = id) with
        | some l =>
          if bad then w.refuseBatch ch .quarantined n
          else (w.setBatch ch { b with wait := .merge n d l.call.cls }).askMerge ch d l.call.cls
        | none =>
          match entries.find? fun p => !p.2.quarantined && !(b.examined.contains (p.2.ref d p.1)) with
          | some p =>
            let r := p.2.ref d p.1
            (w.setBatch ch { b with wait := .finding n (some r) }).askRead p.2.slot (.batch ch b.serial n r)
          | none =>
            match b.hit with
            | some f =>
              (w.setBatch ch { b with entries := b.entries.set n { e with found := some f }, hit := none }).findNext ch
            | none => if bad then w.refuseBatch ch .quarantined n else w.refuseBatch ch .notFound n
  | _, _ => w

/-- The answer to a finding's pinned read; one asked for an earlier finding releases its pin (R130, R134). -/
def Works.findAnswer (w : Works) (ch : Fin 4) (serial n : Nat) (r : SheetRef) (a : ReadAnswer) : Works :=
  let b := w.batch ch
  if b.serial ≠ serial ∨ b.wait ≠ .finding n (some r) then
    match a with
    | .image _ (some pin) => w.unpin pin
    | _ => w
  else
    let again := { b with wait := .finding n none, examined := b.examined ++ [r] }
    match a with
    | .image bytes (some pin) =>
      let id := ((b.entries[n]?).map (·.given.identity)).getD ⟨0, 0, 0, 0⟩
      match (imageRecs bytes).find? fun c => decide (c.identity = id) with
      | some c =>
        let w := match b.hit with | some f => w.unpin f.pin | none => w
        (w.setBatch ch { again with hit := some ⟨c, r, pin⟩ }).task (.find ch)
      | none => ((w.unpin pin).setBatch ch again).task (.find ch)
    | .image _ none => (w.setBatch ch again).task (.find ch)
    | .failed => w.refuseBatch ch .quarantined n
    | .media _ => w.refuseBatch ch .media n
    | .gone => (w.setBatch ch { b with wait := .finding n none }).task (.find ch)

/-- A batch told that the merge it waits for has ended, or was dropped, finds its entry afresh from the beginning (R131). -/
def Works.mergeTold (w : Works) (ch : Fin 4) : Works :=
  let b := w.batch ch
  match b.wait with
  | .merge n _ _ => (w.setBatch ch { b with wait := .finding n none }).task (.find ch)
  | _ => w

/-- The APPLY item of a placed batch asked of the Packer; a full queue leaves the batch waiting QUEUE (R137). -/
def Works.queueApply (w : Works) (ch : Fin 4) : Works :=
  let b := w.batch ch
  if b.state ≠ .applying ∨ b.item.isSome then w
  else
    let entries := b.entries.filterMap fun e => e.found.map fun f =>
      (⟨e.given.identity, e.given.change, f.call.cls, f.call.key, f.ref.group, f.pin⟩ : ApplyEntry)
    match w.pushItem (b.day.getD 0) (.apply ch entries) [] with
    | some (n, w) => w.setBatch ch { b with wait := .none, item := some n }
    | none => (w.setBatch ch { b with wait := .queue }).noteAsker (.batch ch)

/-- Whether a find is stale: its entry is no longer the one recorded, or is QUARANTINED (R132). -/
def Works.staleFind (w : Works) (e : BatchEntry) : Bool :=
  e.found.any fun f => !((w.current f.ref).any fun s => !s.quarantined)

/-- The placement event (R132). -/
def Works.place (w : Works) (ch : Fin 4) : Works :=
  let b := w.batch ch
  if b.state ≠ .checking ∨ b.wait ≠ .placing then w
  else if b.entries.any w.staleFind then
    let w' := (b.entries.filter w.staleFind).foldl (fun w e => match e.found with | some f => w.unpin f.pin | none => w) w
    (w'.setBatch ch { b with entries := updateWhere w.staleFind (fun e => { e with found := none }) b.entries }).findNext ch
  else if b.entries.any fun e => w.amend.pending.any fun p => decide (p.id = e.given.identity) then w
  else if some b.netChange ≠ b.net then w.refuseBatch ch .unbalanced b.entries.length
  else
    let pend := b.entries.zipIdx.filterMap fun p => p.1.found.map fun f =>
      (⟨p.1.given.identity, ch, p.2, p.1.given.change, f.call.cls, f.call.key⟩ : PendingEntry)
    let w := { w with amend := { w.amend with pending := w.amend.pending ++ pend } }
    (w.setBatch ch { b with state := .applying, wait := .queue }).queueApply ch

/-! ## The requests (R127 to R129) -/

/-- The batch after collecting entries. -/
def Batch.collect (b : Batch) (l : List AmendEntry) : Batch :=
  { b with state := if b.state = .none ∧ l = [] then .none else .collecting, entries := b.entries ++ l.map fun e => ⟨e, none⟩ }

/-- An AMEND's entries collected; none when the request has been refused (R127). -/
def Works.collect (w : Works) (r : Req) (l : List AmendEntry) : Except Works Batch :=
  let b := w.batch r.ch
  if Config.amendEntries < l.length then .error (w.refuse r.id .malformed)
  else if b.state = .checking ∨ b.state = .applying then .error (w.refuse r.id .busy)
  else if Config.batchEntries < b.entries.length + l.length then
    .error ((w.endBatch r.ch).refuseWith r.id .tooLarge (.named (Config.batchEntries - b.entries.length)))
  else .ok (b.collect l)

/-- AMEND without the close mark (R127). -/
def Works.amendCollect (w : Works) (r : Req) (l : List AmendEntry) : Works :=
  match w.collect r l with
  | .error w => w
  | .ok b => (w.setBatch r.ch b).done r.id (.entries b.entries.length)

/-- AMEND with the close mark (R128). -/
def Works.amendClose (w : Works) (r : Req) (net : Int) (l : List AmendEntry) : Works :=
  match w.collect r l with
  | .error w => w
  | .ok b =>
    let given := b.entries.map (·.given)
    let b := { b with net := some net, closing := some r.id }
    let w := (w.setBatch r.ch b).take r.id
    match w.closeTest net given with
    | some (reason, n) => w.refuseBatch r.ch reason n
    | none => (w.setBatch r.ch { b with state := .checking, day := given.head?.map (·.day) }).beginFinding r.ch 0

/-- ABANDON BATCH (R129). -/
def Works.abandonBatch (w : Works) (r : Req) : Works :=
  let b := w.batch r.ch
  match b.state with
  | .none => w.done r.id .empty
  | .collecting => (w.endBatch r.ch).done r.id (.entries b.entries.length)
  | _ => w.refuse r.id .state

/-- A port reset makes every COLLECTING batch NONE (R140). -/
def Works.amendReset (w : Works) : Works :=
  channels.foldl (fun w ch => if (w.batch ch).state = .collecting then w.endBatch ch else w) w

end Sys2Proof.Machine
end

