-- ==== Sys2Proof/Machine/RetentionOps.lean ====
section
/-!
DEFINITION. The operations of the Retention Unit (R143 to R157): the Hold Table and its ranges, hold requests, sweeps and the
removal of days (R49).
-/

namespace Sys2Proof.Machine

/-! ## The Hold Table (R147) -/

/-- A hold entry that still holds something. -/
def HoldEntry.alive (e : HoldEntry) : Bool := decide (0 < e.disputes) || e.reg.isSome

/-- An account's entry put in the table, or removed when it holds nothing. -/
def putHold (account : Nat) (e : HoldEntry) (t : Tbl HoldEntry) : Tbl HoldEntry :=
  if e.alive then tblPut account e t else tblDrop account t

/-- An account's entry, empty when the table has none. -/
def holdOf (account : Nat) (t : Tbl HoldEntry) : HoldEntry := (tblGet account t).getD ⟨0, none⟩

/-- Whether a release is accepted (R150). -/
def acceptsRelease (t : Tbl HoldEntry) (q : HoldReq) : Bool :=
  match q.kind with
  | .dispute => decide (0 < (holdOf q.account t).disputes)
  | .regulatory => (holdOf q.account t).reg.isSome

/-- The table after an accepted release. -/
def releaseHold (t : Tbl HoldEntry) (q : HoldReq) : Tbl HoldEntry :=
  let e := holdOf q.account t
  match q.kind with
  | .dispute => putHold q.account { e with disputes := e.disputes - 1 } t
  | .regulatory => putHold q.account { e with reg := none } t

/-- Retention changed. -/
def Works.mapRetention (w : Works) (f : Retention → Retention) : Works := { w with retention := f w.retention }

/-- An account in a range's span. -/
def HoldRange.has (r : HoldRange) (account : Nat) : Bool := decide (r.lo ≤ account) && decide (account ≤ r.hi)

/-- The range of an account. -/
def Retention.rangeOf (t : Retention) (account : Nat) : Option HoldRange := t.ranges.find? fun r => r.has account

/-- A range, by its lowest account, changed. -/
def Works.mapRange (w : Works) (lo : Nat) (f : HoldRange → HoldRange) : Works :=
  w.mapRetention fun t => { t with ranges := updateWhere (fun r => decide (r.lo = lo)) f t.ranges }

/-- The range whose rewrite has a serial number. -/
def Retention.rewriting (t : Retention) (serial : Nat) : Option HoldRange :=
  t.ranges.find? fun r => r.rewrite.any fun v => decide (v.serial = serial)

/-! ## Rewrites (R148) -/

/-- The accepted and the refused releases of a rewrite, taken in order against the table with those before applied (R150). -/
def settleReleases : Tbl HoldEntry → List HoldReq → List HoldReq × List HoldReq
  | _, [] => ([], [])
  | t, q :: l =>
    if q.place then let (a, b) := settleReleases t l; (q :: a, b)
    else if acceptsRelease t q then let (a, b) := settleReleases (releaseHold t q) l; (q :: a, b)
    else let (a, b) := settleReleases t l; (a, q :: b)

/-- The table with the accepted releases of some requests applied. -/
def applyReleases (t : Tbl HoldEntry) (l : List HoldReq) : Tbl HoldEntry :=
  l.foldl (fun t q => if q.place then t else releaseHold t q) t

/-- Entries divided, in account order, into `k` parts of `size` entries, the first `extra` of them one more. -/
def divide {α : Type} (size : Nat) : Nat → Nat → List α → List (List α)
  | 0, _, _ => []
  | k + 1, extra, l =>
    let n := if 0 < extra then size + 1 else size
    l.take n :: divide size k (extra - 1) (l.drop n)

/-- The parts of a range over its content (R148). -/
def partSpans (hi : Nat) : Nat → List (Tbl HoldEntry) → List HoldPart
  | _, [] => []
  | lo, [rows] => [⟨lo, hi, rows⟩]
  | lo, rows :: next :: l =>
    let begin := ((next.head?).map (·.1)).getD hi
    ⟨lo, begin - 1, rows⟩ :: partSpans hi begin (next :: l)

/-- The parts a rewrite posts. -/
def holdParts (lo hi : Nat) (rows : Tbl HoldEntry) : List HoldPart :=
  let n := rows.length
  let k := (n + Config.holdSheet - 1) / Config.holdSheet
  if n = 0 then [] else partSpans hi lo (divide (n / k) k (n % k) rows)

/-- The next part of a rewrite posted under the next generation. -/
def Works.postHold (w : Works) (lo serial : Nat) (p : HoldPart) : Works :=
  let g := w.retention.lastGeneration + 1
  let w := w.mapRetention fun t => { t with lastGeneration := g }
  (w.mapRange lo fun r => { r with rewrite := r.rewrite.map fun v => { v with posted := some (p.lo, p.hi, g) } }).post
    (holdImage p g) .hold (.hold serial)

/-- A rewrite of the range that begins at `lo` started, if it is IDLE and has work. -/
def Works.holdStart (w : Works) (lo : Nat) : Works :=
  match w.retention.ranges.find? fun r => decide (r.lo = lo) with
  | none => w
  | some r =>
    if r.rewrite.isSome ∨ (r.wait = [] ∧ !r.owed) then w
    else
      let (n, w) := w.next
      let (taken, refused) := settleReleases w.retention.holds r.wait
      let w := refused.foldl (fun w q => w.refuse q.req .state) w
      let rows := (applyReleases w.retention.holds taken).filter fun p => r.has p.1
      let parts := holdParts r.lo r.hi rows
      let v : Rewrite := ⟨n, taken, parts.tail, none, []⟩
      let w := w.mapRange lo fun r => { r with wait := [], owed := false, rewrite := some v }
      match parts with
      | p :: _ => w.postHold lo n p
      | [] =>
        match r.sheet with
        | some (s, _) => w.voidMark s (.holdEmpty n)
        | none => w.task (.holdEnd n)

/-- A rewrite's image LIVE: the next part is posted, or the rewrite ends. -/
def Works.holdLive (w : Works) (serial : Nat) (s : SlotAddr) : Works :=
  match w.retention.rewriting serial with
  | none => w
  | some r =>
    match r.rewrite with
    | none => w
    | some v =>
      match v.posted with
      | none => w
      | some (lo, hi, g) =>
        let v' := { v with sheets := v.sheets ++ [⟨lo, hi, s, g⟩], posted := none, parts := v.parts.tail }
        let w := w.mapRange r.lo fun r => { r with rewrite := some v' }
        match v.parts with
        | p :: _ => w.postHold r.lo serial p
        | [] => w.task (.holdEnd serial)

/-- The ranges a rewrite leaves: the range with its new sheet, or its parts; waiting requests pass to the part of their account. -/
def splitRange (r : HoldRange) (sheets : List HoldSheet) : List HoldRange :=
  let last := sheets.length - 1
  sheets.zipIdx.map fun p =>
    let lo := if p.2 = 0 then r.lo else p.1.lo
    let hi := if p.2 = last then r.hi else p.1.hi
    ⟨lo, hi, some (p.1.slot, p.1.generation), r.wait.filter (fun q => decide (lo ≤ q.account) && decide (q.account ≤ hi)), r.owed, none⟩

/-- An empty range joined to the one below it, or to the one above it if it is the lowest (R148). -/
def joinRange (r : HoldRange) : List HoldRange → List HoldRange
  | [] => []
  | [a] => [a]
  | a :: b :: l =>
    if a.lo = r.lo then { b with lo := a.lo, wait := b.wait ++ a.wait, owed := b.owed || a.owed } :: l
    else if b.lo = r.lo then { a with hi := b.hi, wait := a.wait ++ b.wait, owed := a.owed || b.owed } :: l
    else a :: joinRange r (b :: l)

/-- Whether a day still places an account (R149). -/
def Works.places (w : Works) (d account : Nat) : Bool :=
  let going (r : SheetRef) : Bool := w.packer.queue.any fun i =>
    match i.work with
    | .retire l => l.contains r
    | .trim s keep => decide (s = r) && !(keep.contains account)
    | _ => false
  (List.range 8).any (fun c => (w.intake.set d c).any fun r => decide (r.call.account = account)) ||
    w.intake.late.any (fun r => decide (dayOf r.call.start = d) && decide (r.call.account = account)) ||
    (w.accountEntries d account).any fun p => !going (p.2.ref d p.1)

/-- The earliest held day of an account. -/
def Works.earliestHeld (w : Works) (account : Nat) : Option Nat := (w.days.map (·.1)).find? fun d => w.places d account

/-- A hold request answered at the end of the rewrite that took it. -/
def Works.answerHold (w : Works) (q : HoldReq) : Works :=
  let e := tblGet q.account w.retention.holds
  w.done q.req (if q.place then .hold e (w.earliestHeld q.account) else .released e)

/-- A rewrite ended (R148). A range is left with no entries when it has written no sheet and the table holds no entry of it: a PLACE HOLD
taken meanwhile keeps the range apart (DEDUCED, notes/assumptions/33.md). The range's previous sheet is listed for a void mark: at its
present slot, which a relocation may have changed since the rewrite of an emptied range asked for the mark. -/
def Works.holdEnd (w : Works) (serial : Nat) : Works :=
  match w.retention.rewriting serial with
  | none => w
  | some r =>
    match r.rewrite with
    | none => w
    | some v =>
      let holds := applyReleases w.retention.holds v.taken
      let idle := { r with rewrite := none, sheet := if v.sheets = [] then none else r.sheet }
      let ranges := w.retention.ranges.flatMap fun a =>
        if a.lo = r.lo then if v.sheets = [] then [idle] else splitRange r v.sheets else [a]
      let bare := v.sheets.isEmpty && !(holds.any fun p => r.has p.1)
      let ranges := if bare then joinRange idle ranges else ranges
      let w := w.mapRetention fun t => { t with holds := holds, ranges := ranges }
      let w := match r.sheet with
        | some (s, _) => w.voidMark s .untold
        | none => w
      let w := v.taken.foldl (fun w q => w.answerHold q) w
      w.addTasks (ranges.map fun a => Task.holdStart a.lo)

/-- A hold request taken into the wait list of its account's range. -/
def Works.joinWait (w : Works) (q : HoldReq) : Works :=
  match w.retention.rangeOf q.account with
  | none => w
  | some r => (w.mapRange r.lo fun r => { r with wait := r.wait ++ [q] }).task (.holdStart r.lo)

/-- An account in its range (R1). -/
def accountValid (account : Nat) : Bool := decide (1 ≤ account) && decide (account ≤ Config.maxAccount)

/-- The kind of a hold's code (R187). -/
def HoldKind.ofCode : Nat → Option HoldKind
  | 1 => some .dispute
  | 2 => some .regulatory
  | _ => none

/-- Whether a PLACE HOLD's release day is refused (R149); 65 535 is an absent one. -/
def releaseBad (x : Ctx) (k : HoldKind) (release : Nat) : Bool :=
  if release = Config.absentDay then false
  else decide (k = .dispute) || decide (release ≤ x.today) || decide (Config.maxDay < release)

/-- An entry after a hold is placed on it (R149). -/
def HoldEntry.placed (e : HoldEntry) (x : Ctx) (k : HoldKind) (release : Nat) : HoldEntry :=
  match k with
  | .dispute => { e with disputes := e.disputes + 1 }
  | .regulatory =>
    let day := if release = Config.absentDay then none else some release
    { e with reg := some ⟨(e.reg.map (·.placed)).getD x.today, day⟩ }

/-- PLACE HOLD (R149). -/
def Works.placeHold (x : Ctx) (w : Works) (r : Req) (account kind release : Nat) : Works :=
  match HoldKind.ofCode kind with
  | none => w.refuse r.id .malformed
  | some k =>
    if !accountValid account || releaseBad x k release then w.refuse r.id .malformed
    else
      let e := tblGet account w.retention.holds
      if e.isNone ∧ Config.holdTable ≤ w.retention.holds.length then w.refuse r.id .tableFull
      else if k = .dispute ∧ 255 ≤ (e.getD ⟨0, none⟩).disputes then w.refuse r.id .state
      else
        let w := w.mapRetention fun t => { t with holds := putHold account ((e.getD ⟨0, none⟩).placed x k release) t.holds }
        (w.joinWait ⟨r.id, account, k, true⟩).take r.id

/-- RELEASE HOLD (R150). -/
def Works.releaseHoldReq (w : Works) (r : Req) (account kind : Nat) : Works :=
  match HoldKind.ofCode kind with
  | none => w.refuse r.id .malformed
  | some k =>
    if !accountValid account then w.refuse r.id .malformed else (w.joinWait ⟨r.id, account, k, false⟩).take r.id

/-- HOLD STATE (R152). -/
def Works.holdState (w : Works) (r : Req) (account : Nat) : Works :=
  if !accountValid account then w.refuse r.id .malformed
  else match w.retention.rangeOf account with
    | none => w.refuse r.id .malformed
    | some a =>
      w.done r.id (.holdState (tblGet account w.retention.holds) a.lo a.hi ((a.sheet.map (·.2)).getD 0) a.rewrite.isSome a.wait.length)

/-- Whether a regulatory hold's release day has come. -/
def HoldEntry.expired (e : HoldEntry) (today : Nat) : Bool :=
  (e.reg.bind (·.release)).any fun d => decide (d ≤ today)

/-- The automatic release at the day-roll event (R151). -/
def Works.autoRelease (w : Works) (today : Nat) : Works :=
  let due := (w.retention.holds.filter fun p => p.2.expired today).map (·.1)
  let holds := due.foldl (fun t a => putHold a { holdOf a t with reg := none } t) w.retention.holds
  let hit (r : HoldRange) : Bool := due.any r.has
  let w := w.mapRetention fun t =>
    { t with holds := holds, ranges := updateWhere hit (fun r => { r with owed := true }) t.ranges }
  w.addTasks ((w.retention.ranges.filter (·.owed)).map fun r => Task.holdStart r.lo)

/-! ## Removing a day (R49) -/

/-- Whether a day is removable at an offer. -/
def Works.removable (x : Ctx) (w : Works) (d : Nat) : Bool :=
  (w.day d).any fun e =>
    decide (e.state = .closed) && decide (e.runs = []) && decide (e.staged.count = 0) && decide (e.late.count = 0) && e.grantsGroup &&
      !(w.packer.queue.any fun i => decide (i.day = d)) && decide (d + x.set.closeLag < x.today)

/-- A sweep changed. -/
def Works.mapSweep (w : Works) (f : Sweep → Sweep) : Works := w.mapRetention fun t => { t with sweep := t.sweep.map f }

/-- A day offered for removal: a removable one becomes GOING and its day-gone summary is posted. -/
def Works.offerDay (x : Ctx) (w : Works) (d : Nat) : Works :=
  match w.day d with
  | none => w
  | some e =>
    if !w.removable x d then w
    else
      let w := w.mapDay d fun e => { e with going := true }
      let w := w.mapSweep fun s => { s with counts := { s.counts with daysRemoved := s.counts.daysRemoved + 1 } }
      w.post (summaryImage d (e.group + 1) (e.summarise true [])) .summary (.dayGone d)

/-- The day-gone summary LIVE: the day's previous summary is void-marked, or at once the day-gone one. A summary whose void mark is asked
is no longer named by the Catalogue, so that a relocation's copy of it is void-marked in its turn (R106). The removal's own two void
marks are not counted in the day's void marks owed, which stay 0 (R47; DESIGN CHOICE, notes/assumptions/73.md). -/
def Works.dayGoneLive (w : Works) (d : Nat) (s : SlotAddr) : Works :=
  match w.day d with
  | none => w
  | some e =>
    match e.summary with
    | some p => (w.mapDay d fun e => { e with summary := none, goneSlot := some s }).voidMark p (.gonePrevious d)
    | none => w.voidMark s (.goneSelf d)

/-- A step of a removal ended by a void mark (R49). -/
def Works.dayGoneMarked (w : Works) (d : Nat) (self : Bool) : Works :=
  if self then { w with days := tblDrop d w.days }.task (.dayLeft d)
  else match (w.day d).bind (·.goneSlot) with
    | some s => (w.mapDay d fun e => { e with goneSlot := none }).voidMark s (.goneSelf d)
    | none => w

/-! ## Sweeps (R153 to R157) -/

/-- The counts of a sweep at its start. -/
def SweepCounts.zero : SweepCounts := ⟨0, 0, 0, 0, 0, 0⟩

/-- A sweep at its start, with its snapshot. -/
def Sweep.start (today : Nat) (policies : List Policy) : Sweep :=
  { today := today, policies := policies, again := false, position := none, passed := false, openRetire := [], decided := [],
    revisit := [], visits := [], refusedItems := [], kept := [], counts := .zero }

/-- A sweep started, or the running one's again-flag set: whether it was set. -/
def Works.startSweep (x : Ctx) (w : Works) : Bool × Works :=
  match w.retention.sweep with
  | none => (false, w.mapRetention fun t => { t with sweep := some (.start x.today x.cfg.policies) })
  | some _ => (true, w.mapSweep fun s => { s with again := true })

/-- SWEEP (R153). -/
def Works.sweepReq (x : Ctx) (w : Works) (r : Req) : Works :=
  let (again, w) := w.startSweep x
  w.done r.id (.swept again)

/-- Whether a sweep still has work on a run: a sheet in the decided list, a revisit owed, and also a sheet on the open retire list or a
visit under way (DESIGN CHOICE, notes/assumptions/63.md). -/
def Sweep.unfinished (s : Sweep) (d c : Nat) : Bool :=
  let mine (r : SheetRef) : Bool := decide (r.day = d) && decide (r.cls = c)
  s.decided.any mine || s.openRetire.any mine || s.revisit.any (fun v => decide (v.day = d) && decide (v.cls = c)) ||
    s.visits.any fun v => decide (v.day = d) && decide (v.cls = c)

/-- Whether the walk has left a day. -/
def Sweep.leftDay (s : Sweep) (d : Nat) : Bool :=
  s.passed || s.position.any fun p => decide (d < p.day) || (decide (d = p.day) && p.left)

/-- A run looked at in the event in which some of its work has ended: a finished one becomes RESIDUAL, and a day whose last unfinished
run it was is offered if the walk has left it (R154). The end of the sweep is tested after it. -/
def Works.sweepCheck (x : Ctx) (w : Works) (d c : Nat) : Works :=
  match w.retention.sweep with
  | none => w
  | some s =>
    if s.unfinished d c then w
    else
      let expiring := ((w.day d).bind (·.run c)).any fun r => decide (r.state = .expiring)
      let w := if expiring then w.setRun d c .residual else w
      let w := if s.leftDay d ∧ (List.range 8).all (fun k => !s.unfinished d k) then w.offerDay x d else w
      w.task .sweepEnd

/-- A run that a group's completion has emptied: the sweep is done with it (R154). Its deferrals, its visit and its sheets not yet queued
leave the sweep; a sheet of a queued item stays in the decided list until the item is dropped. -/
def Works.sweepDoneWith (x : Ctx) (w : Works) (d c : Nat) : Works :=
  let other (e f : Nat) : Bool := !(decide (e = d) && decide (f = c))
  if w.retention.sweep.any fun s => s.unfinished d c then
    (w.mapSweep fun s =>
      { s with revisit := s.revisit.filter fun v => other v.day v.cls, visits := s.visits.filter fun v => other v.day v.cls,
               openRetire := s.openRetire.filter fun r => other r.day r.cls }).sweepCheck x d c
  else w

/-- An item of the sweep handed to the Packer; its sheets enter the decided list. An item refused for space is kept, and the sweep
pauses (R156). -/
def Works.sweepQueue (w : Works) (d : Nat) (work : Work) (sheets : List SheetRef) : Works :=
  let w := w.mapSweep fun s => { s with decided := s.decided ++ sheets }
  let paused := w.retention.sweep.any fun s => decide (s.refusedItems ≠ [])
  match if paused then none else w.pushItem d work [] with
  | some (_, w) => w
  | none => (w.mapSweep fun s => { s with refusedItems := s.refusedItems ++ [(d, work)] }).noteAsker .sweep

/-- Items that wait for queue space asked again in order. -/
def Works.sweepRetry (w : Works) : List (Nat × Work) → Works
  | [] => w
  | (d, work) :: l =>
    match w.pushItem d work [] with
    | some (_, w) => (w.mapSweep fun s => { s with refusedItems := s.refusedItems.tail }).sweepRetry l
    | none => w.noteAsker .sweep

/-- Free queue space reported: the sweep asks again and goes on once its items are queued. -/
def Works.sweepSpace (w : Works) : Works :=
  match w.retention.sweep with
  | none => w
  | some s =>
    let w := w.sweepRetry s.refusedItems
    if w.retention.sweep.any fun s => decide (s.refusedItems = []) then
      w.addTasks ((s.visits.filter fun v => !v.walk).map (fun v => Task.visit v.day v.cls) ++ [.sweepEnd])
    else w

/-- A deferral entered into the revisit set. -/
def Works.deferRun (w : Works) (d c : Nat) (cause : Cause) : Works :=
  w.mapSweep fun s => { s with revisit := addNew ⟨d, c, cause⟩ s.revisit }

/-- Accounts held at this event among a span. -/
def Works.heldIn (w : Works) (first last : Key) : Bool := w.retention.holds.any fun p => spans first last p.1

/-- A decision of R155. -/
inductive Decision where
  | decided
  | defer (cause : Cause)
  | keep
  | retire
  | trim (keep : List Nat)
  | read
  deriving DecidableEq, Repr

/-- The accounts of records, each once. -/
def accountsOf (l : List Rec) : List Nat := (l.map (·.account)).eraseDups

/-- The decision for an entry, with the image of its sheet if it has been read (R155). -/
def Works.judge (w : Works) (s : Sweep) (v : Visit) (e : Entry) (image : Option (List Rec)) : Decision :=
  let r := e.ref v.day v.cls
  if s.decided.contains r || s.openRetire.contains r || v.retire.contains r then .decided
  else if (w.day v.day).any (·.underAudit) then .defer .audit
  else if e.busy.isSome then .defer .busy
  else if w.pendingIn v.day e.first e.last then .defer .pending
  else if e.quarantined then if w.heldIn e.first e.last then .keep else .retire
  else if !w.heldIn e.first e.last then .retire
  else match image with
    | none => .read
    | some recs =>
      let all := accountsOf recs
      let k := all.filter fun a => (tblGet a w.retention.holds).isSome
      if k = [] then .retire else if k = all then .keep else .trim k

/-- A visit changed. -/
def Works.mapVisit (w : Works) (d c : Nat) (f : Visit → Visit) : Works :=
  w.mapSweep fun s => { s with visits := updateWhere (fun v => Decidable.decide (v.day = d) && Decidable.decide (v.cls = c)) f s.visits }

/-- The kept list after a decision on a sheet: the last decision counts (R157; DESIGN CHOICE, notes/assumptions/59.md). -/
def keptAfter (l : List (SheetRef × Bool)) (r : SheetRef) (keep : Option Bool) : List (SheetRef × Bool) :=
  let rest := l.filter fun p => Decidable.decide (p.1 ≠ r)
  match keep with
  | some q => rest ++ [(r, q)]
  | none => rest

/-- A decision carried out in a visit. -/
def Works.carryOut (w : Works) (v : Visit) (e : Entry) (x : Decision) : Works :=
  let r := e.ref v.day v.cls
  let unkeep (w : Works) : Works := w.mapSweep fun s => { s with kept := keptAfter s.kept r none }
  match x with
  | .decided => w
  | .defer cause => (unkeep w).deferRun v.day v.cls cause
  | .keep => w.mapSweep fun s => { s with kept := keptAfter s.kept r (some e.quarantined) }
  | .retire =>
    if v.walk then (unkeep w).mapSweep fun s => { s with openRetire := s.openRetire ++ [r] }
    else (unkeep w).mapVisit v.day v.cls fun v => { v with retire := v.retire ++ [r] }
  | .trim keep => (unkeep w).sweepQueue v.day (.trim r keep) [r]
  | .read => (w.mapVisit v.day v.cls fun v => { v with reading := some r }).askRead e.slot (.sweep r)

/-- A visit ended: a revisit's retirements are queued, one item for each run (DESIGN CHOICE, notes/assumptions/58.md), and a cause that
cleared meanwhile begins another. -/
def Works.endVisit (x : Ctx) (w : Works) (v : Visit) : Works :=
  let w := w.mapSweep fun s =>
    { s with visits := s.visits.filter fun u => !(Decidable.decide (u.day = v.day) && Decidable.decide (u.cls = v.cls)) }
  let w := if v.retire = [] then w else w.sweepQueue v.day (.retire v.retire) v.retire
  let again : Visit := ⟨v.day, v.cls, none, none, false, false, []⟩
  let w := if v.again then (w.mapSweep fun s => { s with visits := s.visits ++ [again] }).task (.visit v.day v.cls) else w
  w.sweepCheck x v.day v.cls

/-- The entry of a run that a visit decides next: the first of the run, as it stands at the decision, whose first key lies beyond the
one last decided (R154; DESIGN CHOICE, notes/assumptions/78.md). -/
def Works.nextEntry (w : Works) (v : Visit) : Option Entry :=
  let l := ((w.liveDay v.day).map fun e => e.runEntries v.cls).getD []
  l.find? fun e => match v.at_ with | none => true | some k => k.lt e.first

/-- One decision of a visit, or its end, by a walk lookup of its own (R154; DESIGN CHOICE, notes/assumptions/78.md). -/
def Works.visitStep (x : Ctx) (w : Works) (s : Sweep) (v : Visit) : Works :=
  match w.nextEntry v with
  | none => w.endVisit x v
  | some e =>
    let v' := { v with at_ := some e.first }
    (w.mapVisit v.day v.cls fun _ => v').carryOut v' e (w.judge s v e none)

/-- The visit of a run in progress. -/
def Sweep.visitOf (s : Sweep) (d c : Nat) : Option Visit :=
  s.visits.find? fun v => Decidable.decide (v.day = d) && Decidable.decide (v.cls = c)

/-- A revisit goes on until it waits for an image or ends (R156). -/
def Works.visit (x : Ctx) (w : Works) (d c : Nat) : Works :=
  match w.retention.sweep with
  | none => w
  | some s =>
    match s.visitOf d c with
    | none => w
    | some v => if v.walk ∨ v.reading.isSome ∨ s.refusedItems ≠ [] then w else (w.visitStep x s v).task (.visit d c)

/-- A deferral's cause has cleared: its run is revisited. A visit of the run in progress goes on to its end first, and then one revisit
is taken for all that cleared meanwhile (DESIGN CHOICE, notes/assumptions/64.md). -/
def Works.revisit (w : Works) (d c : Nat) (cause : Cause) : Works :=
  match w.retention.sweep with
  | none => w
  | some s =>
    if !(s.revisit.contains ⟨d, c, cause⟩) then w
    else
      let w := w.mapSweep fun s => { s with revisit := s.revisit.filter fun v => Decidable.decide (v ≠ ⟨d, c, cause⟩) }
      match s.visitOf d c with
      | some _ => w.mapVisit d c fun v => { v with again := true }
      | none => (w.mapSweep fun s => { s with visits := s.visits ++ [⟨d, c, none, none, false, false, []⟩] }).task (.visit d c)

/-- Every deferral of a day with a given cause revisited. -/
def Works.revisitDay (w : Works) (d : Nat) (cause : Cause) : Works :=
  match w.retention.sweep with
  | none => w
  | some s =>
    w.addTasks ((s.revisit.filter fun v => Decidable.decide (v.day = d) && Decidable.decide (v.cause = cause)).map fun v =>
      Task.revisit d v.cls cause)

/-- Every deferral for a channel revisited. -/
def Works.revisitChannel (w : Works) (mc : Fin 4) : Works :=
  match w.retention.sweep with
  | none => w
  | some s =>
    w.addTasks ((s.revisit.filter fun v => Decidable.decide (v.cause = .channel mc)).map fun v => Task.revisit v.day v.cls v.cause)

/-- The answer to a sweep's read (R155): the decision is taken afresh. -/
def Works.sweepAnswer (w : Works) (r : SheetRef) (a : ReadAnswer) : Works :=
  match w.retention.sweep with
  | none => w
  | some s =>
    match s.visitOf r.day r.cls with
    | none => w
    | some v =>
      if v.reading ≠ some r then w
      else
        let v := { v with reading := none }
        let w := w.mapVisit v.day v.cls fun _ => v
        let image := match a with | .image b _ => some (imageRecs b) | _ => none
        let w := match w.entryAt r.day r.cls r.first with
          | none => w
          | some e =>
            match a with
            | .media mc => w.carryOut v e (.defer (.channel mc))
            | _ => w.carryOut v e (w.judge s v e (if e.group = r.group then image else none))
        if v.walk then w else w.task (.visit v.day v.cls)

/-- The walk leaves a day: its open retire list is queued, and a day without unfinished runs is offered (R154). -/
def Works.leaveDay (x : Ctx) (w : Works) (s : Sweep) (d : Nat) : Works :=
  let w := w.mapSweep fun s => { s with openRetire := [], position := s.position.map fun p => { p with left := true } }
  let w := if s.openRetire = [] then w else w.sweepQueue d (.retire s.openRetire) s.openRetire
  match w.retention.sweep with
  | none => w
  | some s => if (List.range 8).all fun k => !s.unfinished d k then w.offerDay x d else w

/-- The walk visits a run (R154). -/
def Works.visitRun (x : Ctx) (w : Works) (s : Sweep) (d c : Nat) : Works :=
  let w := w.mapSweep fun s => { s with position := some ⟨d, some c, false⟩ }
  if !due x.set.epoch s.policies s.today d c then w
  else
    let w := (w.setRun d c .expiring).mapSweep fun s => { s with counts := { s.counts with runsDue := s.counts.runsDue + 1 } }
    if (w.day d).any (·.underAudit) then w.deferRun d c .audit
    else w.mapSweep fun s => { s with visits := s.visits ++ [⟨d, c, none, none, true, false, []⟩] }

/-- One step of the walk: a decision of the run under visit, the visit of the next run, the leaving of a day, the passing to the next
day, or the walk's end (R154). -/
def Works.sweepWalk (x : Ctx) (w : Works) : Works :=
  match w.retention.sweep with
  | none => w
  | some s =>
    if s.refusedItems ≠ [] ∨ s.passed then w
    else match s.visits.find? (·.walk) with
      | some v => if v.reading.isSome then w else w.visitStep x s v
      | none =>
        let runs (d : Nat) (after : Option Nat) : Option Nat :=
          (((w.liveDay d).map (·.runs)).getD []).map (·.cls) |>.find? fun c => after.all fun a => Decidable.decide (a < c)
        let nextDay (p : Nat → Bool) : Works :=
          match (w.days.map (·.1)).find? p with
          | none => (w.mapSweep fun s => { s with passed := true }).task .sweepEnd
          | some d =>
            let w := w.mapSweep fun s => { s with position := some ⟨d, none, false⟩ }
            match runs d none with
            | some c => w.visitRun x s d c
            | none => w
        match s.position with
        | none => nextDay fun _ => true
        | some p =>
          if p.left then nextDay fun d => Decidable.decide (p.day < d)
          else match runs p.day p.cls with
            | some c => w.visitRun x s p.day c
            | none => w.leaveDay x s p.day

/-- The end of a sweep tested (R157). A visit under way, a sheet on the open retire list and an item that waits for queue space keep it
RUNNING too (DESIGN CHOICE, notes/assumptions/65.md). -/
def Works.sweepEnd (x : Ctx) (w : Works) : Works :=
  match w.retention.sweep with
  | none => w
  | some s =>
    if !s.passed ∨ s.revisit ≠ [] ∨ s.decided ≠ [] ∨ s.visits ≠ [] ∨ s.openRetire ≠ [] ∨ s.refusedItems ≠ [] then w
    else
      let kept := s.kept.countP fun p => !p.2
      let keptQ := s.kept.countP fun p => p.2
      let w := w.mapRetention fun t => { t with sweep := if s.again then some (.start x.today x.cfg.policies) else none }
      w.notice x .sweepDone (.sweepDone s.today s.counts kept keptQ)

/-- A sheet withdrawn or dropped as undecided or deferred (R156). -/
def Works.sweepReported (w : Works) (r : SheetRef) (cause : Cause) : Works :=
  let w := (w.mapSweep fun s => { s with decided := s.decided.filter fun q => Decidable.decide (q ≠ r) }).deferRun r.day r.cls cause
  if cause = .undecided then w.task (.revisit r.day r.cls .undecided) else w

/-- A RETIRE's completion told: its sheets leave the decided list and are counted (R156). -/
def Works.sweepRetired (x : Ctx) (w : Works) (l : List (SheetRef × Bool)) : Works :=
  let w := w.mapSweep fun s =>
    { s with decided := s.decided.filter fun q => !(l.any fun p => Decidable.decide (p.1 = q)),
             counts := { s.counts with retired := s.counts.retired + l.countP (fun p => !p.2),
                                       retiredQuarantined := s.counts.retiredQuarantined + l.countP (fun p => p.2) } }
  (l.map fun p => (p.1.day, p.1.cls)).eraseDups.foldl (fun w q => w.sweepCheck x q.1 q.2) w

/-- A TRIM's completion told (R156). -/
def Works.sweepTrimmed (x : Ctx) (w : Works) (r : SheetRef) (records : Nat) : Works :=
  let w := w.mapSweep fun s =>
    { s with decided := s.decided.filter fun q => Decidable.decide (q ≠ r),
             counts := { s.counts with trimmed := s.counts.trimmed + 1, recordsRetired := s.counts.recordsRetired + records } }
  w.sweepCheck x r.day r.cls

end Sys2Proof.Machine
end

