-- ==== Sys2Proof/Machine/AuditOps.lean ====
section
/-!
DEFINITION. The operations of the Audit Unit (R158 to R165): the audit in progress, its statement, and the scrub walk.
-/

namespace Sys2Proof.Machine

/-! ## Checks of a sheet (R161) -/

/-- Whether two records of a list share an identity. -/
def repeats : List Rec → Bool
  | [] => false
  | r :: l => l.any (fun s => decide (s.identity = r.identity)) || repeats l

/-- The first check of an image against its entry that fails; `others` are the identities it may not repeat. -/
def sheetFinding (d cls : Nat) (e : Entry) (image : Bytes) (others : List Identity) : Option Finding :=
  match readSheet image with
  | some (.data h recs) =>
    if h.day ≠ d ∨ h.cls ≠ cls ∨ h.group ≠ e.group then some .header
    else if (h.count : Int) ≠ e.totals.count ∨ h.bodyLen ≠ e.bodyLen then some .header
    else if (recs.head?).map (·.key) ≠ some e.first ∨ (recs.getLast?).map (·.key) ≠ some e.last then some .header
    else if recTotals recs ≠ e.totals then some .totals
    else if repeats recs then some .identity
    else if recs.any (fun r => others.contains r.identity) then some .identity
    else none
  | _ => some .header

/-- The identities of a day's staged records. -/
def Intake.stagedIdentities (i : Intake) (d : Nat) : List Identity :=
  (List.range 8).flatMap fun c => (i.set d c).map fun r => r.call.identity

/-! ## The audit (R159 to R163) -/

/-- The audit changed. -/
def Works.mapAudit (w : Works) (f : Audit → Audit) : Works := { w with audit := w.audit.map f }

/-- A reference made (R162). -/
def Audit.refer (a : Audit) (cls : Nat) (e : Entry) (f : Finding) : Audit :=
  if a.refs.length < Config.auditRefs then { a with refs := a.refs ++ [⟨cls, e.first, e.group, e.slot, f⟩] }
  else { a with omitted := a.omitted + 1 }

/-- AUDIT DAY (R159). -/
def Works.auditDay (w : Works) (r : Req) (d : Nat) : Works :=
  if Config.maxDay < d ∨ !r.holds 1328 then w.refuse r.id .malformed
  else if w.audit.isSome then w.refuse r.id .busy
  else match w.liveDay d with
    | none => w.refuse r.id .notFound
    | some e =>
      let a : Audit :=
        { draining := e.inProgress.isSome, req := r.id, day := d, position := none, wait := .none, held := .zero, ids := [],
          met := 0, read := 0, passed := 0, unread := 0, refs := [], omitted := 0, failure := false, unproved := false,
          asked := [] }
      ({ (w.mapDay d fun e => { e with underAudit := true }) with audit := some a }).take r.id

/-- The group that a DRAINING audit waited for has ended. -/
def Works.auditDrained (w : Works) (d : Nat) : Works :=
  if (w.day d).any fun e => e.inProgress.isNone then
    w.mapAudit fun a => if a.day = d then { a with draining := false } else a
  else w

/-- An entry finished with: its mark is released and the walk goes on (R160). -/
def Works.auditRelease (x : Ctx) (w : Works) (r : SheetRef) : Works :=
  let w := w.mapAudit fun a => { a with wait := .none }
  match w.entryAt r.day r.cls r.first with
  | some e => if e.busy = some .audit then w.release x r.day r.cls r.first else w
  | none => w

/-- An entry taken by the walk (R160). -/
def Works.auditTake (w : Works) (d cls : Nat) (e : Entry) : Works :=
  let r := e.ref d cls
  let go (f : Audit → Audit) : Works := w.mapAudit fun a => f { a with wait := .none }
  if e.quarantined then go fun a => { a.refer cls e .priorQuarantine with unproved := true }
  else if !(w.chan e.slot.ch).online then go fun a => { a.refer cls e .unread with unread := a.unread + 1, unproved := true }
  else if e.busy.isSome then w.mapAudit fun a => { a with wait := .release r }
  else ((w.claim d cls e.first .audit).mapAudit fun a => { a with wait := .reading r }).askRead e.slot (.audit r)

/-- A release made known to the audit: the entry whose claim had failed is taken afresh (R43, R160). -/
def Works.auditReleased (w : Works) (d cls : Nat) (first : Key) : Works :=
  match w.audit with
  | none => w
  | some a =>
    match a.wait with
    | .release r =>
      if r.day = d ∧ r.cls = cls ∧ r.first = first then
        match w.entryAt d cls first with
        | some e => w.auditTake d cls e
        | none => w.mapAudit fun a => { a with wait := .none }
      else w
    | _ => w

/-- The verdict of an audit over the day's figures (R163). -/
def Audit.verdict (a : Audit) (d : DayEntry) : AuditVerdict :=
  let counted := ((d.intake.sub d.retired).sub d.voided).add d.corr
  if a.failure ∨ ((indexTotals d.entries).add d.staged).add d.late ≠ counted then .differs
  else if a.unproved then .incomplete
  else .agrees

/-- STATING (R163): the verdict, the end of the audit and its statement, which shows UNDER_AUDIT clear (DESIGN CHOICE,
notes/assumptions/60.md). -/
def Works.auditState (x : Ctx) (w : Works) (a : Audit) : Works :=
  match w.day a.day with
  | none => { w with audit := none }
  | some d =>
    let v := a.verdict d
    let w := { (w.mapDay a.day fun e => { e with underAudit := false }) with audit := none }
    (w.addTasks [.scan, .auditCleared a.day]).report a.req (a.statement { d with underAudit := false } x.cfg.today v) (.audited v)

/-- A step of the audit: the next entry taken, one whose claim had failed taken afresh, or STATING. -/
def Works.auditWalk (x : Ctx) (w : Works) : Works :=
  match w.audit with
  | none => w
  | some a =>
    if a.draining then w
    else
      let l := ((w.liveDay a.day).map (·.walk)).getD []
      match a.wait with
      | .reading _ => w
      | .release r =>
        match w.entryAt r.day r.cls r.first with
        | some e => if e.busy.isSome then w else w.auditTake r.day r.cls e
        | none => w.mapAudit fun a => { a with wait := .none }
      | .none =>
        let after (p : Nat × Entry) : Bool := a.position.all fun q =>
          decide (q.1 < p.1) || (decide (q.1 = p.1) && q.2.lt p.2.first)
        match l.find? after with
        | none => w.auditState x a
        | some (c, e) =>
          (w.mapAudit fun a => { a with position := some (c, e.first), met := a.met + 1 }).auditTake a.day c e

/-- The answer to the audit's read (R160, R161). -/
def Works.auditAnswer (x : Ctx) (w : Works) (r : SheetRef) (ans : ReadAnswer) : Works :=
  match w.audit with
  | none => w
  | some a =>
    if a.wait ≠ .reading r then w
    else match w.entryAt r.day r.cls r.first with
      | none => w.auditRelease x r
      | some e =>
        match ans with
        | .image b _ =>
          match sheetFinding r.day r.cls e b (a.ids ++ w.intake.stagedIdentities r.day) with
          | none =>
            let recs := imageRecs b
            (w.mapAudit fun a =>
              { a with read := a.read + 1, passed := a.passed + 1, held := a.held.add (recTotals recs),
                       ids := a.ids ++ recs.map (·.identity) }).auditRelease x r
          | some f =>
            ((w.mapAudit fun a => { a.refer r.cls e f with read := a.read + 1, failure := true, asked := a.asked ++ [r] }).quarantine
              x r).auditRelease x r
        | .failed =>
          (w.mapAudit fun a => { a.refer r.cls e .readFailed with read := a.read + 1, failure := true }).auditRelease x r
        | .media _ =>
          (w.mapAudit fun a => { a.refer r.cls e .unread with unread := a.unread + 1, unproved := true }).auditRelease x r
        | .gone => (w.auditRelease x r).mapAudit fun a => { a with wait := .release r }

/-! ## The scrub walk (R164, R165) -/

/-- The entries of the Day Table in catalogue order; days with GOING have none. -/
def Works.catalogue (w : Works) : List (Nat × Nat × Entry) :=
  (w.days.filter fun p => !p.2.going).flatMap fun p => p.2.walk.map fun q => (p.1, q.1, q.2)

/-- Whether the scrub walk takes an entry. -/
def Works.scrubs (w : Works) (p : Nat × Nat × Entry) : Bool :=
  !p.2.2.quarantined && p.2.2.busy.isNone && !((w.day p.1).any (·.underAudit)) && (w.chan p.2.2.slot.ch).online

/-- Whether an entry lies after the scrub position. -/
def Scrub.before (s : Scrub) (p : Nat × Nat × Entry) : Bool :=
  s.position.all fun q => decide (q.1 < p.1) || (decide (q.1 = p.1) &&
    (decide (q.2.1 < p.2.1) || (decide (q.2.1 = p.2.1) && q.2.2.lt p.2.2.first)))

/-- The scrub walk changed. -/
def Works.mapScrub (w : Works) (f : Scrub → Scrub) : Works := { w with scrub := f w.scrub }

/-- An entry taken by the scrub walk: its media read is asked. -/
def Works.scrubTake (w : Works) (p : Nat × Nat × Entry) : Works :=
  let r := p.2.2.ref p.1 p.2.1
  (w.mapScrub fun s => { s with position := some (p.1, p.2.1, p.2.2.first), outstanding := some (r, p.2.2.slot) }).askRead p.2.2.slot
    .scrub

/-- An expiry of the scrub timer at time `now` (R164). -/
def Works.scrubExpiry (w : Works) (now : Nat) : Works :=
  let w := w.mapScrub fun s => { s with timerFrom := now }
  if w.scrub.outstanding.isSome then w
  else
    let l := w.catalogue.filter w.scrubs
    match l.find? w.scrub.before with
    | some p => w.scrubTake p
    | none =>
      match l.head? with
      | some p => (w.mapScrub fun s => { s with position := none, passes := s.passes + 1 }).scrubTake p
      | none => w

/-- The answer to the scrub walk's read (R165). -/
def Works.scrubAnswer (x : Ctx) (w : Works) (a : ReadAnswer) : Works :=
  match w.scrub.outstanding with
  | none => w
  | some (r, slot) =>
    let w := w.mapScrub fun s => { s with outstanding := none }
    match (w.current r).filter fun e => decide (e.slot = slot) with
    | none => w
    | some e =>
      match a with
      | .media _ => w
      | .gone => w
      | .failed => w.mapScrub fun s => { s with scrubbed := s.scrubbed + 1, failures := s.failures + 1 }
      | .image b _ =>
        if e.quarantined then w
        else match sheetFinding r.day r.cls e b [] with
          | none => w.mapScrub fun s => { s with scrubbed := s.scrubbed + 1 }
          | some _ => (w.mapScrub fun s => { s with scrubbed := s.scrubbed + 1, failures := s.failures + 1 }).quarantine x r

end Sys2Proof.Machine
end

