-- ==== Sys2Proof/Machine/RebuildOps.lean ====
section
/-!
DEFINITION. The operations of start-up and rebuild (R176 to R182): the scan of the array, the resolution of its candidates, the end of
the rebuild, and ARCHIVE RESET.
-/

namespace Sys2Proof.Machine

/-! ## The scan (R178) -/

/-- The rebuild changed. -/
def Works.mapRebuild (w : Works) (f : Rebuild → Rebuild) : Works := { w with rebuild := f w.rebuild }

/-- The slots of a channel to be scanned. -/
def scanSize (m : MediaCfg) : Nat := Config.extentSlots * m.extents

/-- The scan asks the next slot of every configured ONLINE channel whose read is not outstanding. -/
def Works.rebuildScan (x : Ctx) (w : Works) : Works :=
  channels.foldl (fun w mc =>
    let s := w.rebuild.scans.get mc
    if !s.reading && decide (s.next < scanSize (x.set.media.get mc)) && (w.chan mc).online then
      (w.mapRebuild fun r => { r with scans := r.scans.set mc { s with reading := true } }).askOp mc
        (.read s.next [(.rebuild, false)] false) true
    else w) w

/-- Reads of the scan on OFFLINE channels have been answered MEDIA: they are asked again once the channel is ONLINE. -/
def Works.rebuildWaits (w : Works) : Works :=
  channels.foldl (fun w mc =>
    if (w.chan mc).online then w
    else w.mapRebuild fun r => { r with scans := r.scans.modify mc fun s => { s with reading := false } }) w

/-- The candidate that a sheet makes (R178). -/
def candOf (s : SlotAddr) : Sheet → Cand
  | .data h recs =>
    let key := ((recs.head?).map (·.key)).getD .zero
    ⟨s, .data h.day h.cls key (((recs.getLast?).map (·.key)).getD key) (recTotals recs) h.bodyLen h.group⟩
  | .summary h body => ⟨s, .summary h.day h.group body⟩
  | .hold h rows => ⟨s, .hold h.firstAccount h.lastAccount h.group rows⟩

/-- The kind of sheet that a candidate is. -/
def CandContent.kind : CandContent → SheetKind
  | .data _ _ _ _ _ _ _ => .data
  | .summary _ _ _ => .summary
  | .hold _ _ _ _ => .hold

/-- The channel's scan goes on to slot `next`. -/
def Works.scanTo (w : Works) (mc : Fin 4) (next : Nat) : Works :=
  w.mapRebuild fun r => { r with scans := r.scans.set mc ⟨next, false⟩ }

/-- A slot that the scan found in use, its extent FILLED. -/
def MediaChan.foundSlot (c : MediaChan) (idx : Nat) (i : SlotInfo) : MediaChan :=
  { c.setExt (extOf idx) .filled with slots := tblPut idx i c.slots }

/-- What the scan finds in a slot. -/
inductive ScanFound where
  | retired
  | erased
  | voided
  | failing
  | sheet (image : Bytes) (cand : Cand)

/-- The scan's finding from what the media gave (R178). -/
def scanFound (s : SlotAddr) (retired : Bool) (cell : Cell) : ReadEnd → ScanFound
  | .statusFailed => .failing
  | .altered image =>
    if retired then .retired else if cell.voided then .voided
    else match readSheet image with
      | some t => .sheet image (candOf s t)
      | none => .failing
  | .asStored =>
    if retired then .retired else if cell.voided then .voided
    else match cell.image with
      | none => .erased
      | some image => match readSheet image with
        | some t => .sheet image (candOf s t)
        | none => .failing

/-- Whether every channel's scan is complete. -/
def Works.scanned (x : Ctx) (w : Works) : Bool :=
  channels.all fun mc => decide (scanSize (x.set.media.get mc) ≤ (w.rebuild.scans.get mc).next)

/-- A slot recorded and the scan taken on; with the last slot scanned, resolution follows. -/
def Works.recordSlot (x : Ctx) (w : Works) (mc : Fin 4) (idx : Nat) (f : ScanFound) : Works :=
  let w := match f with
    | .retired =>
      let e := extOf idx
      let stands (c : Cand) : Bool := decide (c.slot.ch ≠ mc) || decide (extOf c.slot.idx ≠ e)
      let kept (r : Rebuild) : Rebuild := { r with cands := r.cands.filter stands }
      ((w.mapChan mc fun c => c.makeBad e).mapRebuild kept).scanTo mc (Config.extentSlots * (e + 1))
    | .erased => w.scanTo mc (idx + 1)
    | .voided => (w.mapChan mc fun c => c.foundSlot idx ⟨.stale, .data⟩).scanTo mc (idx + 1)
    | .failing =>
      let w := w.mapChan mc fun c => c.foundSlot idx ⟨.stale, .data⟩
      let w := w.mapRebuild fun r => { r with marks := r.marks + 1, counts := { r.counts with stale := r.counts.stale + 1 } }
      (w.scanTo mc (idx + 1)).voidMark ⟨mc, idx⟩ .rebuild
    | .sheet image cand =>
      let w := w.mapChan mc fun c => c.foundSlot idx ⟨.live, cand.content.kind⟩
      let w := w.mapRebuild fun r => { r with cands := r.cands ++ [cand] }
      let (_, w) := w.enterCache ⟨mc, idx⟩ image
      w.scanTo mc (idx + 1)
  if w.scanned x then w.task .resolve else w

/-- A read of the scan completed (R100, R178): a failing sheet is read once more. -/
def Works.scanRead (x : Ctx) (w : Works) (mc : Fin 4) (op : Op) (idx : Nat) (who : List (Requester × Bool)) (again : Bool)
    (f : ScanFound) : Works :=
  match f, again with
  | .failing, false =>
    (w.mapChan mc fun c => { c.repeatOp { op with kind := .read idx who true } with busy := none }).task (.grant mc)
  | f, _ => (w.recordSlot x mc idx f).opEnded mc

/-! ## Resolution of DATA and SUMMARY candidates (R179) -/

/-- Scan order: channel, then slot number. -/
def slotLt (a b : SlotAddr) : Bool := decide (a.ch < b.ch) || (decide (a.ch = b.ch) && decide (a.idx < b.idx))

/-- A DATA candidate of a day. -/
structure DataCand where
  slot : SlotAddr
  cls : Nat
  first : Key
  last : Key
  totals : Triple
  bodyLen : Nat
  group : Nat
  deriving DecidableEq, Repr

/-- The DATA candidates of a day, in the order of the list. -/
def dataOf (d : Nat) (l : List Cand) : List DataCand :=
  l.filterMap fun c =>
    match c.content with
    | .data day cls first last totals len group => if day = d then some ⟨c.slot, cls, first, last, totals, len, group⟩ else none
    | _ => none

/-- The SUMMARY candidates of a day with their group numbers, in the order of the list. -/
def summariesOf (d : Nat) (l : List Cand) : List (SlotAddr × Nat × Summary) :=
  l.filterMap fun c =>
    match c.content with
    | .summary day group body => if day = d then some (c.slot, group, body) else none
    | _ => none

/-- The days of the DATA and SUMMARY candidates, ascending. -/
def candDays (l : List Cand) : List Nat :=
  let days := l.filterMap fun c =>
    match c.content with
    | .data day _ _ _ _ _ _ => some day
    | .summary day _ _ => some day
    | .hold _ _ _ _ => none
  (days.foldl (fun t d => tblPut d () t) ([] : Tbl Unit)).map (·.1)

/-- Two key ranges overlap. -/
def DataCand.overlaps (a b : DataCand) : Bool := a.first.atMost b.last && b.first.atMost a.last

/-- A candidate lies within a range of a retirement list. -/
def KeyRange.holds (r : KeyRange) (c : DataCand) : Bool :=
  decide (r.cls = c.cls) && r.first.atMost c.first && c.last.atMost r.last

/-- Steps 4 and 5: the candidates that a summary leaves standing. -/
def standAfter (group : Nat) (ranges : List KeyRange) (l : List DataCand) : List DataCand :=
  l.filter fun c => decide (c.group ≤ group) && !(decide (c.group < group) && ranges.any fun r => r.holds c)

/-- Step 6: candidates that one of a higher group number overlaps in their class are gone. -/
def newest (l : List DataCand) : List DataCand :=
  l.filter fun c => !(l.any fun b => decide (b.cls = c.cls) && decide (c.group < b.group) && b.overlaps c)

/-- Step 7: of overlapping candidates of one class and group number the first stands (R179; that copies are sought within one class is a
DESIGN CHOICE, notes/assumptions/79.md). -/
def firstCopies : List DataCand → List DataCand → List DataCand
  | kept, [] => kept
  | kept, c :: l =>
    if kept.any fun b => decide (b.cls = c.cls) && decide (b.group = c.group) && b.overlaps c then firstCopies kept l
    else firstCopies (kept ++ [c]) l

/-- The DATA candidates of a day that survive steps 4 to 7. -/
def survivors (group : Nat) (ranges : List KeyRange) (l : List DataCand) : List DataCand :=
  firstCopies [] (newest (standAfter group ranges l))

/-- The reference of a candidate of a day. -/
def DataCand.ref (c : DataCand) (d : Nat) : SheetRef := ⟨d, c.cls, c.first, c.group⟩

/-- The index entry of a surviving candidate: LIVE (R179), but for a sheet whose quarantine the audit in progress at an ARCHIVE RESET had
asked for, which stands QUARANTINED (R158; DEDUCED, notes/assumptions/62.md). -/
def DataCand.entry (c : DataCand) (quarantined : Bool) : Entry :=
  ⟨c.first, c.last, c.totals, c.bodyLen, c.slot, c.group, quarantined, none, false⟩

/-- The runs of a day's surviving candidates; `stood` are the sheets that stay QUARANTINED. -/
def runsOf (stood : List SheetRef) (d : Nat) (l : List DataCand) : List Run :=
  (List.range 8).filterMap fun c =>
    let mine := (l.filter fun k => decide (k.cls = c)).map fun k => k.entry (stood.contains (k.ref d))
    let mine := sortBy (fun a b => a.first.lt b.first) mine
    if mine = [] then none else some ⟨c, .live, mine⟩

/-- The day entry that R180 gives. -/
def rebuiltDay (stood : List SheetRef) (d : Nat) (slot : SlotAddr) (group : Nat) (s : Summary) (l : List DataCand) : DayEntry :=
  let held := Triple.sum (l.map (·.totals))
  let intake := ((held.add s.retired).add s.voided).sub s.corr
  { DayEntry.new .closed with
    intake := intake, retired := s.retired, voided := s.voided, corr := s.corr, group := group, runs := runsOf stood d l,
    summary := some slot, discrepant := decide (intake ≠ s.intake) }

/-- A day resolved: its entry, if it is kept, and the slots that stand. -/
def resolveDay (stood : List SheetRef) (d : Nat) (l : List Cand) : Option DayEntry × List SlotAddr :=
  match firstMax (fun s : SlotAddr × Nat × Summary => s.2.1) (summariesOf d l) with
  | none => (none, [])
  | some (slot, group, s) =>
    if s.gone then (none, [])
    else
      let kept := survivors group s.ranges (dataOf d l)
      (some (rebuiltDay stood d slot group s kept), slot :: kept.map (·.slot))

/-! ## Resolution of HOLD candidates (R181) -/

/-- A HOLD candidate, its span within the accounts of R1. -/
structure HoldCand where
  slot : SlotAddr
  lo : Nat
  hi : Nat
  generation : Nat
  rows : Tbl HoldEntry
  deriving DecidableEq, Repr

/-- The HOLD candidates, greatest generation first, in scan order on equal ones. -/
def holdCands (l : List Cand) : List HoldCand :=
  sortBy (fun a b => decide (b.generation < a.generation)) (l.filterMap fun c =>
    match c.content with
    | .hold lo hi g rows => some ⟨c.slot, max lo 1, min hi Config.maxAccount, g, rows⟩
    | _ => none)

/-- A span without the accounts of another. -/
def spanWithout (s : Nat × Nat) (t : Nat × Nat) : List (Nat × Nat) :=
  if t.2 < s.1 ∨ s.2 < t.1 then [s]
  else (if s.1 < t.1 then [(s.1, t.1 - 1)] else []) ++ (if t.2 < s.2 then [(t.2 + 1, s.2)] else [])

/-- The accounts of a span outside every newer span. -/
def uncovered (s : Nat × Nat) (newer : List (Nat × Nat)) : List (Nat × Nat) :=
  newer.foldl (fun l t => l.flatMap fun u => spanWithout u t) (if s.1 ≤ s.2 then [s] else [])

/-- An entry as R147's release-day rule takes it; none when nothing is left of it. -/
def takenEntry (today : Nat) (e : HoldEntry) : Option HoldEntry :=
  let e := if e.expired today then { e with reg := none } else e
  if e.alive then some e else none

/-- The ranges and entries that a HOLD candidate leaves outside the newer spans; a standing candidate's range has a rewrite owed (R181). -/
def HoldCand.leaves (c : HoldCand) (today : Nat) (newer : List (Nat × Nat)) : List HoldRange × Tbl HoldEntry :=
  let spans := uncovered (c.lo, c.hi) newer
  let inSpan (s : Nat × Nat) : Tbl HoldEntry := c.rows.filter fun p => decide (s.1 ≤ p.1) && decide (p.1 ≤ s.2)
  let range (s : Nat × Nat) : HoldRange := ⟨s.1, s.2, some (c.slot, c.generation), [], true, none⟩
  (spans.map range, spans.flatMap fun s => (inSpan s).filterMap fun p => (takenEntry today p.2).map fun e => (p.1, e))

/-- The HOLD candidates resolved in order: the standing ranges, the entries and the slots voided. -/
def resolveHolds (today : Nat) : List (Nat × Nat) → List HoldCand → List HoldRange × Tbl HoldEntry × List SlotAddr
  | _, [] => ([], [], [])
  | newer, c :: l =>
    let (ranges, rows) := c.leaves today newer
    let (moreRanges, moreRows, voided) := resolveHolds today ((c.lo, c.hi) :: newer) l
    (ranges ++ moreRanges, rows ++ moreRows, if ranges = [] then c.slot :: voided else voided)

/-- The gaps between ranges in account order filled by ranges with no sheet. -/
def fillGaps : Nat → List HoldRange → List HoldRange
  | lo, [] => if lo ≤ Config.maxAccount then [⟨lo, Config.maxAccount, none, [], false, none⟩] else []
  | lo, r :: l =>
    let rest := r :: fillGaps (r.hi + 1) l
    if lo < r.lo then ⟨lo, r.lo - 1, none, [], false, none⟩ :: rest else rest

/-- The Retention Unit as the HOLD candidates give it, and the slots voided. Every entry of a standing candidate is kept, also beyond the
65 536 of R147 (R181; DESIGN CHOICE, notes/assumptions/80.md). -/
def rebuiltRetention (today : Nat) (l : List Cand) : Retention × List SlotAddr :=
  let cands := holdCands l
  let (ranges, rows, voided) := resolveHolds today [] cands
  let holds := rows.foldl (fun t p => tblPut p.1 p.2 t) []
  let sorted := sortBy (fun a b => decide (a.lo < b.lo)) ranges
  (⟨holds, fillGaps 1 sorted, (cands.map (·.generation)).foldl max 0, none⟩, voided)

/-! ## The resolution event and the end of the rebuild (R180, R181) -/

/-- A range with no sheet over every account. -/
def wholeRange : HoldRange := ⟨1, Config.maxAccount, none, [], false, none⟩

/-- The rebuild ended: the part enters RUNNING (R181). Relocations are tested for starting, an event that R105 does not name
(DESIGN CHOICE, notes/assumptions/51.md). -/
def Works.rebuildEnd (x : Ctx) (w : Works) : Works :=
  let configured := channels.filter fun mc => decide (0 < (x.set.media.get mc).extents)
  let w := { w with part := .running, array := { w.array with fullArmed := true }, scrub := { w.scrub with timerFrom := x.clock } }
  let w := w.addTasks ((w.retention.ranges.filter (·.owed)).map fun r => Task.holdStart r.lo)
  let w := configured.foldl (fun w mc => (w.mapChan mc fun c => { c with lowArmed := true }).lowTest x mc) w
  let w := (w.fullTest x).addTasks (configured.map Task.relocationTest)
  w.notice x .rebuildDone (.rebuildDone w.rebuild.counts)

/-- The end of the rebuild tested. -/
def Works.rebuildTest (x : Ctx) (w : Works) : Works :=
  if decide (w.part = .rebuilding) && w.rebuild.resolved && decide (w.rebuild.marks = 0) then w.rebuildEnd x else w

/-- A void mark that the rebuild asked for has completed. -/
def Works.rebuildMarked (x : Ctx) (w : Works) : Works :=
  (w.mapRebuild fun r => { r with marks := r.marks - 1 }).rebuildTest x

/-- Resolution (R179 to R181). Every day that survives stands in the Day Table, also beyond the 4096 of R36 (DESIGN CHOICE,
notes/assumptions/66.md). -/
def Works.resolve (x : Ctx) (w : Works) : Works :=
  if w.rebuild.resolved || decide (w.part ≠ .rebuilding) then w
  else
    let cands := sortBy (fun a b => slotLt a.slot b.slot) w.rebuild.cands
    let days := (candDays cands).map fun d => (d, resolveDay w.rebuild.stood d cands)
    let kept : Tbl DayEntry := days.filterMap fun p => p.2.1.map fun e => (p.1, e)
    let (retention, holdVoided) := rebuiltRetention x.today cands
    let stand := days.flatMap fun p => p.2.2
    let voided := (cands.filter fun c => decide (c.content.kind ≠ .hold) && !(stand.contains c.slot)).map (·.slot) ++ holdVoided
    let counts : RebuildCounts :=
      { w.rebuild.counts with
        days := kept.length, discrepant := kept.countP fun p => p.2.discrepant, voided := voided.length,
        kept := (kept.map fun p => p.2.entries.length).sum, holds := retention.holds.length }
    let w := { w with days := kept, retention := retention }
    let w := w.mapRebuild fun r => { r with cands := [], resolved := true, marks := r.marks + voided.length, counts := counts }
    let w := (kept.filter fun p => p.2.discrepant).foldl (fun w p => w.notice x .rebuildDiscrepancy (.day p.1)) w
    (voided.foldl (fun w s => w.voidMark s .rebuild) w).rebuildTest x

/-! ## CONFIGURE and ARCHIVE RESET (R177, R182) -/

/-- A media channel before a rebuild: ONLINE when configured, an operation in progress kept for its end to be discarded. -/
def MediaChan.restart (c : MediaChan) (m : MediaCfg) : MediaChan :=
  { MediaChan.initial with
    online := decide (0 < m.extents), lowArmed := true, busy := c.busy.map fun o => { o with stray := true } }

/-- Everything in the record cache at the start of a rebuild; what the port, the cursors' generations and the media channels keep is
given by the caller's `w`, and the quarantines that an audit in progress had asked for stand (R158). -/
def Works.restart (x : Ctx) (w : Works) : Works :=
  let chans : Quad MediaChan :=
    ⟨(w.chan 0).restart x.set.media.c0, (w.chan 1).restart x.set.media.c1, (w.chan 2).restart x.set.media.c2,
     (w.chan 3).restart x.set.media.c3⟩
  { Works.initial with
    tasks := w.tasks, serial := w.serial, part := .rebuilding, port := w.port,
    array := { ArrayCtl.initial with chans := chans, fullArmed := true },
    enquiry := ⟨w.enquiry.cursors.map fun c => { Cursor.free with generation := c.generation }, []⟩,
    retention := { Retention.initial with ranges := [wholeRange] },
    rebuild := { Rebuild.initial with stood := (w.audit.map (·.asked)).getD [] } }

/-- The answer of a request that an ARCHIVE RESET ends: that of a read in progress carries the items written and the FREE cursor's
position (R119, R182; DESIGN CHOICE, notes/assumptions/81.md). -/
def Works.refuseReset (w : Works) (id : Nat) : Works :=
  match (w.enquiry.cursors.filterMap (·.reading)).find? fun rd => decide (rd.req = id) with
  | some rd => w.refuseWith id .reset (.read rd.written Cursor.free.position)
  | none => w.refuse id .reset

/-- ARCHIVE RESET (R182). -/
def Works.archiveReset (x : Ctx) (w : Works) (r : Req) : Works :=
  let ids := (w.port.reqs.filter fun q => decide (q.phase ≠ .ended) && decide (q.id ≠ r.id)).map (·.id)
  let w := { w with port := { w.port with writes := [] } }
  let w := ids.foldl (fun w id => w.refuseReset id) w
  ((w.restart x).done r.id .empty).addTasks (channels.map Task.grant)

end Sys2Proof.Machine
end

