-- ==== Sys2Proof/Machine/Settle.lean ====
section
/-!
DEFINITION. The consequences of a command: each task is carried out by the unit it belongs to, oldest first, until none is left. All
of them belong to the one event of the command (spec/95_what_each_step_holds.md nests them in it).
-/

namespace Sys2Proof.Machine

/-- Free queue space reported to an asker that had noted itself (R75). -/
def Works.askAgain (x : Ctx) (w : Works) : Asker → Works
  | .catalogue d => w.askCloseRuns d (((w.day d).map (·.awaiting)).getD [])
  | .intake f => w.askRestore f
  | .schedule d c => w.mergeTest x d c
  | .batch ch => w.queueApply ch
  | .sweep => w.sweepSpace

/-- An answer of the Array Controller given to who asked the read (R80, R100). -/
def Works.answered (x : Ctx) (w : Works) (a : ReadAnswer) : Requester → Works
  | .group id r => w.groupAnswer x id r a
  | .neighbour id r => w.neighbourAnswer x id r a
  | .audit r => w.auditAnswer x r a
  | .scrub => w.scrubAnswer x a
  | .sweep r => w.sweepAnswer r a
  | .copy mc old => w.copyAnswer x mc old a
  | .batch ch serial n r => w.findAnswer ch serial n r a
  | .cursor n req r => w.cursorAnswer x n.val req r a
  | .prefetch n serial => w.prefetchAnswer x n.val serial a
  | .lookup req r => w.lookupAnswer req r a
  | .rebuild => w.rebuildWaits

/-- A posted image LIVE in a slot, told to its poster (R97). -/
def Works.postedLive (x : Ctx) (w : Works) (s : SlotAddr) : Poster → Works
  | .output g n => w.outputLive g n s
  | .summary g => w.complete x g s
  | .dayGone d => w.dayGoneLive d s
  | .hold serial => w.holdLive serial s

/-- A posted image admitted to the posting queue, told to its poster (R97). -/
def Works.postedAdmitted (w : Works) : Poster → Works
  | .output g n => w.outputAdmitted g n
  | .summary _ => w
  | .dayGone _ => w
  | .hold _ => w

/-- A void mark completed, told to who asked it (R104). -/
def Works.voidTold (x : Ctx) (w : Works) : VoidOwner → Works
  | .day d => w.markPaid d
  | .gonePrevious d => w.dayGoneMarked d false
  | .goneSelf d => w.dayGoneMarked d true
  | .holdEmpty serial => w.holdEnd serial
  | .rebuild => w.rebuildMarked x
  | .untold => w

/-- Entries of a day have left the Pending Amendment Set (R132, R156). -/
def Works.pendingLeft (w : Works) (d : Nat) : Works :=
  (w.enquiriesGoOn.revisitDay d .pending).addTasks (channels.map Task.place)

/-- A media channel is ONLINE again: items that waited for it are WAITING once more (R94, R156). -/
def Works.onlineAgain (w : Works) (mc : Fin 4) : Works :=
  let wakes (i : Item) : Bool := decide (i.channelWait = some mc)
  let queue := updateWhere wakes (fun i => { i with channelWait := none }) w.packer.queue
  ({ w with packer := { w.packer with queue := queue } }.task .scan).revisitChannel mc

/-- One consequence carried out. -/
def Works.runTask (x : Ctx) (w : Works) : Task → Works
  | .scan => w.scan x
  | .ask a => w.askAgain x a
  | .answer who a => w.answered x a who
  | .sheetLive p s => w.postedLive x s p
  | .admitted p => w.postedAdmitted p
  | .abort g mc lost => w.abort x g mc lost
  | .voidDone who _ => w.voidTold x who
  | .grant mc => w.grant x mc
  | .allocate => w.allocate x
  | .relocationTest mc => w.relocationTest x mc
  | .relocationSettle mc => w.relocationSettle x mc
  | .find ch => w.findEntry ch
  | .place ch => w.place ch
  | .pendingLeft d => w.pendingLeft d
  | .released d c k => (w.task .scan).task (.releaseTold d c k)
  | .releaseTold d c k => ((w.relocationReleased x d c k).auditReleased d c k).revisit d c .busy
  | .runRemoved d c => w.sweepDoneWith x d c
  | .mergeTest d c => w.mergeTest x d c
  | .mergeTold ch => w.mergeTold ch
  | .holdStart lo => w.holdStart lo
  | .holdEnd serial => w.holdEnd serial
  | .lookup req => w.lookupStep x req
  | .revisit d c cause => w.revisit d c cause
  | .visit d c => w.visit x d c
  | .sweepEnd => w.sweepEnd x
  | .auditDrained d => w.auditDrained d
  | .auditCleared d => w.revisitDay d .audit
  | .online mc => w.onlineAgain mc
  | .dayLeft _ => w.rewait
  | .packStep g => w.packStep g
  | .reported r cause => w.sweepReported r cause
  | .retiredDone l => w.sweepRetired x l
  | .trimmedDone r n => w.sweepTrimmed x r n
  | .committed ch g => w.commit ch g
  | .applyDropped ch reason n => w.dropBatch ch reason n
  | .resolve => w.resolve x

/-- Consequences carried out oldest first, at most `fuel` of them. -/
def settle (x : Ctx) : Nat → Works → Works
  | 0, w => w
  | n + 1, w =>
    match w.tasks with
    | [] => w
    | t :: l => settle x n (({ w with tasks := l } : Works).runTask x t)

/-- More consequences than any event has (notes/assumptions/29.md). -/
def taskBudget : Nat := 2 ^ 40

/-- The outcome of a command: `s` with the units' state `w` after all its consequences. -/
def State.settled (s : State) (w : Works) : Host.Outcome State Fault Refusal :=
  .next { s with works := settle s.ctx taskBudget w }

end Sys2Proof.Machine
end

