-- ==== Sys2Proof/Machine/Tuning.lean ====
section
/-!
DEFINITION. The tests and effects of CONFIGURE and TUNE (R174, R177): the ranges of the settings, the settings a block gives, and what
each unit does at a TUNE.
-/

namespace Sys2Proof.Machine

/-! ## Ranges -/

/-- A value lies in a range, both ends included. -/
def within (lo v hi : Nat) : Bool := decide (lo ≤ v) && decide (v ≤ hi)

/-- A civil date in the years 1970 .. 2100. -/
def Date.valid (d : Date) : Bool := within 1970 d.year 2100 && within 1 d.month 12 && within 1 d.day (monthDays d.year d.month)

/-- Extents, sensing and times of a media channel (R91, R92). -/
def RawMedia.timesValid (m : RawMedia) : Bool :=
  decide (m.extents ≤ Config.maxExtents) && decide (m.sensing ≤ 1) && within 100 m.program 5000 && within 10 m.read 1000 &&
    within 500 m.clear 50000

/-- Marks of a media channel (R105). -/
def RawMedia.marksValid (m : RawMedia) : Bool := within 1 m.low 100 && within 2 m.high 200 && decide (m.low < m.high)

/-- Routes: a channel per notice kind (R170). -/
def RawSettings.routesValid (b : RawSettings) : Bool := b.routes.all fun r => decide (r ≤ 3)

/-- Watermarks (R171). -/
def RawSettings.watermarksValid (b : RawSettings) : Bool := b.watermarks.toList.all fun n => within 1 n 4096

/-- The value of row `i` of the TUNE table lies in its range (R174). -/
def RawSettings.rowValid (b : RawSettings) : Nat → Bool
  | 0 => within 1 b.stall 255
  | 1 => within 1 b.merge 3600
  | 2 => decide (b.hold ≤ 60)
  | 3 => within 10 b.idle 3600
  | 4 => decide (b.scrub ≤ 10000)
  | 5 => b.media.toList.all RawMedia.marksValid
  | 6 => decide (b.preference ≤ 1)
  | 7 => b.routesValid
  | 8 => b.watermarksValid
  | _ => true

/-- Row `i` of the TUNE table is present (R187). -/
def tunes (mask i : Nat) : Bool := hasBit mask i

/-- The first present row of a TUNE that is at fault. -/
def RawSettings.tuneFault (b : RawSettings) (mask : Nat) : Option Nat :=
  (List.range 9).find? fun i => tunes mask i && !b.rowValid i

/-- Row `i` of the CONFIGURE table is in range (R177). -/
def RawSettings.configureRow (b : RawSettings) : Nat → Bool
  | 0 => b.epoch.valid
  | 1 => decide (b.today ≤ Config.maxDay)
  | 2 => decide (b.closeLag ≤ 7)
  | 3 => b.media.toList.all RawMedia.timesValid && b.media.toList.any fun m => decide (0 < m.extents)
  | 4 => b.rowValid 5
  | 5 => b.rowValid 0 && b.rowValid 1 && b.rowValid 2 && b.rowValid 3 && b.rowValid 4
  | 6 => b.rowValid 6 && b.routesValid && b.watermarksValid
  | _ => b.classes.all RawClass.valid && b.policies.all RawPolicy.valid

/-- The first row of the CONFIGURE table at fault. -/
def RawSettings.configureFault (b : RawSettings) : Option Nat := (List.range 8).find? fun i => !b.configureRow i

/-! ## Settings from a block -/

/-- A media channel's settings. -/
def RawMedia.cfg (m : RawMedia) : MediaCfg :=
  ⟨m.extents, if m.sensing = 0 then .readyLine else .fixedTime, m.program, m.read, m.clear, m.low, m.high⟩

/-- A request channel named by a route in range. -/
def routeOf (n : Nat) : Fin 4 := Fin.ofNat 4 n

/-- The configuration CONFIGURE gives (R177). -/
def RawSettings.cfg (b : RawSettings) : Cfg :=
  let classes := b.classes.map RawClass.entry
  let policies := b.policies.map RawPolicy.policy
  let settings : Settings :=
    { epoch := b.epoch, closeLag := b.closeLag, media := b.media.map RawMedia.cfg, stall := b.stall, merge := b.merge,
      hold := b.hold, idle := b.idle, scrub := b.scrub, preference := b.preference == 1, routes := b.routes.map routeOf,
      watermarks := b.watermarks }
  ⟨settings, some b.today, classes, classes, policies, policies⟩

/-- A media channel with the marks of a block. -/
def MediaCfg.marked (m : MediaCfg) (r : RawMedia) : MediaCfg := { m with low := r.low, high := r.high }

/-- The settings after a TUNE: every present row takes its new value (R174). -/
def Settings.tuned (s : Settings) (mask : Nat) (b : RawSettings) : Settings :=
  let media : Quad MediaCfg :=
    ⟨s.media.c0.marked b.media.c0, s.media.c1.marked b.media.c1, s.media.c2.marked b.media.c2, s.media.c3.marked b.media.c3⟩
  { s with
    stall := if tunes mask 0 then b.stall else s.stall
    merge := if tunes mask 1 then b.merge else s.merge
    hold := if tunes mask 2 then b.hold else s.hold
    idle := if tunes mask 3 then b.idle else s.idle
    scrub := if tunes mask 4 then b.scrub else s.scrub
    media := if tunes mask 5 then media else s.media
    preference := if tunes mask 6 then b.preference == 1 else s.preference
    routes := if tunes mask 7 then b.routes.map routeOf else s.routes
    watermarks := if tunes mask 8 then b.watermarks else s.watermarks }

/-! ## What each unit does at a TUNE (R65, R86, R103, R105, R108, R164, R170) -/

/-- The (day, class) pairs that have late records. -/
def Intake.latePairs (i : Intake) : List (Nat × Nat) := (i.late.map fun r => (dayOf r.call.start, r.call.cls)).eraseDups

/-- The notice kinds whose routes differ. -/
def movedKinds (old new : List (Fin 4)) : List NoticeKind :=
  NoticeKind.all.filter fun k => decide (old.getD k.index 0 ≠ new.getD k.index 0)

/-- The marks changed: the space notices and the relocations are tested. -/
def Works.marksTuned (x : Ctx) (w : Works) : Works :=
  (channels.foldl (fun w mc => w.lowTest x mc) w).addTasks (channels.map Task.relocationTest)

/-- The preference changed: every contest begins anew (R103). -/
def Works.preferenceTuned (w : Works) : Works :=
  channels.foldl (fun w mc => w.mapChan mc fun c => { c with contest := 0, lastForeground := false }) w

/-- A TUNE's effects at the units; `x` has the new settings and `old` are those before. -/
def Works.tuned (x : Ctx) (w : Works) (old : Settings) (mask : Nat) : Works :=
  let w := if tunes mask 0 then w.endStalled x else w
  let w := if tunes mask 1 then w.addTasks (w.intake.latePairs.map fun p => Task.mergeTest p.1 p.2) else w
  let w := if tunes mask 2 then w.holdTuned x else w
  let w := if tunes mask 3 then w.idleTuned x else w
  let w := if old.scrub ≠ x.set.scrub then w.mapScrub fun s => { s with timerFrom := x.clock } else w
  let w := if tunes mask 5 then w.marksTuned x else w
  let w := if old.preference ≠ x.set.preference then w.preferenceTuned else w
  w.postKinds x (movedKinds old.routes x.set.routes)

end Sys2Proof.Machine
end

