-- ==== Sys2Proof/Machine/Commands.lean ====
section
/-!
DEFINITION. What the meanings of the commands share: taking a handed request, moving the clock to a due time, and the part's changes
of the registers, the vectors and the media.
-/

namespace Sys2Proof.Machine

/-- The oldest request of channel `ch` that waits for its owning unit, taken by `f`; the command has no effect when the unit has none,
or when its request is of another kind (notes/assumptions/3.md, 4.md). -/
def State.serve (s : State) (ch : Fin 4) (o : Owner) (f : Req → Option Works) : Host.Outcome State Fault Refusal :=
  match s.works.handed ch o with
  | none => .next s
  | some r => match f r with
    | some w => s.settled w
    | none => .next s

/-- The clock moved on to a moment that has come. -/
def State.clockTo (s : State) (t : Nat) : State := { s with clock := max s.clock t }

/-- A request channel's window changed. -/
def State.mapWindow (s : State) (ch : Fin 4) (f : Window → Window) : State := { s with windows := s.windows.modify ch f }

/-- A request channel's vector changed. -/
def State.mapVector (s : State) (ch : Fin 4) (f : IrqVector → IrqVector) : State := { s with vectors := s.vectors.modify ch f }

/-- A media channel's modules changed. -/
def State.mapMedia (s : State) (mc : Fin 4) (f : Media → Media) : State := { s with media := s.media.modify mc f }

/-- A write of the part to host memory, if there is one. -/
def State.hostPut (s : State) : Option (Nat × Bytes) → State
  | none => s
  | some (a, b) => { s with host := hostWrite s.host a b }

/-- The outcome of an item-wise step: the units' state and a write to host memory. -/
def State.settledWith (s : State) (p : Works × Option (Nat × Bytes)) : Host.Outcome State Fault Refusal := (s.hostPut p.2).settled p.1

end Sys2Proof.Machine
end

