-- ==== Sys2Proof/Machine/PortCommands.lean ====
section
/-!
DEFINITION. The commands of the Request Port (R166 to R175).
-/

namespace Sys2Proof.Machine

/-- PORT_RESET (R173). -/
def execPortReset (s : State) : Host.Outcome State Fault Refusal :=
  let s := { s with windows := .all .initial, vectors := s.vectors.map IrqVector.quiet }
  let port := channels.foldl (fun p ch => p.discard ch) s.works.port
  s.settled ({ s.works with port := port }.amendReset).enquiryReset

/-- An UNSET channel's window after a write of the response ring entries field (R166). -/
def Window.setup (v : Window) (value : BitVec 32) : Window :=
  let v := { v with responseEntries := value }
  if v.valid then
    { v with state := .active, requestFill := 0, requestConsume := 0, responseFill := 0, responseConsume := 0, fetching := false,
             writing := false }
  else { v with responseEntries := 0 }

/-- SETUP_EVENT (R166): a channel that becomes ACTIVE takes its pending notices (R170). -/
def execSetupEvent (ch : Fin 4) (value : BitVec 32) (s : State) : Host.Outcome State Fault Refusal :=
  if (s.windows.get ch).state ≠ .unset then .next s
  else
    let s := s.mapWindow ch fun v => v.setup value
    if (s.windows.get ch).state ≠ .active then .next s
    else
      let mine (k : NoticeKind) : Bool := decide (s.cfg.settings.routes.getD k.index 0 = ch)
      s.settled (s.works.postKinds s.ctx (NoticeKind.all.filter mine))

/-- A write of the request fill index (R166). -/
def Window.fillWrite (v : Window) (value : BitVec 32) : Window :=
  if v.state = .active ∧ (value - v.requestConsume).toNat ≤ v.requestEntries.toNat then { v with requestFill := value } else v

/-- REQUEST_FILL_INDEX_WRITE (R166). -/
def execRequestFillIndexWrite (ch : Fin 4) (value : BitVec 32) (s : State) : Host.Outcome State Fault Refusal :=
  .next (s.mapWindow ch fun v => v.fillWrite value)

/-- A write of the response consume index (R166). -/
def Window.consumeWrite (v : Window) (value : BitVec 32) : Window :=
  if v.state = .active ∧ (value - v.responseConsume).toNat ≤ v.unconsumed then { v with responseConsume := value } else v

/-- RESPONSE_CONSUME_INDEX_WRITE (R166). -/
def execResponseConsumeIndexWrite (ch : Fin 4) (value : BitVec 32) (s : State) : Host.Outcome State Fault Refusal :=
  .next (s.mapWindow ch fun v => v.consumeWrite value)

/-- A write of another window field: stored while the channel is UNSET; the part's own indices take no write (R166). -/
def Window.fieldWrite (v : Window) (field : WindowField) (value : BitVec 64) : Window :=
  if v.state ≠ .unset then v
  else match field with
    | .requestBase => { v with requestBase := value }
    | .requestEntries => { v with requestEntries := value.setWidth 32 }
    | .responseBase => { v with responseBase := value }
    | .requestConsume => v
    | .responseFill => v
    | .pad => v

/-- REGISTER_WRITE (R166). -/
def execRegisterWrite (ch : Fin 4) (field : WindowField) (value : BitVec 64) (s : State) : Host.Outcome State Fault Refusal :=
  .next (s.mapWindow ch fun v => v.fieldWrite field value)

/-- VECTOR_MASK (R171). -/
def execVectorMask (ch : Fin 4) (s : State) : Host.Outcome State Fault Refusal :=
  .next (s.mapVector ch fun v => { v with masked := true })

/-- A vector unmasked: a held one is delivered (R171). -/
def IrqVector.unmask (v : IrqVector) : IrqVector :=
  { v with masked := false, held := false, delivered := if v.held then v.delivered + 1 else v.delivered }

/-- VECTOR_UNMASK (R171). -/
def execVectorUnmask (ch : Fin 4) (s : State) : Host.Outcome State Fault Refusal := .next (s.mapVector ch IrqVector.unmask)

/-- Whether a channel fetches its next request record (R167). -/
def State.fetches (s : State) (ch : Fin 4) : Bool :=
  let v := s.windows.get ch
  decide (v.state = .active) && !v.fetching && decide (0 < v.outstanding) && decide (s.works.port.inProgress ch < Config.inProgress)

/-- REQUEST_FETCH (R167). -/
def execRequestFetch (ch : Fin 4) (s : State) : Host.Outcome State Fault Refusal :=
  .next (if s.fetches ch then s.mapWindow ch fun v => { v with fetching := true } else s)

/-- Whether the part state serves a request (R167, R176). -/
def PartState.serves : PartState → Request → Bool
  | .running, _ => true
  | .starting, .configure _ => true
  | .starting, .status => true
  | .rebuilding, .status => true
  | _, _ => false

/-- A fetched request settled by the first case that holds (R167, R184). -/
def Works.admitRequest (w : Works) (ch : Fin 4) (record buffer : Bytes) : Works :=
  let tag := recordTag record
  if !inputPasses record || decide (tag = 0) then w.portRefuse ch tag .malformed
  else match Request.ofBytes record buffer with
    | none => w.portRefuse ch tag .malformed
    | some q => if w.part.serves q then w.handOver ch record q else w.portRefuse ch tag .notReady

/-- FETCH_DONE (R167). -/
def execFetchDone (ch : Fin 4) (record buffer : Bytes) (s : State) : Host.Outcome State Fault Refusal :=
  let v := s.windows.get ch
  if v.state ≠ .active ∨ !v.fetching then .next s
  else
    let s := s.mapWindow ch fun v => { v with fetching := false, requestConsume := v.requestConsume + 1 }
    s.settled (s.works.admitRequest ch record buffer)

/-- Whether a channel starts a response write (R169). -/
def State.writes (s : State) (ch : Fin 4) : Bool :=
  let v := s.windows.get ch
  decide (v.state = .active) && !v.writing && decide (s.works.port.out.get ch ≠ []) && decide (v.unconsumed < v.responseEntries.toNat)

/-- RESPONSE_WRITE (R169). -/
def execResponseWrite (ch : Fin 4) (s : State) : Host.Outcome State Fault Refusal :=
  .next (if s.writes ch then s.mapWindow ch fun v => { v with writing := true } else s)

/-- The host address of the place that the response fill index names. -/
def Window.responsePlace (v : Window) : Nat := v.responseBase.toNat + 32 * (v.responseFill.toNat % v.responseEntries.toNat)

/-- A channel's interrupt state after a response write that leaves `unconsumed` responses (R171). -/
def IrqVector.written (v : IrqVector) (unconsumed watermark : Nat) : IrqVector :=
  let v := { v with unsignalled := v.unsignalled + 1, measuring := true }
  if watermark ≤ unconsumed then v.fire else v

/-- RESPONSE_WRITE_DONE (R169, R171). -/
def execResponseWriteDone (ch : Fin 4) (s : State) : Host.Outcome State Fault Refusal :=
  let v := s.windows.get ch
  if v.state ≠ .active ∨ !v.writing then .next s
  else match s.works.port.out.get ch with
    | [] => .next s
    | resp :: l =>
      let s := s.hostPut (some (v.responsePlace, resp.bytes))
      let s := s.mapWindow ch fun v => { v with writing := false, responseFill := v.responseFill + 1 }
      let v := s.windows.get ch
      let mark := min (s.cfg.settings.watermarks.get ch) v.responseEntries.toNat
      let s := s.mapVector ch fun i => i.written v.unconsumed mark
      let w := { s.works with port := { s.works.port with out := s.works.port.out.set ch l } }
      s.settled (w.givePlace s.ctx ch)

/-- INTERRUPT_DELAY_EXPIRY (R171). -/
def execInterruptDelayExpiry (ch : Fin 4) (s : State) : Host.Outcome State Fault Refusal :=
  let i := s.vectors.get ch
  if (s.windows.get ch).state = .active ∧ i.measuring ∧ 0 < i.unsignalled then .next (s.mapVector ch IrqVector.fire) else .next s

/-- Whether an access of a kind can be under way on a channel (R172). -/
def Window.accesses (v : Window) : HostAccess → Bool
  | .ringFetch => decide (v.state = .active) && v.fetching
  | .responseWrite => decide (v.state = .active) && v.writing
  | .buffer => decide (v.state = .active)

/-- HOST_ACCESS_FAILURE (R172). -/
def execHostAccessFailure (ch : Fin 4) (access : HostAccess) (s : State) : Host.Outcome State Fault Refusal :=
  if !(s.windows.get ch).accesses access then .next s
  else
    let s := s.mapWindow ch fun v => { v with state := .stopped, fetching := false, writing := false }
    let s := s.mapVector ch IrqVector.quiet
    s.settled { s.works with port := s.works.port.discard ch }

/-- BUFFER_WRITE_DONE (R163, R174, R175): the oldest report of the channel stands in its buffer and its request is answered DONE. -/
def execBufferWriteDone (ch : Fin 4) (s : State) : Host.Outcome State Fault Refusal :=
  match s.works.port.writes.find? fun b => decide (b.ch = ch) with
  | none => .next s
  | some b =>
    let s := s.hostPut (some (b.addr, b.bytes))
    let left := s.works.port.writes.filter fun c => decide (c.req ≠ b.req)
    s.settled ({ s.works with port := { s.works.port with writes := left } }.done b.req b.result)

/-- STATUS (R175). -/
def execStatus (ch : Fin 4) (s : State) : Host.Outcome State Fault Refusal :=
  s.serve ch .port fun r =>
    match r.request with
    | .status =>
      some (if r.holds 1152 then s.works.report r.id (statusReport s.ctx s.works) .empty else s.works.refuse r.id .malformed)
    | _ => none

/-- The part with the settings of a TUNE in force. -/
def State.tuned (s : State) (mask : Nat) (b : RawSettings) : State :=
  { s with cfg := { s.cfg with settings := s.cfg.settings.tuned mask b } }

/-- TUNE (R174). -/
def execTune (ch : Fin 4) (s : State) : Host.Outcome State Fault Refusal :=
  match s.works.handed ch .port with
  | none => .next s
  | some r =>
    match r.request with
    | .tune mask b =>
      match b.tuneFault mask with
      | some row => s.settled (s.works.refuseWith r.id .malformed (.named row))
      | none =>
        let t := s.tuned mask b
        t.settled ((t.works.tuned t.ctx s.cfg.settings mask).report r.id t.cfg.block .empty)
    | _ => .next s

end Sys2Proof.Machine
end

