-- ==== Sys2Proof/Machine/StartCommands.lean ====
section
/-!
DEFINITION. The commands of start-up and rebuild (R176 to R182).
-/

namespace Sys2Proof.Machine

/-- What a loss of power leaves of the operations in progress: for each media channel whose operation the event says was torn. -/
def State.tear (s : State) (torn : List (Fin 4 × Torn)) : Quad Media :=
  torn.foldl (fun m t =>
    match (s.works.chan t.1).busy with
    | some o => m.modify t.1 fun d => d.torn o t.2
    | none => m) s.media

/-- POWER_ON (R176): every volatile state at its power-on value. -/
def execPowerOn (torn : List (Fin 4 × Torn)) (s : State) : Host.Outcome State Fault Refusal :=
  .next { State.reset with pending := s.pending, host := s.host, media := s.tear torn }

/-- CONFIGURE (R177). -/
def execConfigure (ch : Fin 4) (s : State) : Host.Outcome State Fault Refusal :=
  match s.works.handed ch .startUp with
  | none => .next s
  | some r =>
    match r.request with
    | .configure b =>
      if s.works.part ≠ .starting then s.settled (s.works.refuse r.id .state)
      else match b.configureFault with
        | some row => s.settled (s.works.refuseWith r.id .malformed (.named (Config.configureSettingNumber row)))
        | none =>
          let t := { s with cfg := b.cfg }
          t.settled ((t.works.restart t.ctx).done r.id .empty)
    | _ => .next s

/-- ARCHIVE_RESET (R182). -/
def execArchiveReset (ch : Fin 4) (s : State) : Host.Outcome State Fault Refusal :=
  s.serve ch .startUp fun r =>
    match r.request with
    | .archiveReset => some (s.works.archiveReset s.ctx r)
    | _ => none

/-- REBUILD_SCAN (R178). -/
def execRebuildScan (s : State) : Host.Outcome State Fault Refusal :=
  if s.works.part = .rebuilding ∧ !s.works.rebuild.resolved then s.settled (s.works.rebuildScan s.ctx) else .next s

end Sys2Proof.Machine
end

