-- ==== Sys2Proof/Machine/IntakeCommands.lean ====
section
/-!
DEFINITION. The commands of the Intake Unit (R54 to R74).
-/

namespace Sys2Proof.Machine

/-- OPEN_FILE (R56). -/
def execOpenFile (ch : Fin 4) (s : State) : Host.Outcome State Fault Refusal :=
  s.serve ch .intake fun r =>
    match r.request with
    | .openFile source fileId kind cls day first => some (s.works.openFile r source fileId kind cls day first)
    | _ => none

/-- INGEST_PARCEL (R58). -/
def execIngestParcel (ch : Fin 4) (s : State) : Host.Outcome State Fault Refusal :=
  s.serve ch .intake fun r =>
    match r.request with
    | .ingestParcel source fileId sequence start listLength records =>
      some (s.works.ingest r source fileId sequence start listLength records)
    | _ => none

/-- CLOSE_FILE (R66, R72). -/
def execCloseFile (ch : Fin 4) (s : State) : Host.Outcome State Fault Refusal :=
  s.serve ch .intake fun r =>
    match r.request with
    | .closeFile source fileId declared => some (s.works.closeFile s.ctx r source fileId declared)
    | _ => none

/-- ABANDON_FILE (R69). -/
def execAbandonFile (ch : Fin 4) (s : State) : Host.Outcome State Fault Refusal :=
  s.serve ch .intake fun r =>
    match r.request with
    | .abandonFile source fileId => some (s.works.abandonFile r source fileId)
    | _ => none

/-- FORGET_FILE (R70). -/
def execForgetFile (ch : Fin 4) (s : State) : Host.Outcome State Fault Refusal :=
  s.serve ch .intake fun r =>
    match r.request with
    | .forgetFile source fileId => some (s.works.forgetFile r source fileId)
    | _ => none

/-- FILE_STATE (R68). -/
def execFileState (ch : Fin 4) (s : State) : Host.Outcome State Fault Refusal :=
  s.serve ch .intake fun r =>
    match r.request with
    | .fileState source fileId => some (s.works.fileState r source fileId)
    | _ => none

/-- RECORD_INTAKE_EVENT (R60 to R65). -/
def execRecordIntakeEvent (fileSlot : Nat) (s : State) : Host.Outcome State Fault Refusal :=
  s.settledWith (s.works.recordIntake s.ctx fileSlot)

/-- RESTORE_RECORD_INTAKE (R71). -/
def execRestoreRecordIntake (fileSlot : Nat) (s : State) : Host.Outcome State Fault Refusal :=
  s.settledWith (s.works.restoreIntake fileSlot)

/-- STALL_LIMIT (R65). -/
def execStallLimit (fileSlot : Nat) (s : State) : Host.Outcome State Fault Refusal :=
  match ((s.works.file fileSlot).bind (·.parcel)).bind (·.stallAt s.ctx) with
  | none => .next s
  | some t => (s.clockTo t).settled (s.works.endParcel fileSlot .partly (some .busy))

end Sys2Proof.Machine
end

