-- ==== Sys2Proof/Machine/CatalogueCommands.lean ====
section
/-!
DEFINITION. The commands of the Catalogue (R50 to R53).
-/

namespace Sys2Proof.Machine

/-- CLOSE_DAY (R52). -/
def execCloseDay (ch : Fin 4) (s : State) : Host.Outcome State Fault Refusal :=
  s.serve ch .catalogue fun r =>
    match r.request with
    | .closeDay d =>
      some (match s.works.day d with
        | none => s.works.refuse r.id .notFound
        | some e =>
          let w := if e.state = .opened then s.works.beginClosing d else s.works
          w.done r.id (.dayState (((w.day d).map (·.state)).getD .closed)))
    | _ => none

/-- Whether a new today is out of order (R50). -/
def rollRefused (today new : Nat) : Bool := decide (new ≤ today) || decide (today + 31 < new) || decide (Config.maxDay < new)

/-- The configuration after the day-roll event: today and the current tables (R51, R144). -/
def Cfg.roll (c : Cfg) (today : Nat) : Cfg :=
  { c with today := some today, classes := c.pendingClasses, policies := c.pendingPolicies }

/-- The days that begin closing at a roll to `today`, ascending (R51). -/
def Works.daysToClose (w : Works) (closeLag today : Nat) : List Nat :=
  (w.days.filter fun p => decide (p.2.state = .opened) && decide (p.1 + closeLag < today)).map (·.1)

/-- The day-roll event at the units; `x` has the new configuration (R51). -/
def Works.roll (x : Ctx) (w : Works) (closing : List Nat) : Works :=
  let w := closing.foldl (fun w d => w.beginClosing d) w
  ((w.autoRelease x.today).startSweep x).2

/-- DAY_ROLL (R50). -/
def execDayRoll (ch : Fin 4) (s : State) : Host.Outcome State Fault Refusal :=
  match s.works.handed ch .catalogue with
  | none => .next s
  | some r =>
    match r.request with
    | .dayRoll new =>
      if rollRefused (s.cfg.today.getD 0) new then s.settled (s.works.refuse r.id .dayOrder)
      else
        let t := { s with cfg := s.cfg.roll new }
        let closing := t.works.daysToClose t.cfg.settings.closeLag new
        t.settled ((t.works.roll t.ctx closing).done r.id (.rolled new closing.length))
    | _ => .next s

/-- DAY_STATE (R53). -/
def execDayState (ch : Fin 4) (s : State) : Host.Outcome State Fault Refusal :=
  s.serve ch .catalogue fun r =>
    match r.request with
    | .dayState d =>
      some (if !r.holds 760 then s.works.refuse r.id .malformed
        else match s.works.day d with
          | none => s.works.refuse r.id .notFound
          | some e => s.works.report r.id (e.report d s.cfg.today) .empty)
    | _ => none

end Sys2Proof.Machine
end

