-- ==== Sys2Proof/Machine/PackerCommands.lean ====
section
/-!
DEFINITION. The commands of the Packer (R75 to R90).
-/

namespace Sys2Proof.Machine

/-- The group of a day whose reads are answered and whose record sequences are still to be formed (R79, R81). -/
def Works.packingGroup (w : Works) (day : Nat) : Option Group :=
  w.packer.groups.find? fun g => decide (g.day = day) && decide (g.phase = .packing) && decide (g.todo = []) &&
    decide (g.current = none) && decide (g.packed = [])

/-- PACKING (R81 to R83). -/
def execPacking (day : Nat) (s : State) : Host.Outcome State Fault Refusal :=
  match s.works.packingGroup day with
  | none => .next s
  | some g => s.settled (s.works.beginPacking g.id)

/-- MERGE_DELAY_EXPIRY (R86). -/
def execMergeDelayExpiry (day cls : Nat) (s : State) : Host.Outcome State Fault Refusal :=
  match s.works.mergeExpiry s.ctx day cls with
  | none => .next s
  | some t =>
    let s := s.clockTo t
    s.settled (s.works.mergeTest s.ctx day cls)

end Sys2Proof.Machine
end

