-- ==== Sys2Proof/Machine/ArrayCommands.lean ====
section
/-!
DEFINITION. The commands of the Array Controller: the ends of operations on the media channels, faults, probes and the relocation walk
(R91 to R108).
-/

namespace Sys2Proof.Machine

/-- Whether a program's end reports its status as passed. -/
def programOk : ProgramEnd → Bool
  | .passed => true
  | .failed _ => false

/-- Whether a mark's end reports its status as passed. -/
def markOk : MarkEnd → Bool
  | .passed => true
  | .failed _ => false

/-- Whether a clear's end reports its status as passed. -/
def clearOk : ClearEnd → Bool
  | .passed => true
  | .failed _ => false

/-- What a media read gave, if its status passed. -/
def readImage (stored : Cell) : ReadEnd → Option Bytes
  | .asStored => stored.image
  | .altered image => some image
  | .statusFailed => none

/-- PROGRAM_DONE (R99, R106). The result of an operation that an ARCHIVE RESET overtook is discarded (R103). -/
def execProgramDone (mc : Fin 4) (result : ProgramEnd) (s : State) : Host.Outcome State Fault Refusal :=
  match (s.works.chan mc).busy with
  | none => .next s
  | some o =>
    match o.kind with
    | .program post idx image =>
      let s := s.mapMedia mc fun m => m.programmed idx image result
      s.settled (if o.stray then s.works.opEnded mc else s.works.programEnded s.ctx mc post idx (programOk result))
    | .copy idx image source =>
      let s := s.mapMedia mc fun m => m.programmed idx image result
      s.settled (if o.stray then s.works.opEnded mc else s.works.copyEnded s.ctx mc idx source (programOk result))
    | _ => .next s

/-- MEDIA_READ_DONE (R100, R178). -/
def execMediaReadDone (mc : Fin 4) (result : ReadEnd) (s : State) : Host.Outcome State Fault Refusal :=
  match (s.works.chan mc).busy with
  | none => .next s
  | some o =>
    match o.kind with
    | .read idx who again =>
      let m := s.media.get mc
      s.settled (
        if o.stray then s.works.opEnded mc
        else if who.any fun r => decide (r.1 = .rebuild) then
          s.works.scanRead s.ctx mc o idx who again (scanFound ⟨mc, idx⟩ (m.retired.contains (extOf idx)) (m.cell idx) result)
        else s.works.readEnded s.ctx mc o idx who again (readImage (m.cell idx) result))
    | _ => .next s

/-- A mark that failed is made once more, with its original arrival time (R104, R107), which R103 states of reads alone (DESIGN CHOICE,
notes/assumptions/52.md). -/
def Works.markAgain (w : Works) (mc : Fin 4) (o : Op) : Works :=
  (w.mapChan mc fun c => { c.repeatOp o with busy := none }).task (.grant mc)

/-- VOID_MARK_DONE (R104). The slot becomes STALE and its image is detached at the end of the repeat, not at a first failed completion
(DESIGN CHOICE, notes/assumptions/53.md). -/
def execVoidMarkDone (mc : Fin 4) (result : MarkEnd) (s : State) : Host.Outcome State Fault Refusal :=
  match (s.works.chan mc).busy with
  | none => .next s
  | some o =>
    match o.kind with
    | .voidMark idx who again =>
      let s := s.mapMedia mc fun m => m.voided idx result
      s.settled (
        if o.stray then s.works.opEnded mc
        else if markOk result || again then s.works.voidEnded s.ctx mc idx who !(markOk result)
        else s.works.markAgain mc { o with kind := .voidMark idx who true })
    | _ => .next s

/-- CLEAR_DONE (R107). -/
def execClearDone (mc : Fin 4) (result : ClearEnd) (s : State) : Host.Outcome State Fault Refusal :=
  match (s.works.chan mc).busy with
  | none => .next s
  | some o =>
    match o.kind with
    | .clear e =>
      let s := s.mapMedia mc fun m => m.clearDone e result
      s.settled (
        if o.stray then s.works.opEnded mc
        else if clearOk result then s.works.cleared s.ctx mc e
        else (s.works.askOp mc (.retireMark e false) false).opEnded mc)
    | _ => .next s

/-- RETIRE_MARK_DONE (R107). -/
def execRetireMarkDone (mc : Fin 4) (result : MarkEnd) (s : State) : Host.Outcome State Fault Refusal :=
  match (s.works.chan mc).busy with
  | none => .next s
  | some o =>
    match o.kind with
    | .retireMark e again =>
      let s := s.mapMedia mc fun m => m.retireMarked e result
      s.settled (
        if o.stray then s.works.opEnded mc
        else if markOk result || again then s.works.retired s.ctx mc e
        else s.works.markAgain mc { o with kind := .retireMark e true })
    | _ => .next s

/-- READY_TIMEOUT (R92, R93): only a READY-LINE channel has one. -/
def execReadyTimeout (mc : Fin 4) (torn : Torn) (s : State) : Host.Outcome State Fault Refusal :=
  match (s.works.chan mc).busy with
  | none => .next s
  | some o =>
    if (s.cfg.settings.media.get mc).sensing ≠ .readyLine then .next s
    else
      let s := s.mapMedia mc fun m => m.torn o torn
      s.settled (s.works.fault s.ctx mc)

/-- PROBE (R94): an OFFLINE channel is probed every 10 s. -/
def execProbe (mc : Fin 4) (s : State) : Host.Outcome State Fault Refusal :=
  let c := s.works.chan mc
  if (s.cfg.settings.media.get mc).extents = 0 ∨ c.online ∨ c.probing then .next s
  else
    (s.clockTo c.probeDue).settled
      (s.works.mapChan mc fun c => { c with probing := true, probeDue := c.probeDue + Config.probeMs })

/-- PROBE_READY (R94). -/
def execProbeReady (mc : Fin 4) (s : State) : Host.Outcome State Fault Refusal :=
  if (s.works.chan mc).probing then s.settled (s.works.probeReady s.ctx mc) else .next s

/-- PROBE_FAILED (R94). -/
def execProbeFailed (mc : Fin 4) (s : State) : Host.Outcome State Fault Refusal :=
  if (s.works.chan mc).probing then s.settled (s.works.mapChan mc fun c => { c with probing := false }) else .next s

/-- RELOCATION_WALK (R106). -/
def execRelocationWalk (mc : Fin 4) (s : State) : Host.Outcome State Fault Refusal :=
  s.settled (s.works.relocationStep s.ctx mc)

end Sys2Proof.Machine
end

