-- ==== Sys2Proof/Machine/EnquiryCommands.lean ====
section
/-!
DEFINITION. The commands of the Enquiry Unit (R109 to R124).
-/

namespace Sys2Proof.Machine

/-- A visibility's code (R187). -/
def Visibility.ofCode : Nat → Option Visibility
  | 0 => some .wait
  | 1 => some .pass
  | _ => none

/-- The services of a filter byte: bit `s` for service `s` (R187). -/
def filterOf (bits : Nat) : List Service := ((List.range 8).filter fun i => hasBit bits i).map Service.ofCode

/-- The lowest FREE cursor. -/
def Works.freeNumber (w : Works) : Option Nat := cursorNumbers.find? fun n => !(w.cursor n).opened

/-- OPEN CURSOR (R113). -/
def Works.openCursor (x : Ctx) (w : Works) (r : Req) (account fromDay toDay : Nat) (filter : Option Nat) (visibility : Nat) : Works :=
  match Visibility.ofCode visibility with
  | none => w.refuse r.id .malformed
  | some v =>
    if !accountValid account || decide (Config.maxDay < fromDay) || decide (Config.maxDay < toDay) || decide (toDay < fromDay) ||
        decide (filter = some 0) then w.refuse r.id .malformed
    else match w.freeNumber with
      | none => w.refuse r.id .tableFull
      | some n =>
        let g := ((w.cursor n).generation + 1) % 65536
        (w.setCursor n
          { Cursor.free with
            opened := true, generation := g, account := account, fromDay := fromDay, toDay := toDay,
            filter := filter.map filterOf, visibility := v, lastUse := x.clock }).done r.id (.cursor n g)

/-- OPEN_CURSOR (R113). -/
def execOpenCursor (ch : Fin 4) (s : State) : Host.Outcome State Fault Refusal :=
  s.serve ch .enquiry fun r =>
    match r.request with
    | .openCursor account fromDay toDay filter visibility =>
      some (s.works.openCursor s.ctx r account fromDay toDay filter visibility)
    | _ => none

/-- CLOSE CURSOR (R122). -/
def Works.closeCursor (w : Works) (r : Req) (n generation : Nat) : Works :=
  if 15 < n then w.refuse r.id .malformed
  else if !w.handle n generation then w.refuse r.id .state
  else if (w.cursor n).reading.isSome then w.refuse r.id .busy
  else (w.freeCursor n).done r.id .empty

/-- CLOSE_CURSOR (R122). -/
def execCloseCursor (ch : Fin 4) (s : State) : Host.Outcome State Fault Refusal :=
  s.serve ch .enquiry fun r =>
    match r.request with
    | .closeCursor n generation => some (s.works.closeCursor r n generation)
    | _ => none

/-- READ CURSOR in a mode (R114). -/
def Works.readCursor (w : Works) (r : Req) (number generation : Nat) (mode : ReadMode) (n : Nat) : Works :=
  let need := if mode.peeks then 64 else 64 * n
  if 15 < number ∨ (!mode.peeks ∧ !within 1 n 256) ∨ !r.holds need then w.refuse r.id .malformed
  else if !w.handle number generation then w.refuse r.id .state
  else if (w.cursor number).reading.isSome then w.refuse r.id .busy
  else (w.setCursor number ((w.cursor number).beginRead r.id mode n)).take r.id

/-- FORWARD (R116); a READ CURSOR of an unknown mode is refused here (R114). -/
def execForward (ch : Fin 4) (s : State) : Host.Outcome State Fault Refusal :=
  s.serve ch .enquiry fun r =>
    match r.request with
    | .readCursor number generation mode n _ =>
      if mode = 0 then some (s.works.readCursor r number generation .forward n)
      else if 3 < mode then some (s.works.refuse r.id .malformed)
      else none
    | _ => none

/-- SKIP_FORWARD (R116). -/
def execSkipForward (ch : Fin 4) (s : State) : Host.Outcome State Fault Refusal :=
  s.serve ch .enquiry fun r =>
    match r.request with
    | .readCursor number generation mode n _ =>
      if mode = 1 then some (s.works.readCursor r number generation .skipForward n) else none
    | _ => none

/-- BACKWARD (R117). -/
def execBackward (ch : Fin 4) (s : State) : Host.Outcome State Fault Refusal :=
  s.serve ch .enquiry fun r =>
    match r.request with
    | .readCursor number generation mode n _ =>
      if mode = 2 then some (s.works.readCursor r number generation .backward n) else none
    | _ => none

/-- PEEK (R117). -/
def execPeek (ch : Fin 4) (s : State) : Host.Outcome State Fault Refusal :=
  s.serve ch .enquiry fun r =>
    match r.request with
    | .readCursor number generation mode n k =>
      if mode = 3 then some (s.works.readCursor r number generation (.peek k) n) else none
    | _ => none

/-- LOOKUP CALL taken (R123). -/
def Works.lookupCall (w : Works) (r : Req) (id : Identity) (visibility : Nat) : Works :=
  match Visibility.ofCode visibility with
  | none => w.refuse r.id .malformed
  | some v =>
    if Config.maxDay < id.day ∨ !accountValid id.account ∨ !r.holds 64 then w.refuse r.id .malformed
    else
      let l : Lookup := ⟨r.id, id, v, [], [], .none⟩
      (({ w with enquiry := { w.enquiry with lookups := w.enquiry.lookups ++ [l] } }).take r.id).task (.lookup r.id)

/-- LOOKUP_CALL (R123). -/
def execLookupCall (ch : Fin 4) (s : State) : Host.Outcome State Fault Refusal :=
  s.serve ch .enquiry fun r =>
    match r.request with
    | .lookupCall id visibility => some (s.works.lookupCall r id visibility)
    | _ => none

/-- READ_STEP (R115 to R119). -/
def execReadStep (cursor : Fin 16) (s : State) : Host.Outcome State Fault Refusal :=
  s.settledWith (s.works.readStep s.ctx cursor.val)

/-- WAIT_LIMIT (R118, R123). -/
def execWaitLimit (waiter : Waiter) (s : State) : Host.Outcome State Fault Refusal :=
  match waiter with
  | .cursor n =>
    match (s.works.cursor n.val).waitAt s.ctx with
    | none => .next s
    | some t =>
      let s := s.clockTo t
      s.settled (s.works.waitEnds s.ctx n.val)
  | .lookup req =>
    match (s.works.enquiry.lookups.find? fun l => decide (l.req = req)).bind fun l => l.waitAt s.ctx with
    | none => .next s
    | some t => (s.clockTo t).settled (s.works.lookupRefused req .busy .empty)

/-- HOLD_WINDOW_EXPIRY (R121). -/
def execHoldWindowExpiry (cursor : Fin 16) (s : State) : Host.Outcome State Fault Refusal :=
  match (s.works.cursor cursor.val).holdAt s.ctx with
  | none => .next s
  | some t => (s.clockTo t).settled (s.works.dropPrefetch cursor.val)

/-- IDLE_EXPIRY (R122). -/
def execIdleExpiry (cursor : Fin 16) (s : State) : Host.Outcome State Fault Refusal :=
  match (s.works.cursor cursor.val).idleAt s.ctx with
  | none => .next s
  | some t => (s.clockTo t).settled (s.works.freeCursor cursor.val)

end Sys2Proof.Machine
end

