-- ==== Sys2Proof/Machine/AmendCommands.lean ====
section
/-!
DEFINITION. The commands of the Amendment Unit (R125 to R140).
-/

namespace Sys2Proof.Machine

/-- AMEND without the close mark (R127). -/
def execAmend (ch : Fin 4) (s : State) : Host.Outcome State Fault Refusal :=
  s.serve ch .amendment fun r =>
    match r.request with
    | .amend close _ entries => if close then none else some (s.works.amendCollect r entries)
    | _ => none

/-- AMEND_CLOSE: AMEND with the close mark (R128). -/
def execAmendClose (ch : Fin 4) (s : State) : Host.Outcome State Fault Refusal :=
  s.serve ch .amendment fun r =>
    match r.request with
    | .amend close net entries => if close then some (s.works.amendClose r net entries) else none
    | _ => none

/-- ABANDON_BATCH (R129). -/
def execAbandonBatch (ch : Fin 4) (s : State) : Host.Outcome State Fault Refusal :=
  s.serve ch .amendment fun r =>
    match r.request with
    | .abandonBatch => some (s.works.abandonBatch r)
    | _ => none

end Sys2Proof.Machine
end

