-- ==== Sys2Proof/Machine/RetentionCommands.lean ====
section
/-!
DEFINITION. The commands of the Retention Unit (R141 to R157).
-/

namespace Sys2Proof.Machine

/-- SET_CLASS_TABLE (R143). -/
def execSetClassTable (ch : Fin 4) (s : State) : Host.Outcome State Fault Refusal :=
  match s.works.handed ch .retention with
  | none => .next s
  | some r =>
    match r.request with
    | .setClassTable entries =>
      match firstIndex (fun e : RawClass => !e.valid) 0 entries with
      | some n => s.settled (s.works.refuseWith r.id .malformed (.named n))
      | none =>
        let t := { s with cfg := { s.cfg with pendingClasses := entries.map RawClass.entry } }
        t.settled (t.works.done r.id .empty)
    | _ => .next s

/-- SET_POLICY (R143). -/
def execSetPolicy (ch : Fin 4) (s : State) : Host.Outcome State Fault Refusal :=
  match s.works.handed ch .retention with
  | none => .next s
  | some r =>
    match r.request with
    | .setPolicy policies =>
      match firstIndex (fun p : RawPolicy => !p.valid) 0 policies with
      | some n => s.settled (s.works.refuseWith r.id .malformed (.named n))
      | none =>
        let t := { s with cfg := { s.cfg with pendingPolicies := policies.map RawPolicy.policy } }
        t.settled (t.works.done r.id .empty)
    | _ => .next s

/-- PLACE_HOLD (R149). -/
def execPlaceHold (ch : Fin 4) (s : State) : Host.Outcome State Fault Refusal :=
  s.serve ch .retention fun r =>
    match r.request with
    | .placeHold account kind release => some (s.works.placeHold s.ctx r account kind release)
    | _ => none

/-- RELEASE_HOLD (R150). -/
def execReleaseHold (ch : Fin 4) (s : State) : Host.Outcome State Fault Refusal :=
  s.serve ch .retention fun r =>
    match r.request with
    | .releaseHold account kind => some (s.works.releaseHoldReq r account kind)
    | _ => none

/-- HOLD_STATE (R152). -/
def execHoldState (ch : Fin 4) (s : State) : Host.Outcome State Fault Refusal :=
  s.serve ch .retention fun r =>
    match r.request with
    | .holdState account => some (s.works.holdState r account)
    | _ => none

/-- SWEEP (R153). -/
def execSweep (ch : Fin 4) (s : State) : Host.Outcome State Fault Refusal :=
  s.serve ch .retention fun r =>
    match r.request with
    | .sweep => some (s.works.sweepReq s.ctx r)
    | _ => none

/-- SWEEP_WALK (R154). -/
def execSweepWalk (s : State) : Host.Outcome State Fault Refusal := s.settled (s.works.sweepWalk s.ctx)

end Sys2Proof.Machine
end

