-- ==== Sys2Proof/Machine/AuditCommands.lean ====
section
/-!
DEFINITION. The commands of the Audit Unit (R158 to R165).
-/

namespace Sys2Proof.Machine

/-- AUDIT_DAY (R159). -/
def execAuditDay (ch : Fin 4) (s : State) : Host.Outcome State Fault Refusal :=
  s.serve ch .audit fun r =>
    match r.request with
    | .auditDay d => some (s.works.auditDay r d)
    | _ => none

/-- AUDIT_WALK (R160). -/
def execAuditWalk (s : State) : Host.Outcome State Fault Refusal := s.settled (s.works.auditWalk s.ctx)

/-- SCRUB_TIMER_EXPIRY (R164): the timer runs while the part is RUNNING and the interval is above 0. -/
def execScrubTimerExpiry (s : State) : Host.Outcome State Fault Refusal :=
  if s.works.part ≠ .running ∨ s.cfg.settings.scrub = 0 then .next s
  else
    let s := s.clockTo (s.works.scrub.timerFrom + s.cfg.settings.scrub)
    s.settled (s.works.scrubExpiry s.clock)

end Sys2Proof.Machine
end

