-- ==== Sys2Proof/Machine/Dispatch.lean ====
section
/-!
DEFINITION. The meaning of every command: one arm per constructor of `Instr`.
-/

namespace Sys2Proof.Machine

/-- The effect of a command on everything but the queue. -/
def exec (i : Instr) (s : State) : Host.Outcome State Fault Refusal :=
  match i with
  | .powerOn torn => Sys2Proof.Machine.execPowerOn torn s
  | .portReset => Sys2Proof.Machine.execPortReset s
  | .setupEvent ch value => Sys2Proof.Machine.execSetupEvent ch value s
  | .requestFillIndexWrite ch value => Sys2Proof.Machine.execRequestFillIndexWrite ch value s
  | .responseConsumeIndexWrite ch value => Sys2Proof.Machine.execResponseConsumeIndexWrite ch value s
  | .registerWrite ch field value => Sys2Proof.Machine.execRegisterWrite ch field value s
  | .vectorUnmask ch => Sys2Proof.Machine.execVectorUnmask ch s
  | .requestFetch ch => Sys2Proof.Machine.execRequestFetch ch s
  | .fetchDone ch record buffer => Sys2Proof.Machine.execFetchDone ch record buffer s
  | .responseWrite ch => Sys2Proof.Machine.execResponseWrite ch s
  | .responseWriteDone ch => Sys2Proof.Machine.execResponseWriteDone ch s
  | .interruptDelayExpiry ch => Sys2Proof.Machine.execInterruptDelayExpiry ch s
  | .hostAccessFailure ch access => Sys2Proof.Machine.execHostAccessFailure ch access s
  | .bufferWriteDone ch => Sys2Proof.Machine.execBufferWriteDone ch s
  | .abandonBatch ch => Sys2Proof.Machine.execAbandonBatch ch s
  | .abandonFile ch => Sys2Proof.Machine.execAbandonFile ch s
  | .amend ch => Sys2Proof.Machine.execAmend ch s
  | .amendClose ch => Sys2Proof.Machine.execAmendClose ch s
  | .archiveReset ch => Sys2Proof.Machine.execArchiveReset ch s
  | .auditDay ch => Sys2Proof.Machine.execAuditDay ch s
  | .closeCursor ch => Sys2Proof.Machine.execCloseCursor ch s
  | .closeDay ch => Sys2Proof.Machine.execCloseDay ch s
  | .closeFile ch => Sys2Proof.Machine.execCloseFile ch s
  | .configure ch => Sys2Proof.Machine.execConfigure ch s
  | .dayRoll ch => Sys2Proof.Machine.execDayRoll ch s
  | .dayState ch => Sys2Proof.Machine.execDayState ch s
  | .fileState ch => Sys2Proof.Machine.execFileState ch s
  | .forgetFile ch => Sys2Proof.Machine.execForgetFile ch s
  | .holdState ch => Sys2Proof.Machine.execHoldState ch s
  | .ingestParcel ch => Sys2Proof.Machine.execIngestParcel ch s
  | .lookupCall ch => Sys2Proof.Machine.execLookupCall ch s
  | .openCursor ch => Sys2Proof.Machine.execOpenCursor ch s
  | .openFile ch => Sys2Proof.Machine.execOpenFile ch s
  | .placeHold ch => Sys2Proof.Machine.execPlaceHold ch s
  | .forward ch => Sys2Proof.Machine.execForward ch s
  | .skipForward ch => Sys2Proof.Machine.execSkipForward ch s
  | .backward ch => Sys2Proof.Machine.execBackward ch s
  | .peek ch => Sys2Proof.Machine.execPeek ch s
  | .releaseHold ch => Sys2Proof.Machine.execReleaseHold ch s
  | .setClassTable ch => Sys2Proof.Machine.execSetClassTable ch s
  | .setPolicy ch => Sys2Proof.Machine.execSetPolicy ch s
  | .status ch => Sys2Proof.Machine.execStatus ch s
  | .sweep ch => Sys2Proof.Machine.execSweep ch s
  | .tune ch => Sys2Proof.Machine.execTune ch s
  | .recordIntakeEvent fileSlot => Sys2Proof.Machine.execRecordIntakeEvent fileSlot s
  | .restoreRecordIntake fileSlot => Sys2Proof.Machine.execRestoreRecordIntake fileSlot s
  | .stallLimit fileSlot => Sys2Proof.Machine.execStallLimit fileSlot s
  | .packing day => Sys2Proof.Machine.execPacking day s
  | .mergeDelayExpiry day cls => Sys2Proof.Machine.execMergeDelayExpiry day cls s
  | .programDone mc result => Sys2Proof.Machine.execProgramDone mc result s
  | .mediaReadDone mc result => Sys2Proof.Machine.execMediaReadDone mc result s
  | .voidMarkDone mc result => Sys2Proof.Machine.execVoidMarkDone mc result s
  | .clearDone mc result => Sys2Proof.Machine.execClearDone mc result s
  | .retireMarkDone mc result => Sys2Proof.Machine.execRetireMarkDone mc result s
  | .readyTimeout mc torn => Sys2Proof.Machine.execReadyTimeout mc torn s
  | .probe mc => Sys2Proof.Machine.execProbe mc s
  | .probeReady mc => Sys2Proof.Machine.execProbeReady mc s
  | .probeFailed mc => Sys2Proof.Machine.execProbeFailed mc s
  | .relocationWalk mc => Sys2Proof.Machine.execRelocationWalk mc s
  | .readStep cursor => Sys2Proof.Machine.execReadStep cursor s
  | .waitLimit waiter => Sys2Proof.Machine.execWaitLimit waiter s
  | .holdWindowExpiry cursor => Sys2Proof.Machine.execHoldWindowExpiry cursor s
  | .idleExpiry cursor => Sys2Proof.Machine.execIdleExpiry cursor s
  | .sweepWalk => Sys2Proof.Machine.execSweepWalk s
  | .auditWalk => Sys2Proof.Machine.execAuditWalk s
  | .scrubTimerExpiry => Sys2Proof.Machine.execScrubTimerExpiry s
  | .rebuildScan => Sys2Proof.Machine.execRebuildScan s
  | .vectorMask ch => Sys2Proof.Machine.execVectorMask ch s

end Sys2Proof.Machine
end

