-- ==== Sys2Proof/Machine/Idle.lean ====
section
/-!
DEFINITION. What the part does when no command waits, and how a command is put at the front of its queue.
-/

namespace Sys2Proof.Machine

/-- Nothing is commanded: a millisecond passes (notes/assumptions/1.md). -/
def State.idle (s : State) : State := { s with clock := s.clock + 1 }

/-- A command put at the front of the queue. -/
def State.front (c : Instr) (s : State) : State := { s with pending := c :: s.pending }

end Sys2Proof.Machine
end

