-- ==== Sys2Proof/Safety.lean ====
section
/-!
DEFINITION. What the statements about the part speak of: the ranges of the configuration, the shape of a request channel's window and
vector, the invariant of every state, a request that can be answered at once, and the outcome of a command as the settlement of its
consequences.
-/

namespace Sys2Proof.Machine

/-! ## The configuration in range (R141, R142, R174, R177) -/

/-- A media channel's settings lie in their ranges (R91, R92, R105). -/
def MediaCfg.inRange (m : MediaCfg) : Bool :=
  decide (m.extents ≤ Config.maxExtents) && within 100 m.program 5000 && within 10 m.read 1000 && within 500 m.clear 50000 &&
    within 1 m.low 100 && within 2 m.high 200 && decide (m.low < m.high)

/-- The settings lie in their ranges (R174, R177). -/
def Settings.inRange (s : Settings) : Bool :=
  s.epoch.valid && decide (s.closeLag ≤ 7) && s.media.toList.all MediaCfg.inRange && within 1 s.stall 255 && within 1 s.merge 3600 &&
    decide (s.hold ≤ 60) && within 10 s.idle 3600 && decide (s.scrub ≤ 10000) && s.watermarks.toList.all fun n => within 1 n 4096

/-- An entry of the Class Decode Table is valid (R141). -/
def ClassEntry.valid (c : ClassEntry) : Bool :=
  decide (c.exp ≤ 12) && within 1 c.cls 7 && decide (c.base % 10 ^ c.exp = 0) && decide (c.base + 10 ^ c.exp - 1 ≤ Config.maxAccount)

/-- A policy is valid (R142). -/
def Policy.valid (p : Policy) : Bool := within 1 p.months 120 && decide (p.grace ≤ 62)

/-- The configuration lies in its ranges, both copies of both tables with it (R35). -/
def Cfg.inRange (c : Cfg) : Bool :=
  c.settings.inRange && c.today.all (fun d => decide (d ≤ Config.maxDay)) && c.classes.all ClassEntry.valid &&
    c.pendingClasses.all ClassEntry.valid && c.policies.all Policy.valid && c.pendingPolicies.all Policy.valid

/-! ## Windows and vectors (R166, R169, R171) -/

/-- A window that is not ACTIVE moves nothing; one that is not UNSET has a valid setup; an UNSET one has its four indices at 0; and the
responses unconsumed of an ACTIVE one never pass its ring's entries, with room for a write under way. -/
def Window.ok (v : Window) : Bool :=
  match v.state with
  | .unset => !v.fetching && !v.writing && decide (v.requestFill = 0) && decide (v.requestConsume = 0) &&
      decide (v.responseFill = 0) && decide (v.responseConsume = 0)
  | .stopped => v.valid && !v.fetching && !v.writing
  | .active => v.valid && decide (v.unconsumed ≤ v.responseEntries.toNat) &&
      (!v.writing || decide (v.unconsumed < v.responseEntries.toNat))

/-- The measure of a channel runs exactly while responses stand unsignalled, a vector is held back only by its mask, and a channel that
is not ACTIVE counts nothing. -/
def IrqVector.ok (i : IrqVector) (st : ChanState) : Bool :=
  decide (i.measuring = decide (0 < i.unsignalled)) && (!i.held || i.masked) && (decide (st = .active) || decide (i.unsignalled = 0))

/-! ## The invariant of every state -/

/-- What holds of every state that the part can be in: host memory and the media stand in their one canonical form, the configuration
lies in its ranges, and the windows and vectors are well formed. -/
def State.sound (s : State) : Bool :=
  hostWf s.host && s.media.toList.all Media.wf && s.cfg.inRange &&
    channels.all fun ch => (s.windows.get ch).ok && (s.vectors.get ch).ok (s.windows.get ch).state

/-! ## Requests and their answers -/

/-- Request `r` is the next of channel `ch` at its unit `o`, its response is wanted, and the outbound queue has a place for it. -/
def State.offers (s : State) (ch : Fin 4) (o : Owner) (r : Req) : Prop :=
  s.works.handed ch o = some r ∧ s.works.req r.id = some r ∧ r.ch = ch ∧ r.discarded = false ∧
    (s.works.port.out.get ch).length < Config.outbound

/-- The port after request `r` has been answered: the response at the tail of the outbound queue, the request out of progress (R169). -/
def Port.answered (p : Port) (r : Req) (v : Verdict) (reason : Option Reason) (res : Result) : Port :=
  { p with out := p.out.set r.ch (p.out.get r.ch ++ [⟨r.tag, v, reason, none, false, false, res⟩]),
           reqs := p.reqs.filter fun q => decide (q.id ≠ r.id) }

/-- The port after request `r` has been taken by its unit, its response still to come. -/
def Port.taken (p : Port) (r : Req) : Port :=
  { p with reqs := p.reqs.map fun q => if q.id = r.id then { q with phase := .taken } else q }

/-- The port after a report for request `r` has begun its write to the host buffer. -/
def Port.reporting (p : Port) (r : Req) (bytes : Bytes) (res : Result) : Port :=
  { p.taken r with writes := p.writes ++ [⟨r.id, r.ch, r.addr, bytes, res⟩] }

/-- A command whose effect at the units is `w` ends in the state that the settlement of `w`'s consequences gives, everything else of the
state being that of `s`. -/
def Settles (o : Host.Outcome State Fault Refusal) (s : State) (w : Works) : Prop :=
  o = .next { s with works := settle s.ctx taskBudget w }

/-- The state after request `r` has been answered and nothing else has changed. -/
def State.answering (s : State) (r : Req) (v : Verdict) (reason : Option Reason) (res : Result) : State :=
  { s with works := { s.works with port := s.works.port.answered r v reason res } }

/-- The state after request `r` has been refused for a reason, with no results, and nothing else has changed. -/
def State.refusing (s : State) (r : Req) (reason : Reason) : State := s.answering r .refused (some reason) .empty

/-- A notice of kind `k` is pending and routed to channel `ch` (R170). -/
def State.pendingOn (s : State) (ch : Fin 4) (k : NoticeKind) : Prop :=
  (s.works.port.notices.getD k.index none).isSome ∧ s.cfg.settings.routes.getD k.index 0 = ch

/-- The record of a pending notice as it joins an outbound queue (R170). -/
def PendingNotice.record (n : PendingNotice) (k : NoticeKind) : Response := ⟨0, .done, none, some k, false, n.merged, n.result⟩

/-- No consequence waits: the state between two commands. -/
def State.quiet (s : State) : Prop := s.works.tasks = []

/-! ## The bounds of the units (R75, R103, R109, R167, R168) -/

/-- What no command passes: at most 64 responses queued and 8 requests fetched or in progress on a channel, the requests in progress in
the order of their serial numbers and each below the next one given, at most 512 operations queued on a media channel, whose extents have
one entry each, at most 1024 items in the work queue, and 16 cursors. -/
def State.bounded (s : State) : Prop :=
  (∀ ch : Fin 4, (s.works.port.out.get ch).length ≤ Config.outbound ∧
    s.works.port.inProgress ch + (if (s.windows.get ch).fetching then 1 else 0) ≤ Config.inProgress) ∧
  s.works.port.reqs.Pairwise (fun a b => a.id < b.id) ∧ (∀ r ∈ s.works.port.reqs, r.id < s.works.serial) ∧
  (∀ mc : Fin 4, (s.works.chan mc).queue.length ≤ Config.opQueue ∧ tblSorted (s.works.chan mc).exts = true) ∧
  s.works.packer.queue.length ≤ Config.packerQueue ∧ s.works.enquiry.cursors.length = 16

/-! ## Day accounts and runs (R40, R46) -/

/-- Held, staged and late are intake less what was retired and voided, with the corrections (R46). -/
def DayEntry.conserved (e : DayEntry) : Prop :=
  ((indexTotals e.entries).add e.staged).add e.late = ((e.intake.sub e.retired).sub e.voided).add e.corr

/-- Key ranges of a run in key order, none overlapping the next. -/
def runOrdered : List Entry → Prop
  | [] => True
  | [_] => True
  | a :: b :: l => a.last.lt b.first = true ∧ runOrdered (b :: l)

/-! ## Records that a sheet can hold (R1, R11, R21, R28) -/

/-- The digits of an other party: 1 to 20 of them, each 0 to 9. -/
def digitsOk (l : List Nat) : Bool := decide (1 ≤ l.length) && decide (l.length ≤ 20) && l.all fun d => decide (d ≤ 9)

/-- Every field of a held record lies in its range (R1, R4). -/
def Rec.valid (r : Rec) : Bool :=
  accountValid r.account && decide (r.switch ≤ 4095) && decide (r.seq < 2 ^ 48) && decide (r.start < 2 ^ 32) &&
    decide (r.dur ≤ 1048575) && decide (r.charge ≤ 2147483647) && decide (r.tariff ≤ 65535) && r.other.all digitsOk &&
    r.cell.all (fun c => decide (c ≤ 268435455)) && r.volume.all (fun v => decide (v ≤ 1099511627775)) &&
    (r.volume.isNone || r.service.holdsVolume) && decide (r.cls ≤ 7)

/-- Records in key order, no two with one key (R8, R28). -/
def recsRising : List Rec → Bool
  | [] => true
  | [_] => true
  | a :: b :: l => recLt a b && recsRising (b :: l)

/-- Records that make one DATA sheet of a day and class: 1 to 512 of them, in key order, with a body within its limit (R21, R22). -/
def sheetable (day cls : Nat) (l : List Rec) : Bool :=
  decide (l ≠ []) && decide (l.length ≤ Config.sheetRecords) && decide (bodyLength l ≤ Config.bodyMax) && recsRising l &&
    l.all fun r => r.valid && decide (dayOf r.start = day) && decide (r.cls = cls)

/-- Each sheet but the last leaves no room for the first record of the next (R21). -/
def sheetsFull : List (List Rec) → Prop
  | [] => True
  | [_] => True
  | a :: b :: l =>
    (∀ r, b.head? = some r → a.length = Config.sheetRecords ∨ Config.bodyMax < bodyLength (a ++ [r])) ∧ sheetsFull (b :: l)

/-! ## Which commands can change which part of the state -/

/-- The commands that can change the configuration (R50, R143, R174, R176, R177). -/
def changesCfg : Instr → Bool
  | .powerOn _ => true
  | .configure _ => true
  | .tune _ => true
  | .dayRoll _ => true
  | .setClassTable _ => true
  | .setPolicy _ => true
  | _ => false

/-- The commands that can change what the flash modules hold: the ends of operations, and a loss of power (R92, R95, R176). -/
def changesMedia : Instr → Bool
  | .powerOn _ => true
  | .programDone _ _ => true
  | .voidMarkDone _ _ => true
  | .clearDone _ _ => true
  | .retireMarkDone _ _ => true
  | .readyTimeout _ _ => true
  | _ => false

/-- The commands in whose events the part writes host memory (R59, R119, R169, R175). -/
def changesHost : Instr → Bool
  | .responseWriteDone _ => true
  | .bufferWriteDone _ => true
  | .recordIntakeEvent _ => true
  | .restoreRecordIntake _ => true
  | .readStep _ => true
  | _ => false

/-- The commands that can change a configuration window (R166, R167, R169, R172, R173). -/
def changesWindows : Instr → Bool
  | .powerOn _ => true
  | .portReset => true
  | .setupEvent _ _ => true
  | .requestFillIndexWrite _ _ => true
  | .responseConsumeIndexWrite _ _ => true
  | .registerWrite _ _ _ => true
  | .requestFetch _ => true
  | .fetchDone _ _ _ => true
  | .responseWrite _ => true
  | .responseWriteDone _ => true
  | .hostAccessFailure _ _ => true
  | _ => false

/-- The commands that can change an interrupt vector (R171 to R173). -/
def changesVectors : Instr → Bool
  | .powerOn _ => true
  | .portReset => true
  | .vectorMask _ => true
  | .vectorUnmask _ => true
  | .responseWriteDone _ => true
  | .interruptDelayExpiry _ => true
  | .hostAccessFailure _ _ => true
  | _ => false

/-- The commands that can move the clock: those that stand for a moment reached (notes/assumptions/2.md). -/
def changesClock : Instr → Bool
  | .powerOn _ => true
  | .stallLimit _ => true
  | .mergeDelayExpiry _ _ => true
  | .probe _ => true
  | .waitLimit _ => true
  | .holdWindowExpiry _ => true
  | .idleExpiry _ => true
  | .scrubTimerExpiry => true
  | _ => false

end Sys2Proof.Machine
end

