-- ==== Sys2Proof/Laws/State.lean ====
section
/-!
SUPPORT. One lemma per field per update of the state and of the units' state, each true by unfolding once, so that no later proof unfolds
an update; and the channel of a four-fold thing after another has been changed.
-/

namespace Sys2Proof.Machine

/-! ## Updates of the state -/

@[simp] theorem State.clockTo_pending (s : State) (t : Nat) : (s.clockTo t).pending = s.pending := rfl
@[simp] theorem State.clockTo_clock (s : State) (t : Nat) : (s.clockTo t).clock = max s.clock t := rfl
@[simp] theorem State.clockTo_cfg (s : State) (t : Nat) : (s.clockTo t).cfg = s.cfg := rfl
@[simp] theorem State.clockTo_windows (s : State) (t : Nat) : (s.clockTo t).windows = s.windows := rfl
@[simp] theorem State.clockTo_vectors (s : State) (t : Nat) : (s.clockTo t).vectors = s.vectors := rfl
@[simp] theorem State.clockTo_host (s : State) (t : Nat) : (s.clockTo t).host = s.host := rfl
@[simp] theorem State.clockTo_media (s : State) (t : Nat) : (s.clockTo t).media = s.media := rfl
@[simp] theorem State.clockTo_works (s : State) (t : Nat) : (s.clockTo t).works = s.works := rfl

@[simp] theorem State.mapWindow_pending (s : State) (ch : Fin 4) (f : Window → Window) : (s.mapWindow ch f).pending = s.pending := rfl
@[simp] theorem State.mapWindow_clock (s : State) (ch : Fin 4) (f : Window → Window) : (s.mapWindow ch f).clock = s.clock := rfl
@[simp] theorem State.mapWindow_cfg (s : State) (ch : Fin 4) (f : Window → Window) : (s.mapWindow ch f).cfg = s.cfg := rfl
@[simp] theorem State.mapWindow_windows (s : State) (ch : Fin 4) (f : Window → Window) : (s.mapWindow ch f).windows = s.windows.modify ch f := rfl
@[simp] theorem State.mapWindow_vectors (s : State) (ch : Fin 4) (f : Window → Window) : (s.mapWindow ch f).vectors = s.vectors := rfl
@[simp] theorem State.mapWindow_host (s : State) (ch : Fin 4) (f : Window → Window) : (s.mapWindow ch f).host = s.host := rfl
@[simp] theorem State.mapWindow_media (s : State) (ch : Fin 4) (f : Window → Window) : (s.mapWindow ch f).media = s.media := rfl
@[simp] theorem State.mapWindow_works (s : State) (ch : Fin 4) (f : Window → Window) : (s.mapWindow ch f).works = s.works := rfl

@[simp] theorem State.mapVector_pending (s : State) (ch : Fin 4) (f : IrqVector → IrqVector) : (s.mapVector ch f).pending = s.pending := rfl
@[simp] theorem State.mapVector_clock (s : State) (ch : Fin 4) (f : IrqVector → IrqVector) : (s.mapVector ch f).clock = s.clock := rfl
@[simp] theorem State.mapVector_cfg (s : State) (ch : Fin 4) (f : IrqVector → IrqVector) : (s.mapVector ch f).cfg = s.cfg := rfl
@[simp] theorem State.mapVector_windows (s : State) (ch : Fin 4) (f : IrqVector → IrqVector) : (s.mapVector ch f).windows = s.windows := rfl
@[simp] theorem State.mapVector_vectors (s : State) (ch : Fin 4) (f : IrqVector → IrqVector) : (s.mapVector ch f).vectors = s.vectors.modify ch f := rfl
@[simp] theorem State.mapVector_host (s : State) (ch : Fin 4) (f : IrqVector → IrqVector) : (s.mapVector ch f).host = s.host := rfl
@[simp] theorem State.mapVector_media (s : State) (ch : Fin 4) (f : IrqVector → IrqVector) : (s.mapVector ch f).media = s.media := rfl
@[simp] theorem State.mapVector_works (s : State) (ch : Fin 4) (f : IrqVector → IrqVector) : (s.mapVector ch f).works = s.works := rfl

@[simp] theorem State.mapMedia_pending (s : State) (mc : Fin 4) (f : Media → Media) : (s.mapMedia mc f).pending = s.pending := rfl
@[simp] theorem State.mapMedia_clock (s : State) (mc : Fin 4) (f : Media → Media) : (s.mapMedia mc f).clock = s.clock := rfl
@[simp] theorem State.mapMedia_cfg (s : State) (mc : Fin 4) (f : Media → Media) : (s.mapMedia mc f).cfg = s.cfg := rfl
@[simp] theorem State.mapMedia_windows (s : State) (mc : Fin 4) (f : Media → Media) : (s.mapMedia mc f).windows = s.windows := rfl
@[simp] theorem State.mapMedia_vectors (s : State) (mc : Fin 4) (f : Media → Media) : (s.mapMedia mc f).vectors = s.vectors := rfl
@[simp] theorem State.mapMedia_host (s : State) (mc : Fin 4) (f : Media → Media) : (s.mapMedia mc f).host = s.host := rfl
@[simp] theorem State.mapMedia_media (s : State) (mc : Fin 4) (f : Media → Media) : (s.mapMedia mc f).media = s.media.modify mc f := rfl
@[simp] theorem State.mapMedia_works (s : State) (mc : Fin 4) (f : Media → Media) : (s.mapMedia mc f).works = s.works := rfl

@[simp] theorem State.tuned_pending (s : State) (mask : Nat) (b : RawSettings) : (s.tuned mask b).pending = s.pending := rfl
@[simp] theorem State.tuned_clock (s : State) (mask : Nat) (b : RawSettings) : (s.tuned mask b).clock = s.clock := rfl
@[simp] theorem State.tuned_cfg (s : State) (mask : Nat) (b : RawSettings) : (s.tuned mask b).cfg = { s.cfg with settings := s.cfg.settings.tuned mask b } := rfl
@[simp] theorem State.tuned_windows (s : State) (mask : Nat) (b : RawSettings) : (s.tuned mask b).windows = s.windows := rfl
@[simp] theorem State.tuned_vectors (s : State) (mask : Nat) (b : RawSettings) : (s.tuned mask b).vectors = s.vectors := rfl
@[simp] theorem State.tuned_host (s : State) (mask : Nat) (b : RawSettings) : (s.tuned mask b).host = s.host := rfl
@[simp] theorem State.tuned_media (s : State) (mask : Nat) (b : RawSettings) : (s.tuned mask b).media = s.media := rfl
@[simp] theorem State.tuned_works (s : State) (mask : Nat) (b : RawSettings) : (s.tuned mask b).works = s.works := rfl

@[simp] theorem State.idle_pending (s : State) : (s.idle).pending = s.pending := rfl
@[simp] theorem State.idle_clock (s : State) : (s.idle).clock = s.clock + 1 := rfl
@[simp] theorem State.idle_cfg (s : State) : (s.idle).cfg = s.cfg := rfl
@[simp] theorem State.idle_windows (s : State) : (s.idle).windows = s.windows := rfl
@[simp] theorem State.idle_vectors (s : State) : (s.idle).vectors = s.vectors := rfl
@[simp] theorem State.idle_host (s : State) : (s.idle).host = s.host := rfl
@[simp] theorem State.idle_media (s : State) : (s.idle).media = s.media := rfl
@[simp] theorem State.idle_works (s : State) : (s.idle).works = s.works := rfl

@[simp] theorem State.front_pending (c : Instr) (s : State) : (s.front c).pending = c :: s.pending := rfl
@[simp] theorem State.front_clock (c : Instr) (s : State) : (s.front c).clock = s.clock := rfl
@[simp] theorem State.front_cfg (c : Instr) (s : State) : (s.front c).cfg = s.cfg := rfl
@[simp] theorem State.front_windows (c : Instr) (s : State) : (s.front c).windows = s.windows := rfl
@[simp] theorem State.front_vectors (c : Instr) (s : State) : (s.front c).vectors = s.vectors := rfl
@[simp] theorem State.front_host (c : Instr) (s : State) : (s.front c).host = s.host := rfl
@[simp] theorem State.front_media (c : Instr) (s : State) : (s.front c).media = s.media := rfl
@[simp] theorem State.front_works (c : Instr) (s : State) : (s.front c).works = s.works := rfl

@[simp] theorem State.hostPut_pending (s : State) (p : Option (Nat × Bytes)) : (s.hostPut p).pending = s.pending := by cases p <;> rfl
@[simp] theorem State.hostPut_clock (s : State) (p : Option (Nat × Bytes)) : (s.hostPut p).clock = s.clock := by cases p <;> rfl
@[simp] theorem State.hostPut_cfg (s : State) (p : Option (Nat × Bytes)) : (s.hostPut p).cfg = s.cfg := by cases p <;> rfl
@[simp] theorem State.hostPut_windows (s : State) (p : Option (Nat × Bytes)) : (s.hostPut p).windows = s.windows := by cases p <;> rfl
@[simp] theorem State.hostPut_vectors (s : State) (p : Option (Nat × Bytes)) : (s.hostPut p).vectors = s.vectors := by cases p <;> rfl
@[simp] theorem State.hostPut_media (s : State) (p : Option (Nat × Bytes)) : (s.hostPut p).media = s.media := by cases p <;> rfl
@[simp] theorem State.hostPut_works (s : State) (p : Option (Nat × Bytes)) : (s.hostPut p).works = s.works := by cases p <;> rfl
@[simp] theorem State.hostPut_none (s : State) : s.hostPut none = s := rfl
@[simp] theorem State.hostPut_host (s : State) (a : Nat) (b : Bytes) : (s.hostPut (some (a, b))).host = hostWrite s.host a b := rfl

/-! ## The context of a command -/

@[simp] theorem State.ctx_cfg (s : State) : s.ctx.cfg = s.cfg := rfl
@[simp] theorem State.ctx_windows (s : State) : s.ctx.windows = s.windows := rfl
@[simp] theorem State.ctx_clock (s : State) : s.ctx.clock = s.clock := rfl
@[simp] theorem Ctx.set_eq (x : Ctx) : x.set = x.cfg.settings := rfl

/-! ## Updates of the units' state -/

@[simp] theorem Works.task_tasks (w : Works) (t : Task) : (w.task t).tasks = w.tasks ++ [t] := rfl
@[simp] theorem Works.task_serial (w : Works) (t : Task) : (w.task t).serial = w.serial := rfl
@[simp] theorem Works.task_part (w : Works) (t : Task) : (w.task t).part = w.part := rfl
@[simp] theorem Works.task_port (w : Works) (t : Task) : (w.task t).port = w.port := rfl
@[simp] theorem Works.task_days (w : Works) (t : Task) : (w.task t).days = w.days := rfl
@[simp] theorem Works.task_intake (w : Works) (t : Task) : (w.task t).intake = w.intake := rfl
@[simp] theorem Works.task_packer (w : Works) (t : Task) : (w.task t).packer = w.packer := rfl
@[simp] theorem Works.task_array (w : Works) (t : Task) : (w.task t).array = w.array := rfl
@[simp] theorem Works.task_enquiry (w : Works) (t : Task) : (w.task t).enquiry = w.enquiry := rfl
@[simp] theorem Works.task_amend (w : Works) (t : Task) : (w.task t).amend = w.amend := rfl
@[simp] theorem Works.task_retention (w : Works) (t : Task) : (w.task t).retention = w.retention := rfl
@[simp] theorem Works.task_audit (w : Works) (t : Task) : (w.task t).audit = w.audit := rfl
@[simp] theorem Works.task_scrub (w : Works) (t : Task) : (w.task t).scrub = w.scrub := rfl
@[simp] theorem Works.task_rebuild (w : Works) (t : Task) : (w.task t).rebuild = w.rebuild := rfl

@[simp] theorem Works.addTasks_tasks (w : Works) (l : List Task) : (w.addTasks l).tasks = w.tasks ++ l := rfl
@[simp] theorem Works.addTasks_serial (w : Works) (l : List Task) : (w.addTasks l).serial = w.serial := rfl
@[simp] theorem Works.addTasks_part (w : Works) (l : List Task) : (w.addTasks l).part = w.part := rfl
@[simp] theorem Works.addTasks_port (w : Works) (l : List Task) : (w.addTasks l).port = w.port := rfl
@[simp] theorem Works.addTasks_days (w : Works) (l : List Task) : (w.addTasks l).days = w.days := rfl
@[simp] theorem Works.addTasks_intake (w : Works) (l : List Task) : (w.addTasks l).intake = w.intake := rfl
@[simp] theorem Works.addTasks_packer (w : Works) (l : List Task) : (w.addTasks l).packer = w.packer := rfl
@[simp] theorem Works.addTasks_array (w : Works) (l : List Task) : (w.addTasks l).array = w.array := rfl
@[simp] theorem Works.addTasks_enquiry (w : Works) (l : List Task) : (w.addTasks l).enquiry = w.enquiry := rfl
@[simp] theorem Works.addTasks_amend (w : Works) (l : List Task) : (w.addTasks l).amend = w.amend := rfl
@[simp] theorem Works.addTasks_retention (w : Works) (l : List Task) : (w.addTasks l).retention = w.retention := rfl
@[simp] theorem Works.addTasks_audit (w : Works) (l : List Task) : (w.addTasks l).audit = w.audit := rfl
@[simp] theorem Works.addTasks_scrub (w : Works) (l : List Task) : (w.addTasks l).scrub = w.scrub := rfl
@[simp] theorem Works.addTasks_rebuild (w : Works) (l : List Task) : (w.addTasks l).rebuild = w.rebuild := rfl

@[simp] theorem Works.mapChan_tasks (w : Works) (mc : Fin 4) (f : MediaChan → MediaChan) : (w.mapChan mc f).tasks = w.tasks := rfl
@[simp] theorem Works.mapChan_serial (w : Works) (mc : Fin 4) (f : MediaChan → MediaChan) : (w.mapChan mc f).serial = w.serial := rfl
@[simp] theorem Works.mapChan_part (w : Works) (mc : Fin 4) (f : MediaChan → MediaChan) : (w.mapChan mc f).part = w.part := rfl
@[simp] theorem Works.mapChan_port (w : Works) (mc : Fin 4) (f : MediaChan → MediaChan) : (w.mapChan mc f).port = w.port := rfl
@[simp] theorem Works.mapChan_days (w : Works) (mc : Fin 4) (f : MediaChan → MediaChan) : (w.mapChan mc f).days = w.days := rfl
@[simp] theorem Works.mapChan_intake (w : Works) (mc : Fin 4) (f : MediaChan → MediaChan) : (w.mapChan mc f).intake = w.intake := rfl
@[simp] theorem Works.mapChan_packer (w : Works) (mc : Fin 4) (f : MediaChan → MediaChan) : (w.mapChan mc f).packer = w.packer := rfl
@[simp] theorem Works.mapChan_array (w : Works) (mc : Fin 4) (f : MediaChan → MediaChan) : (w.mapChan mc f).array = { w.array with chans := w.array.chans.modify mc f } := rfl
@[simp] theorem Works.mapChan_enquiry (w : Works) (mc : Fin 4) (f : MediaChan → MediaChan) : (w.mapChan mc f).enquiry = w.enquiry := rfl
@[simp] theorem Works.mapChan_amend (w : Works) (mc : Fin 4) (f : MediaChan → MediaChan) : (w.mapChan mc f).amend = w.amend := rfl
@[simp] theorem Works.mapChan_retention (w : Works) (mc : Fin 4) (f : MediaChan → MediaChan) : (w.mapChan mc f).retention = w.retention := rfl
@[simp] theorem Works.mapChan_audit (w : Works) (mc : Fin 4) (f : MediaChan → MediaChan) : (w.mapChan mc f).audit = w.audit := rfl
@[simp] theorem Works.mapChan_scrub (w : Works) (mc : Fin 4) (f : MediaChan → MediaChan) : (w.mapChan mc f).scrub = w.scrub := rfl
@[simp] theorem Works.mapChan_rebuild (w : Works) (mc : Fin 4) (f : MediaChan → MediaChan) : (w.mapChan mc f).rebuild = w.rebuild := rfl

@[simp] theorem Works.mapDay_tasks (w : Works) (d : Nat) (f : DayEntry → DayEntry) : (w.mapDay d f).tasks = w.tasks := rfl
@[simp] theorem Works.mapDay_serial (w : Works) (d : Nat) (f : DayEntry → DayEntry) : (w.mapDay d f).serial = w.serial := rfl
@[simp] theorem Works.mapDay_part (w : Works) (d : Nat) (f : DayEntry → DayEntry) : (w.mapDay d f).part = w.part := rfl
@[simp] theorem Works.mapDay_port (w : Works) (d : Nat) (f : DayEntry → DayEntry) : (w.mapDay d f).port = w.port := rfl
@[simp] theorem Works.mapDay_days (w : Works) (d : Nat) (f : DayEntry → DayEntry) : (w.mapDay d f).days = tblModify d f w.days := rfl
@[simp] theorem Works.mapDay_intake (w : Works) (d : Nat) (f : DayEntry → DayEntry) : (w.mapDay d f).intake = w.intake := rfl
@[simp] theorem Works.mapDay_packer (w : Works) (d : Nat) (f : DayEntry → DayEntry) : (w.mapDay d f).packer = w.packer := rfl
@[simp] theorem Works.mapDay_array (w : Works) (d : Nat) (f : DayEntry → DayEntry) : (w.mapDay d f).array = w.array := rfl
@[simp] theorem Works.mapDay_enquiry (w : Works) (d : Nat) (f : DayEntry → DayEntry) : (w.mapDay d f).enquiry = w.enquiry := rfl
@[simp] theorem Works.mapDay_amend (w : Works) (d : Nat) (f : DayEntry → DayEntry) : (w.mapDay d f).amend = w.amend := rfl
@[simp] theorem Works.mapDay_retention (w : Works) (d : Nat) (f : DayEntry → DayEntry) : (w.mapDay d f).retention = w.retention := rfl
@[simp] theorem Works.mapDay_audit (w : Works) (d : Nat) (f : DayEntry → DayEntry) : (w.mapDay d f).audit = w.audit := rfl
@[simp] theorem Works.mapDay_scrub (w : Works) (d : Nat) (f : DayEntry → DayEntry) : (w.mapDay d f).scrub = w.scrub := rfl
@[simp] theorem Works.mapDay_rebuild (w : Works) (d : Nat) (f : DayEntry → DayEntry) : (w.mapDay d f).rebuild = w.rebuild := rfl

@[simp] theorem Works.setFile_tasks (w : Works) (slot : Nat) (f : File) : (w.setFile slot f).tasks = w.tasks := rfl
@[simp] theorem Works.setFile_serial (w : Works) (slot : Nat) (f : File) : (w.setFile slot f).serial = w.serial := rfl
@[simp] theorem Works.setFile_part (w : Works) (slot : Nat) (f : File) : (w.setFile slot f).part = w.part := rfl
@[simp] theorem Works.setFile_port (w : Works) (slot : Nat) (f : File) : (w.setFile slot f).port = w.port := rfl
@[simp] theorem Works.setFile_days (w : Works) (slot : Nat) (f : File) : (w.setFile slot f).days = w.days := rfl
@[simp] theorem Works.setFile_intake (w : Works) (slot : Nat) (f : File) : (w.setFile slot f).intake = { w.intake with files := tblPut slot f w.intake.files } := rfl
@[simp] theorem Works.setFile_packer (w : Works) (slot : Nat) (f : File) : (w.setFile slot f).packer = w.packer := rfl
@[simp] theorem Works.setFile_array (w : Works) (slot : Nat) (f : File) : (w.setFile slot f).array = w.array := rfl
@[simp] theorem Works.setFile_enquiry (w : Works) (slot : Nat) (f : File) : (w.setFile slot f).enquiry = w.enquiry := rfl
@[simp] theorem Works.setFile_amend (w : Works) (slot : Nat) (f : File) : (w.setFile slot f).amend = w.amend := rfl
@[simp] theorem Works.setFile_retention (w : Works) (slot : Nat) (f : File) : (w.setFile slot f).retention = w.retention := rfl
@[simp] theorem Works.setFile_audit (w : Works) (slot : Nat) (f : File) : (w.setFile slot f).audit = w.audit := rfl
@[simp] theorem Works.setFile_scrub (w : Works) (slot : Nat) (f : File) : (w.setFile slot f).scrub = w.scrub := rfl
@[simp] theorem Works.setFile_rebuild (w : Works) (slot : Nat) (f : File) : (w.setFile slot f).rebuild = w.rebuild := rfl

@[simp] theorem Works.setCursor_tasks (w : Works) (n : Nat) (c : Cursor) : (w.setCursor n c).tasks = w.tasks := rfl
@[simp] theorem Works.setCursor_serial (w : Works) (n : Nat) (c : Cursor) : (w.setCursor n c).serial = w.serial := rfl
@[simp] theorem Works.setCursor_part (w : Works) (n : Nat) (c : Cursor) : (w.setCursor n c).part = w.part := rfl
@[simp] theorem Works.setCursor_port (w : Works) (n : Nat) (c : Cursor) : (w.setCursor n c).port = w.port := rfl
@[simp] theorem Works.setCursor_days (w : Works) (n : Nat) (c : Cursor) : (w.setCursor n c).days = w.days := rfl
@[simp] theorem Works.setCursor_intake (w : Works) (n : Nat) (c : Cursor) : (w.setCursor n c).intake = w.intake := rfl
@[simp] theorem Works.setCursor_packer (w : Works) (n : Nat) (c : Cursor) : (w.setCursor n c).packer = w.packer := rfl
@[simp] theorem Works.setCursor_array (w : Works) (n : Nat) (c : Cursor) : (w.setCursor n c).array = w.array := rfl
@[simp] theorem Works.setCursor_enquiry (w : Works) (n : Nat) (c : Cursor) : (w.setCursor n c).enquiry = { w.enquiry with cursors := w.enquiry.cursors.set n c } := rfl
@[simp] theorem Works.setCursor_amend (w : Works) (n : Nat) (c : Cursor) : (w.setCursor n c).amend = w.amend := rfl
@[simp] theorem Works.setCursor_retention (w : Works) (n : Nat) (c : Cursor) : (w.setCursor n c).retention = w.retention := rfl
@[simp] theorem Works.setCursor_audit (w : Works) (n : Nat) (c : Cursor) : (w.setCursor n c).audit = w.audit := rfl
@[simp] theorem Works.setCursor_scrub (w : Works) (n : Nat) (c : Cursor) : (w.setCursor n c).scrub = w.scrub := rfl
@[simp] theorem Works.setCursor_rebuild (w : Works) (n : Nat) (c : Cursor) : (w.setCursor n c).rebuild = w.rebuild := rfl

@[simp] theorem Works.setBatch_tasks (w : Works) (ch : Fin 4) (b : Batch) : (w.setBatch ch b).tasks = w.tasks := rfl
@[simp] theorem Works.setBatch_serial (w : Works) (ch : Fin 4) (b : Batch) : (w.setBatch ch b).serial = w.serial := rfl
@[simp] theorem Works.setBatch_part (w : Works) (ch : Fin 4) (b : Batch) : (w.setBatch ch b).part = w.part := rfl
@[simp] theorem Works.setBatch_port (w : Works) (ch : Fin 4) (b : Batch) : (w.setBatch ch b).port = w.port := rfl
@[simp] theorem Works.setBatch_days (w : Works) (ch : Fin 4) (b : Batch) : (w.setBatch ch b).days = w.days := rfl
@[simp] theorem Works.setBatch_intake (w : Works) (ch : Fin 4) (b : Batch) : (w.setBatch ch b).intake = w.intake := rfl
@[simp] theorem Works.setBatch_packer (w : Works) (ch : Fin 4) (b : Batch) : (w.setBatch ch b).packer = w.packer := rfl
@[simp] theorem Works.setBatch_array (w : Works) (ch : Fin 4) (b : Batch) : (w.setBatch ch b).array = w.array := rfl
@[simp] theorem Works.setBatch_enquiry (w : Works) (ch : Fin 4) (b : Batch) : (w.setBatch ch b).enquiry = w.enquiry := rfl
@[simp] theorem Works.setBatch_amend (w : Works) (ch : Fin 4) (b : Batch) : (w.setBatch ch b).amend = { w.amend with batches := w.amend.batches.set ch b } := rfl
@[simp] theorem Works.setBatch_retention (w : Works) (ch : Fin 4) (b : Batch) : (w.setBatch ch b).retention = w.retention := rfl
@[simp] theorem Works.setBatch_audit (w : Works) (ch : Fin 4) (b : Batch) : (w.setBatch ch b).audit = w.audit := rfl
@[simp] theorem Works.setBatch_scrub (w : Works) (ch : Fin 4) (b : Batch) : (w.setBatch ch b).scrub = w.scrub := rfl
@[simp] theorem Works.setBatch_rebuild (w : Works) (ch : Fin 4) (b : Batch) : (w.setBatch ch b).rebuild = w.rebuild := rfl

@[simp] theorem Works.mapRetention_tasks (w : Works) (f : Retention → Retention) : (w.mapRetention f).tasks = w.tasks := rfl
@[simp] theorem Works.mapRetention_serial (w : Works) (f : Retention → Retention) : (w.mapRetention f).serial = w.serial := rfl
@[simp] theorem Works.mapRetention_part (w : Works) (f : Retention → Retention) : (w.mapRetention f).part = w.part := rfl
@[simp] theorem Works.mapRetention_port (w : Works) (f : Retention → Retention) : (w.mapRetention f).port = w.port := rfl
@[simp] theorem Works.mapRetention_days (w : Works) (f : Retention → Retention) : (w.mapRetention f).days = w.days := rfl
@[simp] theorem Works.mapRetention_intake (w : Works) (f : Retention → Retention) : (w.mapRetention f).intake = w.intake := rfl
@[simp] theorem Works.mapRetention_packer (w : Works) (f : Retention → Retention) : (w.mapRetention f).packer = w.packer := rfl
@[simp] theorem Works.mapRetention_array (w : Works) (f : Retention → Retention) : (w.mapRetention f).array = w.array := rfl
@[simp] theorem Works.mapRetention_enquiry (w : Works) (f : Retention → Retention) : (w.mapRetention f).enquiry = w.enquiry := rfl
@[simp] theorem Works.mapRetention_amend (w : Works) (f : Retention → Retention) : (w.mapRetention f).amend = w.amend := rfl
@[simp] theorem Works.mapRetention_retention (w : Works) (f : Retention → Retention) : (w.mapRetention f).retention = f w.retention := rfl
@[simp] theorem Works.mapRetention_audit (w : Works) (f : Retention → Retention) : (w.mapRetention f).audit = w.audit := rfl
@[simp] theorem Works.mapRetention_scrub (w : Works) (f : Retention → Retention) : (w.mapRetention f).scrub = w.scrub := rfl
@[simp] theorem Works.mapRetention_rebuild (w : Works) (f : Retention → Retention) : (w.mapRetention f).rebuild = w.rebuild := rfl

@[simp] theorem Works.mapAudit_tasks (w : Works) (f : Audit → Audit) : (w.mapAudit f).tasks = w.tasks := rfl
@[simp] theorem Works.mapAudit_serial (w : Works) (f : Audit → Audit) : (w.mapAudit f).serial = w.serial := rfl
@[simp] theorem Works.mapAudit_part (w : Works) (f : Audit → Audit) : (w.mapAudit f).part = w.part := rfl
@[simp] theorem Works.mapAudit_port (w : Works) (f : Audit → Audit) : (w.mapAudit f).port = w.port := rfl
@[simp] theorem Works.mapAudit_days (w : Works) (f : Audit → Audit) : (w.mapAudit f).days = w.days := rfl
@[simp] theorem Works.mapAudit_intake (w : Works) (f : Audit → Audit) : (w.mapAudit f).intake = w.intake := rfl
@[simp] theorem Works.mapAudit_packer (w : Works) (f : Audit → Audit) : (w.mapAudit f).packer = w.packer := rfl
@[simp] theorem Works.mapAudit_array (w : Works) (f : Audit → Audit) : (w.mapAudit f).array = w.array := rfl
@[simp] theorem Works.mapAudit_enquiry (w : Works) (f : Audit → Audit) : (w.mapAudit f).enquiry = w.enquiry := rfl
@[simp] theorem Works.mapAudit_amend (w : Works) (f : Audit → Audit) : (w.mapAudit f).amend = w.amend := rfl
@[simp] theorem Works.mapAudit_retention (w : Works) (f : Audit → Audit) : (w.mapAudit f).retention = w.retention := rfl
@[simp] theorem Works.mapAudit_audit (w : Works) (f : Audit → Audit) : (w.mapAudit f).audit = w.audit.map f := rfl
@[simp] theorem Works.mapAudit_scrub (w : Works) (f : Audit → Audit) : (w.mapAudit f).scrub = w.scrub := rfl
@[simp] theorem Works.mapAudit_rebuild (w : Works) (f : Audit → Audit) : (w.mapAudit f).rebuild = w.rebuild := rfl

@[simp] theorem Works.mapScrub_tasks (w : Works) (f : Scrub → Scrub) : (w.mapScrub f).tasks = w.tasks := rfl
@[simp] theorem Works.mapScrub_serial (w : Works) (f : Scrub → Scrub) : (w.mapScrub f).serial = w.serial := rfl
@[simp] theorem Works.mapScrub_part (w : Works) (f : Scrub → Scrub) : (w.mapScrub f).part = w.part := rfl
@[simp] theorem Works.mapScrub_port (w : Works) (f : Scrub → Scrub) : (w.mapScrub f).port = w.port := rfl
@[simp] theorem Works.mapScrub_days (w : Works) (f : Scrub → Scrub) : (w.mapScrub f).days = w.days := rfl
@[simp] theorem Works.mapScrub_intake (w : Works) (f : Scrub → Scrub) : (w.mapScrub f).intake = w.intake := rfl
@[simp] theorem Works.mapScrub_packer (w : Works) (f : Scrub → Scrub) : (w.mapScrub f).packer = w.packer := rfl
@[simp] theorem Works.mapScrub_array (w : Works) (f : Scrub → Scrub) : (w.mapScrub f).array = w.array := rfl
@[simp] theorem Works.mapScrub_enquiry (w : Works) (f : Scrub → Scrub) : (w.mapScrub f).enquiry = w.enquiry := rfl
@[simp] theorem Works.mapScrub_amend (w : Works) (f : Scrub → Scrub) : (w.mapScrub f).amend = w.amend := rfl
@[simp] theorem Works.mapScrub_retention (w : Works) (f : Scrub → Scrub) : (w.mapScrub f).retention = w.retention := rfl
@[simp] theorem Works.mapScrub_audit (w : Works) (f : Scrub → Scrub) : (w.mapScrub f).audit = w.audit := rfl
@[simp] theorem Works.mapScrub_scrub (w : Works) (f : Scrub → Scrub) : (w.mapScrub f).scrub = f w.scrub := rfl
@[simp] theorem Works.mapScrub_rebuild (w : Works) (f : Scrub → Scrub) : (w.mapScrub f).rebuild = w.rebuild := rfl

@[simp] theorem Works.mapRebuild_tasks (w : Works) (f : Rebuild → Rebuild) : (w.mapRebuild f).tasks = w.tasks := rfl
@[simp] theorem Works.mapRebuild_serial (w : Works) (f : Rebuild → Rebuild) : (w.mapRebuild f).serial = w.serial := rfl
@[simp] theorem Works.mapRebuild_part (w : Works) (f : Rebuild → Rebuild) : (w.mapRebuild f).part = w.part := rfl
@[simp] theorem Works.mapRebuild_port (w : Works) (f : Rebuild → Rebuild) : (w.mapRebuild f).port = w.port := rfl
@[simp] theorem Works.mapRebuild_days (w : Works) (f : Rebuild → Rebuild) : (w.mapRebuild f).days = w.days := rfl
@[simp] theorem Works.mapRebuild_intake (w : Works) (f : Rebuild → Rebuild) : (w.mapRebuild f).intake = w.intake := rfl
@[simp] theorem Works.mapRebuild_packer (w : Works) (f : Rebuild → Rebuild) : (w.mapRebuild f).packer = w.packer := rfl
@[simp] theorem Works.mapRebuild_array (w : Works) (f : Rebuild → Rebuild) : (w.mapRebuild f).array = w.array := rfl
@[simp] theorem Works.mapRebuild_enquiry (w : Works) (f : Rebuild → Rebuild) : (w.mapRebuild f).enquiry = w.enquiry := rfl
@[simp] theorem Works.mapRebuild_amend (w : Works) (f : Rebuild → Rebuild) : (w.mapRebuild f).amend = w.amend := rfl
@[simp] theorem Works.mapRebuild_retention (w : Works) (f : Rebuild → Rebuild) : (w.mapRebuild f).retention = w.retention := rfl
@[simp] theorem Works.mapRebuild_audit (w : Works) (f : Rebuild → Rebuild) : (w.mapRebuild f).audit = w.audit := rfl
@[simp] theorem Works.mapRebuild_scrub (w : Works) (f : Rebuild → Rebuild) : (w.mapRebuild f).scrub = w.scrub := rfl
@[simp] theorem Works.mapRebuild_rebuild (w : Works) (f : Rebuild → Rebuild) : (w.mapRebuild f).rebuild = f w.rebuild := rfl

@[simp] theorem Works.next_fst (w : Works) : w.next.1 = w.serial := rfl
@[simp] theorem Works.next_snd_tasks (w : Works) : w.next.2.tasks = w.tasks := rfl
@[simp] theorem Works.next_snd_serial (w : Works) : w.next.2.serial = w.serial + 1 := rfl
@[simp] theorem Works.next_snd_part (w : Works) : w.next.2.part = w.part := rfl
@[simp] theorem Works.next_snd_port (w : Works) : w.next.2.port = w.port := rfl
@[simp] theorem Works.next_snd_days (w : Works) : w.next.2.days = w.days := rfl
@[simp] theorem Works.next_snd_intake (w : Works) : w.next.2.intake = w.intake := rfl
@[simp] theorem Works.next_snd_packer (w : Works) : w.next.2.packer = w.packer := rfl
@[simp] theorem Works.next_snd_array (w : Works) : w.next.2.array = w.array := rfl
@[simp] theorem Works.next_snd_enquiry (w : Works) : w.next.2.enquiry = w.enquiry := rfl
@[simp] theorem Works.next_snd_amend (w : Works) : w.next.2.amend = w.amend := rfl
@[simp] theorem Works.next_snd_retention (w : Works) : w.next.2.retention = w.retention := rfl
@[simp] theorem Works.next_snd_audit (w : Works) : w.next.2.audit = w.audit := rfl
@[simp] theorem Works.next_snd_scrub (w : Works) : w.next.2.scrub = w.scrub := rfl
@[simp] theorem Works.next_snd_rebuild (w : Works) : w.next.2.rebuild = w.rebuild := rfl

/-! ## The four channels -/

@[simp] theorem Quad.get_set_self {α : Type} (q : Quad α) (i : Fin 4) (a : α) : (q.set i a).get i = a := by
  match i with
  | 0 => rfl
  | 1 => rfl
  | 2 => rfl
  | 3 => rfl

theorem Quad.get_set_other {α : Type} (q : Quad α) (i j : Fin 4) (a : α) (h : j ≠ i) : (q.set i a).get j = q.get j := by
  match i, j with
  | 0, 0 => exact absurd rfl h
  | 0, 1 => rfl
  | 0, 2 => rfl
  | 0, 3 => rfl
  | 1, 0 => rfl
  | 1, 1 => exact absurd rfl h
  | 1, 2 => rfl
  | 1, 3 => rfl
  | 2, 0 => rfl
  | 2, 1 => rfl
  | 2, 2 => exact absurd rfl h
  | 2, 3 => rfl
  | 3, 0 => rfl
  | 3, 1 => rfl
  | 3, 2 => rfl
  | 3, 3 => exact absurd rfl h

theorem Quad.get_set {α : Type} (q : Quad α) (i j : Fin 4) (a : α) : (q.set i a).get j = if j = i then a else q.get j := by
  by_cases h : j = i
  · subst h; simp
  · simp [h, Quad.get_set_other q i j a h]

@[simp] theorem Quad.get_modify_self {α : Type} (q : Quad α) (i : Fin 4) (f : α → α) : (q.modify i f).get i = f (q.get i) := by
  simp [Quad.modify]

theorem Quad.get_modify {α : Type} (q : Quad α) (i j : Fin 4) (f : α → α) :
    (q.modify i f).get j = if j = i then f (q.get i) else q.get j := by
  simp [Quad.modify, Quad.get_set]

theorem Quad.get_map {α β : Type} (q : Quad α) (f : α → β) (i : Fin 4) : (q.map f).get i = f (q.get i) := by
  match i with
  | 0 => rfl
  | 1 => rfl
  | 2 => rfl
  | 3 => rfl

@[simp] theorem Quad.get_all {α : Type} (a : α) (i : Fin 4) : (Quad.all a).get i = a := by
  match i with
  | 0 => rfl
  | 1 => rfl
  | 2 => rfl
  | 3 => rfl

/-- A property of every element is a property of the four channels. -/
theorem Quad.all_toList {α : Type} (q : Quad α) (p : α → Bool) : q.toList.all p = true ↔ ∀ i : Fin 4, p (q.get i) = true := by
  constructor
  · intro h i
    simp only [Quad.toList, List.all_cons, List.all_nil, Bool.and_true, Bool.and_eq_true] at h
    match i with
    | 0 => exact h.1
    | 1 => exact h.2.1
    | 2 => exact h.2.2.1
    | 3 => exact h.2.2.2
  · intro h
    simp only [Quad.toList, List.all_cons, List.all_nil, Bool.and_true, Bool.and_eq_true]
    exact ⟨h 0, h 1, h 2, h 3⟩

end Sys2Proof.Machine
end

