-- ==== Sys2Proof/Laws/Tables.lean ====
section
/-!
SUPPORT. Tables keep their keys strictly rising; host memory and the media keep their one canonical form under every operation; and a
read after a write gives what was written, or what stood there before at every other place.
-/

namespace Sys2Proof.Machine

/-! ## Tables -/

theorem tblSorted_cons {α : Type} (i : Nat) (a : α) (t : Tbl α) :
    tblSorted ((i, a) :: t) = true ↔ (∀ p ∈ t, i < p.1) ∧ tblSorted t = true := by
  induction t generalizing i a with
  | nil => simp [tblSorted]
  | cons q t ih =>
    obtain ⟨j, b⟩ := q
    simp only [tblSorted, Bool.and_eq_true, decide_eq_true_eq]
    constructor
    · rintro ⟨hij, hs⟩
      refine ⟨?_, hs⟩
      intro p hp
      rcases List.mem_cons.mp hp with rfl | hp
      · exact hij
      · exact Nat.lt_trans hij (((ih j b).mp hs).1 p hp)
    · rintro ⟨h, hs⟩
      exact ⟨h (j, b) List.mem_cons_self, hs⟩

theorem mem_tblPut {α : Type} (k : Nat) (a : α) (t : Tbl α) (p : Nat × α) (h : p ∈ tblPut k a t) : p = (k, a) ∨ p ∈ t := by
  induction t with
  | nil => simpa [tblPut] using h
  | cons q t ih =>
    obtain ⟨j, b⟩ := q
    simp only [tblPut] at h
    split at h
    · exact List.mem_cons.mp h
    · split at h
      · rcases List.mem_cons.mp h with h | h
        · exact .inl h
        · exact .inr (List.mem_cons_of_mem _ h)
      · rcases List.mem_cons.mp h with rfl | h
        · exact .inr List.mem_cons_self
        · rcases ih h with h | h
          · exact .inl h
          · exact .inr (List.mem_cons_of_mem _ h)

theorem mem_tblDrop {α : Type} (k : Nat) (t : Tbl α) (p : Nat × α) (h : p ∈ tblDrop k t) : p ∈ t ∧ p.1 ≠ k := by
  induction t with
  | nil => simp [tblDrop] at h
  | cons q t ih =>
    obtain ⟨j, b⟩ := q
    simp only [tblDrop] at h
    split at h
    · exact ⟨List.mem_cons_of_mem _ (ih h).1, (ih h).2⟩
    · rcases List.mem_cons.mp h with rfl | h
      · exact ⟨List.mem_cons_self, by assumption⟩
      · exact ⟨List.mem_cons_of_mem _ (ih h).1, (ih h).2⟩

theorem tblPut_sorted {α : Type} (k : Nat) (a : α) (t : Tbl α) (h : tblSorted t = true) : tblSorted (tblPut k a t) = true := by
  induction t with
  | nil => rfl
  | cons q t ih =>
    obtain ⟨j, b⟩ := q
    obtain ⟨hj, ht⟩ := (tblSorted_cons j b t).mp h
    simp only [tblPut]
    split
    · rename_i hlt
      refine (tblSorted_cons _ _ _).mpr ⟨?_, h⟩
      intro p hp
      rcases List.mem_cons.mp hp with rfl | hp
      · exact hlt
      · exact Nat.lt_trans hlt (hj p hp)
    · split
      · rename_i heq
        subst heq
        exact (tblSorted_cons _ _ _).mpr ⟨hj, ht⟩
      · rename_i hlt hne
        refine (tblSorted_cons _ _ _).mpr ⟨?_, ih ht⟩
        intro p hp
        rcases mem_tblPut _ _ _ _ hp with rfl | hp
        · show j < k
          omega
        · exact hj p hp

theorem tblDrop_sorted {α : Type} (k : Nat) (t : Tbl α) (h : tblSorted t = true) : tblSorted (tblDrop k t) = true := by
  induction t with
  | nil => rfl
  | cons q t ih =>
    obtain ⟨j, b⟩ := q
    obtain ⟨hj, ht⟩ := (tblSorted_cons j b t).mp h
    simp only [tblDrop]
    split
    · exact ih ht
    · exact (tblSorted_cons _ _ _).mpr ⟨fun p hp => hj p (mem_tblDrop _ _ _ hp).1, ih ht⟩

theorem tblFilter_sorted {α : Type} (f : Nat × α → Bool) (t : Tbl α) (h : tblSorted t = true) : tblSorted (t.filter f) = true := by
  induction t with
  | nil => rfl
  | cons q t ih =>
    obtain ⟨j, b⟩ := q
    obtain ⟨hj, ht⟩ := (tblSorted_cons j b t).mp h
    rw [List.filter_cons]
    split
    · exact (tblSorted_cons _ _ _).mpr ⟨fun p hp => hj p (List.mem_filter.mp hp).1, ih ht⟩
    · exact ih ht

@[simp] theorem tblGet_put_self {α : Type} (k : Nat) (a : α) (t : Tbl α) : tblGet k (tblPut k a t) = some a := by
  induction t with
  | nil => simp [tblPut, tblGet]
  | cons q t ih =>
    obtain ⟨j, b⟩ := q
    simp only [tblPut]
    split
    · simp [tblGet]
    · split
      · simp [tblGet]
      · rename_i hlt hne
        simp only [tblGet, ih]
        split
        · omega
        · rfl

theorem tblGet_put_other {α : Type} (k i : Nat) (a : α) (t : Tbl α) (h : i ≠ k) : tblGet i (tblPut k a t) = tblGet i t := by
  induction t with
  | nil => simp [tblPut, tblGet, Ne.symm h]
  | cons q t ih =>
    obtain ⟨j, b⟩ := q
    simp only [tblPut]
    split
    · simp [tblGet, Ne.symm h]
    · split
      · rename_i heq
        subst heq
        simp [tblGet, Ne.symm h]
      · simp [tblGet, ih]

@[simp] theorem tblGet_drop_self {α : Type} (k : Nat) (t : Tbl α) : tblGet k (tblDrop k t) = none := by
  induction t with
  | nil => rfl
  | cons q t ih =>
    obtain ⟨j, b⟩ := q
    simp only [tblDrop]
    split
    · exact ih
    · rename_i hne
      simp [tblGet, hne, ih]

theorem tblGet_drop_other {α : Type} (k i : Nat) (t : Tbl α) (h : i ≠ k) : tblGet i (tblDrop k t) = tblGet i t := by
  induction t with
  | nil => rfl
  | cons q t ih =>
    obtain ⟨j, b⟩ := q
    simp only [tblDrop]
    split
    · rename_i heq
      subst heq
      simp [tblGet, Ne.symm h, ih]
    · simp [tblGet, ih]

/-! ## Host memory -/

/-- A write to host memory keeps its canonical form. -/
theorem hostWrite_wf (b : Bytes) (m : List Host.Cell) (a : Nat) (h : hostWf m = true) : hostWf (hostWrite m a b) = true := by
  induction b generalizing m a with
  | nil => exact h
  | cons x b ih => exact ih _ _ (tblPut_sorted _ _ _ h)

/-- The part's write to host memory changes no other byte than those written. -/
theorem hostByte_hostWrite_other (b : Bytes) (m : List Host.Cell) (a i : Nat) (h : ∀ k < b.length, i ≠ (a + k) % 2 ^ 64) :
    hostByte (hostWrite m a b) i = hostByte m i := by
  induction b generalizing m a with
  | nil => rfl
  | cons x b ih =>
    have h0 : i ≠ a % 2 ^ 64 := by simpa using h 0 (by simp)
    have hb := ih (tblPut (a % 2 ^ 64) x m) (a + 1) fun k hk => by
      have := h (k + 1) (by simpa using hk)
      rwa [show a + 1 + k = a + (k + 1) by omega]
    simp only [hostWrite, hb]
    exact tblGet_put_other _ _ _ _ h0

/-- Whatever a write puts or does not put there, host memory keeps its canonical form. -/
theorem State.hostPut_wf (s : State) (p : Option (Nat × Bytes)) (h : hostWf s.host = true) : hostWf (s.hostPut p).host = true := by
  match p with
  | none => exact h
  | some (a, b) => exact hostWrite_wf b s.host a h

/-! ## The media -/

/-- The canonical form in three parts. -/
theorem Media.wf_iff (m : Media) : m.wf = true ↔ tblSorted m.cells = true ∧ (∀ p ∈ m.cells, p.2 ≠ erasedCell) ∧
    tblSorted (m.retired.map fun e => (e, ())) = true := by
  simp [Media.wf, List.all_eq_true, and_assoc]

theorem Media.put_wf (m : Media) (idx : Nat) (c : Cell) (h : m.wf = true) : (m.put idx c).wf = true := by
  obtain ⟨hs, ha, hr⟩ := (Media.wf_iff m).mp h
  refine (Media.wf_iff _).mpr ⟨?_, ?_, hr⟩
  · simp only [Media.put]
    split
    · exact tblDrop_sorted _ _ hs
    · exact tblPut_sorted _ _ _ hs
  · intro p hp
    simp only [Media.put] at hp
    split at hp
    · exact ha p (mem_tblDrop _ _ _ hp).1
    · rcases mem_tblPut _ _ _ _ hp with rfl | hp
      · assumption
      · exact ha p hp

theorem Media.mark_wf (m : Media) (idx : Nat) (h : m.wf = true) : (m.mark idx).wf = true := Media.put_wf _ _ _ h

theorem Media.clearExt_wf (m : Media) (e : Nat) (h : m.wf = true) : (m.clearExt e).wf = true := by
  obtain ⟨hs, ha, hr⟩ := (Media.wf_iff m).mp h
  exact (Media.wf_iff _).mpr ⟨tblFilter_sorted _ _ hs, fun p hp => ha p (List.mem_filter.mp hp).1, hr⟩

/-- A list of keys with nothing at them, taken apart and put together. -/
theorem unitTable_map (t : Tbl Unit) : (t.map (·.1)).map (fun e => (e, ())) = t := by
  induction t with
  | nil => rfl
  | cons p t ih => simpa using ih

theorem Media.retire_wf (m : Media) (e : Nat) (h : m.wf = true) : (m.retire e).wf = true := by
  obtain ⟨hs, ha, hr⟩ := (Media.wf_iff m).mp h
  refine (Media.wf_iff _).mpr ⟨hs, ha, ?_⟩
  simp only [Media.retire, unitTable_map]
  exact tblPut_sorted _ _ _ hr

theorem Media.putAll_wf (m : Media) (e : Nat) (found : List (Nat × Cell)) (h : m.wf = true) : (m.putAll e found).wf = true := by
  unfold Media.putAll
  induction found generalizing m with
  | nil => exact h
  | cons p l ih =>
    rw [List.foldl_cons]
    apply ih
    split
    · exact Media.put_wf _ _ _ h
    · exact h

theorem Media.programmed_wf (m : Media) (idx : Nat) (image : Bytes) (r : ProgramEnd) (h : m.wf = true) :
    (m.programmed idx image r).wf = true := by
  cases r <;> exact Media.put_wf _ _ _ h

theorem Media.voided_wf (m : Media) (idx : Nat) (r : MarkEnd) (h : m.wf = true) : (m.voided idx r).wf = true := by
  cases r with
  | passed => exact Media.mark_wf _ _ h
  | failed marked =>
    cases marked
    · exact h
    · exact Media.mark_wf _ _ h

theorem Media.retireMarked_wf (m : Media) (e : Nat) (r : MarkEnd) (h : m.wf = true) : (m.retireMarked e r).wf = true := by
  cases r with
  | passed => exact Media.retire_wf _ _ h
  | failed marked =>
    cases marked
    · exact h
    · exact Media.retire_wf _ _ h

theorem Media.clearDone_wf (m : Media) (e : Nat) (r : ClearEnd) (h : m.wf = true) : (m.clearDone e r).wf = true := by
  cases r with
  | passed => exact Media.clearExt_wf _ _ h
  | failed found => exact Media.putAll_wf _ _ _ h

theorem Media.torn_wf (m : Media) (o : Op) (t : Torn) (h : m.wf = true) : (m.torn o t).wf = true := by
  unfold Media.torn
  cases o.kind with
  | program post idx image => exact Media.putAll_wf _ _ _ h
  | copy idx image source => exact Media.putAll_wf _ _ _ h
  | voidMark idx who again =>
    dsimp only
    split
    · exact Media.mark_wf _ _ h
    · exact h
  | clear e => exact Media.putAll_wf _ _ _ h
  | retireMark e again =>
    dsimp only
    split
    · exact Media.retire_wf _ _ h
    · exact h
  | read idx who again => exact h

/-- What a slot holds after it has been made to hold something. -/
theorem Media.cell_put_self (m : Media) (idx : Nat) (c : Cell) : (m.put idx c).cell idx = c := by
  by_cases hc : c = erasedCell
  · simp [Media.put, Media.cell, hc]
  · simp [Media.put, Media.cell, hc]

/-- Every other slot holds what it held. -/
theorem Media.cell_put_other (m : Media) (idx i : Nat) (c : Cell) (h : i ≠ idx) : (m.put idx c).cell i = m.cell i := by
  by_cases hc : c = erasedCell
  · simp [Media.put, Media.cell, hc, tblGet_drop_other _ _ _ h]
  · simp [Media.put, Media.cell, hc, tblGet_put_other _ _ _ _ h]

/-- An operation on one channel's modules keeps the canonical form of all four. -/
theorem State.mapMedia_wf (s : State) (mc : Fin 4) (f : Media → Media) (h : s.media.toList.all Media.wf = true)
    (hf : ∀ m : Media, m.wf = true → (f m).wf = true) : (s.mapMedia mc f).media.toList.all Media.wf = true := by
  rw [State.mapMedia_media]
  refine (Quad.all_toList _ _).mpr fun i => ?_
  rw [Quad.get_modify]
  have hall := (Quad.all_toList _ _).mp h
  split
  · exact hf _ (hall mc)
  · exact hall i

end Sys2Proof.Machine
end

