-- ==== Sys2Proof/Laws/Settle.lean ====
section
/-!
SUPPORT. What the shared operations of every command do, said once: the settlement of its consequences, the taking of a handed request,
and the answer to one.
-/

namespace Sys2Proof.Machine

/-! ## Settlement -/

/-- With no consequence left there is nothing to settle. -/
theorem settle_quiet (x : Ctx) (n : Nat) (w : Works) (h : w.tasks = []) : settle x n w = w := by
  cases n with
  | zero => rfl
  | succ n => simp [settle, h]

/-- The oldest consequence is carried out first. -/
theorem settle_cons (x : Ctx) (n : Nat) (w : Works) (t : Task) (l : List Task) (h : w.tasks = t :: l) :
    settle x (n + 1) w = settle x n (({ w with tasks := l } : Works).runTask x t) := by
  simp [settle, h]

/-- A command's outcome is always a next state. -/
theorem State.settled_next (s : State) (w : Works) : s.settled w = .next { s with works := settle s.ctx taskBudget w } := rfl

/-- Without consequences the outcome is what the command itself made. -/
theorem State.settled_quiet (s : State) (w : Works) (h : w.tasks = []) : s.settled w = .next { s with works := w } := by
  rw [State.settled_next, settle_quiet _ _ _ h]

/-! ## Taking a request -/

/-- Everything that the taking of a request can do: no effect, or the settlement of what the unit makes of its oldest one. -/
theorem State.serve_cases (s : State) (ch : Fin 4) (o : Owner) (f : Req → Option Works) :
    s.serve ch o f = .next s ∨ ∃ r w, s.works.handed ch o = some r ∧ f r = some w ∧ s.serve ch o f = s.settled w := by
  unfold State.serve
  cases h : s.works.handed ch o with
  | none => exact .inl rfl
  | some r =>
    cases hf : f r with
    | none => simp [hf]
    | some w => exact .inr ⟨r, w, rfl, hf, by simp [hf]⟩

/-- A request that the unit takes. -/
theorem State.serve_some (s : State) (ch : Fin 4) (o : Owner) (f : Req → Option Works) (r : Req) (w : Works)
    (h : s.works.handed ch o = some r) (hf : f r = some w) : s.serve ch o f = s.settled w := by
  simp [State.serve, h, hf]

/-! ## Answers -/

/-- A request answered: the response joins the outbound queue and the request leaves progress. -/
theorem Works.reply_answered (w : Works) (r : Req) (v : Verdict) (reason : Option Reason) (res : Result)
    (hr : w.req r.id = some r) (hd : r.discarded = false) (hq : (w.port.out.get r.ch).length < Config.outbound) :
    w.reply r.id v reason res false = { w with port := w.port.answered r v reason res } := by
  simp only [Works.reply, hr, Port.offer, hd, Bool.false_eq_true, if_false, hq, if_true]
  rfl

/-- An answer changes nothing but the port. -/
theorem Works.reply_port (w : Works) (id : Nat) (v : Verdict) (reason : Option Reason) (res : Result) (e : Bool) :
    w.reply id v reason res e = { w with port := (w.reply id v reason res e).port } := by
  unfold Works.reply
  split <;> rfl

/-- A request taken by its unit. -/
theorem Works.take_taken (w : Works) (r : Req) : w.take r.id = { w with port := w.port.taken r } := by
  simp [Works.take, Works.setPhase, Port.taken, updateWhere]

/-- A report begins its write, and its request waits for the end of it. -/
theorem Works.report_reporting (w : Works) (r : Req) (bytes : Bytes) (res : Result) (hr : w.req r.id = some r)
    (hd : r.discarded = false) : w.report r.id bytes res = { w with port := w.port.reporting r bytes res } := by
  simp only [Works.report, hr, hd, Bool.false_eq_true, if_false]
  simp [Works.take, Works.setPhase, Port.taken, Port.reporting, updateWhere]

/-- A unit that refuses an offered request answers it REFUSED, and nothing else changes. -/
theorem State.offers_refuse (s : State) (ch : Fin 4) (o : Owner) (r : Req) (reason : Reason) (h : s.offers ch o r) :
    s.works.refuse r.id reason = { s.works with port := s.works.port.answered r .refused (some reason) .empty } := by
  obtain ⟨_, hr, hc, hd, hq⟩ := h
  exact Works.reply_answered _ _ _ _ _ hr hd (hc ▸ hq)

end Sys2Proof.Machine
end

