-- ==== Sys2Proof/Certificates/Slice0/Obligations.lean ====
section
/-!
DEFINITION. The statements about the part, one `Prop` each, in the order of the manual's chapters: the whole part first, then the Request
Port, start-up, the units, and the sheets. An equation `exec c s = .next t` is a command's whole effect: whatever `t` does not name is
that of `s`. `Settles` says the same with the consequences of the command still to be carried out, in the order of its task list.
-/

open Sys2Proof Sys2Proof.Machine

/-- For every command c, every list l of commands and every state s, step of s with c in front of l is exec of c on s with the queue
l. On an empty queue a step lets one millisecond pass and changes nothing else; this second half is the model's choice
(notes/assumptions/1.md). -/
def Obligations.StepTakesTheFrontCommand : Prop :=
  (∀ (c : Instr) (l : List Instr) (s : State), step { s with pending := c :: l } = exec c { s with pending := l }) ∧
    ∀ s : State, s.pending = [] → step s = .next { s with clock := s.clock + 1 }

/-- For every command and every state, exec answers a next state, never a fault or a refusal of the model, and the queue of waiting
commands in it is that of the state before. From a bounded state the next state is bounded: on each request channel at most 64
responses are queued and at most 8 requests are being fetched or in progress; the requests in progress stand in the rising order
of their serial numbers, each below the next to be given; each media channel has at most 512 operations queued and one entry for
each extent; the work queue holds at most 1024 items; and there are 16 cursors. That a command for an event that cannot occur goes
on with a next state, without effect, is the model's choice (notes/assumptions/4.md), and so is which operation leaves a queue of
512 for a repeated one (notes/assumptions/44.md). -/
def Obligations.EveryCommandEndsInANextState : Prop :=
  ∀ (c : Instr) (s : State), ∃ t, exec c s = .next t ∧ t.pending = s.pending ∧ (s.bounded → t.bounded)

/-- The frame of all commands: a command that is not among those the predicate names leaves, in every state, the configuration
(settings, today and both copies of both tables), the contents of the flash modules, the bytes written to host memory, the four
configuration windows, the four interrupt vectors, and the clock as they were. The predicates changesCfg, changesMedia,
changesHost, changesWindows, changesVectors and changesClock list the exceptions by constructor. The clock is the model's own
(notes/assumptions/2.md). That an item is written at READ_STEP, a refusal entry at its record's own event and a report at
BUFFER_WRITE_DONE is the model's choice (notes/assumptions/8.md), and so is that the commands which end an operation bring what it
leaves on the media (notes/assumptions/9.md). -/
def Obligations.OnlyTheNamedCommandsChangeEachPart : Prop :=
  ∀ (c : Instr) (s t : State), exec c s = .next t →
    (changesCfg c = false → t.cfg = s.cfg) ∧ (changesMedia c = false → t.media = s.media) ∧
    (changesHost c = false → t.host = s.host) ∧ (changesWindows c = false → t.windows = s.windows) ∧
    (changesVectors c = false → t.vectors = s.vectors) ∧ (changesClock c = false → t.clock = s.clock)

/-- For every state s with s.sound, whatever commands wait: if step s answers next t, then t.sound. Sound says: host memory and each
channel's media stand in their one canonical form; every setting, class entry, policy and today lies in its range; an UNSET window
moves nothing and has its four indices at 0, the value that is the model's choice there (notes/assumptions/34.md), since the
manual says only that they are forgotten; a window that is not UNSET has aligned bases and ring sizes of 16 to 4096 that are
powers of two; the responses unconsumed of an ACTIVE window never exceed its response ring, with room for a write under way; the
100 microsecond measure runs exactly while responses stand unsignalled; only a masked vector is held back; and a channel that is
not ACTIVE counts no responses. -/
def Obligations.SoundStatesStaySound : Prop :=
  ∀ s t : State, s.sound = true → step s = .next t → t.sound = true

/-- State.reset is sound, bounded and quiet; the part is STARTING; today is absent and both copies of both tables are empty; every
channel is UNSET with its fields and its four indices 0; no request is in progress, every outbound queue is empty and no notice is
pending; the Day Table, File Table, Day Staging, Late List, work queue and Hold Table are empty and the sheet cache holds nothing;
the sixteen cursors are FREE with generation 0, the four batches are NONE; no slot of the array holds an image or a void mark and
no extent a retire mark. That the array is erased, and that the bases, entries and indices of an UNSET window are 0, is the
model's choice (notes/assumptions/34.md). -/
def Obligations.ResetStateIsSoundAndStarting : Prop :=
  State.reset.sound = true ∧ State.reset.bounded ∧ State.reset.quiet ∧ State.reset.pending = [] ∧ State.reset.works.part = .starting ∧ State.reset.cfg.today = none ∧
    State.reset.cfg.classes = [] ∧ State.reset.cfg.pendingClasses = [] ∧ State.reset.cfg.policies = [] ∧
    State.reset.cfg.pendingPolicies = [] ∧
    (∀ ch : Fin 4, State.reset.windows.get ch = ⟨.unset, 0, 0, 0, 0, 0, 0, 0, 0, false, false⟩ ∧
      State.reset.works.port.out.get ch = [] ∧ (State.reset.works.batch ch).state = .none) ∧
    State.reset.works.port.reqs = [] ∧ State.reset.works.port.notices = List.replicate 8 none ∧ State.reset.works.days = [] ∧
    State.reset.works.intake.files = [] ∧ State.reset.works.intake.staging = [] ∧ State.reset.works.intake.late = [] ∧
    State.reset.works.packer.queue = [] ∧ State.reset.works.retention.holds = [] ∧ State.reset.works.array.cache = [] ∧
    (∀ n < 16, (State.reset.works.cursor n).opened = false ∧ (State.reset.works.cursor n).generation = 0) ∧
    ∀ mc : Fin 4, (State.reset.media.get mc).retired = [] ∧ ∀ idx, (State.reset.media.get mc).cell idx = ⟨none, false⟩

/-- After POWER_ON the state is State.reset but for the waiting commands, the bytes in host memory and the media. A channel with no
operation in progress, or one the event does not name, keeps its media exactly. On a channel whose operation in progress was a
program or a relocation copy of slot idx, every other slot holds what it held and no extent gains or loses its retire mark; a void
mark of slot idx: the same, and slot idx keeps its image and may have gained its void mark; a clear of extent e: every slot of
another extent holds what it held, and the retire marks are as they were; a retire mark of extent e: every slot holds what it
held, and only extent e can have gained its mark; a read: the media are exactly as they were. That what a torn operation leaves is
brought by the command, and that it disturbs no other place, is the model's choice (notes/assumptions/9.md); so are the masks and
held vectors clear at power-on, and what the reset state holds where the manual names no value (notes/assumptions/10.md, 34.md). -/
def Obligations.PowerOnKeepsOnlyTheMediaAndHostMemory : Prop :=
  ∀ (torn : List (Fin 4 × Torn)) (s : State), ∃ t, exec (.powerOn torn) s = .next t ∧
    t = { State.reset with pending := s.pending, host := s.host, media := t.media } ∧
    (∀ mc : Fin 4, ((s.works.chan mc).busy = none ∨ mc ∉ torn.map (·.1)) → t.media.get mc = s.media.get mc) ∧
    ∀ (mc : Fin 4) (o : Op), (s.works.chan mc).busy = some o →
      let was := s.media.get mc
      let is := t.media.get mc
      (∀ post idx image source, o.kind = .program post idx image ∨ o.kind = .copy idx image source →
        is.retired = was.retired ∧ ∀ i, i ≠ idx → is.cell i = was.cell i) ∧
      (∀ idx who again, o.kind = .voidMark idx who again → is.retired = was.retired ∧ (∀ i, i ≠ idx → is.cell i = was.cell i) ∧
        (is.cell idx = was.cell idx ∨ is.cell idx = { was.cell idx with voided := true })) ∧
      (∀ e, o.kind = .clear e → is.retired = was.retired ∧ ∀ i, i / 64 ≠ e → is.cell i = was.cell i) ∧
      (∀ e again, o.kind = .retireMark e again → (∀ i, is.cell i = was.cell i) ∧
        ∀ f, f ≠ e → (f ∈ is.retired ↔ f ∈ was.retired)) ∧
      (∀ idx who again, o.kind = .read idx who again → is = was)

/-- After PORT_RESET in a state with no consequence outstanding: every window has its power-on value, that of an UNSET channel with
fields and indices 0 (the model's choice: notes/assumptions/34.md); each vector counts no response and measures nothing, its mask,
its held-back vector and its delivered count as before (the model's reading: notes/assumptions/10.md); no outbound queue holds a
response, no response waits for a place and no report is under way; the requests in progress are exactly those that were, marked
discarded, but for those that had ended, those whose report was under way (DEDUCED: notes/assumptions/17.md), and every READ
CURSOR and LOOKUP CALL, whether its unit had taken it or not; the sixteen cursors are FREE with the generations they had and no
lookup is in progress; a COLLECTING batch is NONE, a batch in another state is as it was; and the clock, configuration, host
memory, media, Day Table, Intake Unit, Packer, media channels, Pending Amendment Set, Retention Unit, audit, scrub walk, rebuild
and pending notices are as they were. -/
def Obligations.PortResetEmptiesThePort : Prop :=
  ∀ s : State, s.quiet → ∃ t, exec .portReset s = .next t ∧
    t = { s with windows := .all .initial, vectors := t.vectors, works := t.works } ∧
    (∀ ch : Fin 4, t.vectors.get ch = { s.vectors.get ch with unsignalled := 0, measuring := false } ∧
      t.works.port.out.get ch = [] ∧ t.works.port.waiting.get ch = []) ∧
    t.works.port.writes = [] ∧
    (∀ r : Req, r ∈ t.works.port.reqs ↔ ∃ q ∈ s.works.port.reqs, r = { q with discarded := true } ∧ q.phase ≠ .ended ∧
      (∀ b ∈ s.works.port.writes, b.ch = q.ch → b.req ≠ q.id) ∧ (∀ a b c d e, q.request ≠ .readCursor a b c d e) ∧
      ∀ a b, q.request ≠ .lookupCall a b) ∧
    t.works.port.notices = s.works.port.notices ∧
    (∀ n < 16, t.works.cursor n = { Cursor.free with generation := (s.works.cursor n).generation }) ∧
    t.works.enquiry.lookups = [] ∧
    (∀ ch : Fin 4, ((s.works.batch ch).state = .collecting → (t.works.batch ch).state = .none ∧ (t.works.batch ch).entries = []) ∧
      ((s.works.batch ch).state ≠ .collecting → t.works.batch ch = s.works.batch ch)) ∧
    t.works.part = s.works.part ∧ t.works.days = s.works.days ∧ t.works.intake = s.works.intake ∧ t.works.packer = s.works.packer ∧
    t.works.array.chans = s.works.array.chans ∧ t.works.array.posting = s.works.array.posting ∧
    t.works.amend.pending = s.works.amend.pending ∧ t.works.retention = s.works.retention ∧ t.works.audit = s.works.audit ∧
    t.works.scrub = s.works.scrub ∧ t.works.rebuild = s.works.rebuild ∧ t.works.tasks = []

/-- SETUP_EVENT has no effect on a channel that is not UNSET. On an UNSET channel whose four fields with the value written are valid,
the channel becomes ACTIVE with its four indices 0 and, its outbound queue being empty, every pending notice routed to it joins
that queue in the order of the notice table with MERGED as its flag stood and the outcome DONE (the model's choice:
notes/assumptions/71.md), its pending flag becomes clear, and every other pending notice stays. If a field is not valid the
channel stays UNSET with its response ring entries 0. Nothing else of the state changes. -/
def Obligations.SetupEventActivatesAValidChannel : Prop :=
  ∀ (ch : Fin 4) (value : BitVec 32) (s : State), s.quiet →
    let v := s.windows.get ch
    (v.state ≠ .unset → exec (.setupEvent ch value) s = .next s) ∧
    (v.state = .unset → { v with responseEntries := value }.valid = false →
      exec (.setupEvent ch value) s = .next { s with windows := s.windows.set ch { v with responseEntries := 0 } }) ∧
    (v.state = .unset → { v with responseEntries := value }.valid = true → s.works.port.out.get ch = [] →
      ∃ notices : List (Option PendingNotice),
        exec (.setupEvent ch value) s = .next
          { s with
            windows := s.windows.set ch
              { v with state := .active, responseEntries := value, requestFill := 0, requestConsume := 0, responseFill := 0,
                       responseConsume := 0, fetching := false, writing := false }
            works := { s.works with port := { s.works.port with
              notices := notices
              out := s.works.port.out.set ch (NoticeKind.all.filterMap fun k =>
                if s.cfg.settings.routes.getD k.index 0 = ch then
                  (s.works.port.notices.getD k.index none).map fun n => n.record k
                else none) } } } ∧
        ∀ k : NoticeKind, notices.getD k.index none =
          if s.cfg.settings.routes.getD k.index 0 = ch then none else s.works.port.notices.getD k.index none)

/-- REQUEST_FILL_INDEX_WRITE on an ACTIVE channel sets the index when the records outstanding by the value written would not exceed
the request ring entries; RESPONSE_CONSUME_INDEX_WRITE on an ACTIVE channel sets the index when it consumes no more than the
responses unconsumed. Any other write of either index, and one on a channel that is not ACTIVE, changes nothing. REGISTER_WRITE on
an UNSET channel stores the request base, the request entries (low 32 bits of the value) or the response base, changing nothing
else. On a channel that is not UNSET, and for the two indices the part keeps and the padding, it changes nothing. Channel ch
stands at offset 64 x ch of the window: 64 bytes read there give the request base (8 bytes), request entries (4), response base
(8), response entries, request fill and consume index, response fill and consume index (4 each), and 24 bytes of padding that read
0. A write at the offset of a field (0, 8, 12, 20, 24, 28, 32, 36) is the command that writes it, one at 40 to 63 a write of the
padding, and one past the four channels no command. -/
def Obligations.WindowWritesAreTakenOnlyInTheirStates : Prop :=
  ∀ (ch : Fin 4) (s : State),
    let v := s.windows.get ch
    (∀ value : BitVec 32,
      (v.state = .active → (value - v.requestConsume).toNat ≤ v.requestEntries.toNat →
        exec (.requestFillIndexWrite ch value) s = .next { s with windows := s.windows.set ch { v with requestFill := value } }) ∧
      (v.state ≠ .active ∨ v.requestEntries.toNat < (value - v.requestConsume).toNat →
        exec (.requestFillIndexWrite ch value) s = .next s) ∧
      (v.state = .active → (value - v.responseConsume).toNat ≤ (v.responseFill - v.responseConsume).toNat →
        exec (.responseConsumeIndexWrite ch value) s =
          .next { s with windows := s.windows.set ch { v with responseConsume := value } }) ∧
      (v.state ≠ .active ∨ (v.responseFill - v.responseConsume).toNat < (value - v.responseConsume).toNat →
        exec (.responseConsumeIndexWrite ch value) s = .next s)) ∧
    ∀ value : BitVec 64,
      (v.state ≠ .unset → ∀ f, exec (.registerWrite ch f value) s = .next s) ∧
      (v.state = .unset →
        exec (.registerWrite ch .requestBase value) s = .next { s with windows := s.windows.set ch { v with requestBase := value } } ∧
        exec (.registerWrite ch .requestEntries value) s =
          .next { s with windows := s.windows.set ch { v with requestEntries := value.setWidth 32 } } ∧
        exec (.registerWrite ch .responseBase value) s =
          .next { s with windows := s.windows.set ch { v with responseBase := value } } ∧
        exec (.registerWrite ch .requestConsume value) s = .next s ∧ exec (.registerWrite ch .responseFill value) s = .next s ∧
        exec (.registerWrite ch .pad value) s = .next s) ∧
      s.windowRead (64 * ch.val) 64 =
        le 8 v.requestBase.toNat ++ le 4 v.requestEntries.toNat ++ le 8 v.responseBase.toNat ++ le 4 v.responseEntries.toNat ++
          le 4 v.requestFill.toNat ++ le 4 v.requestConsume.toNat ++ le 4 v.responseFill.toNat ++ le 4 v.responseConsume.toNat ++
          List.replicate 24 0 ∧
      windowCommand (64 * ch.val) value = some (.registerWrite ch .requestBase value) ∧
      windowCommand (64 * ch.val + 8) value = some (.registerWrite ch .requestEntries value) ∧
      windowCommand (64 * ch.val + 12) value = some (.registerWrite ch .responseBase value) ∧
      windowCommand (64 * ch.val + 20) value = some (.setupEvent ch (value.setWidth 32)) ∧
      windowCommand (64 * ch.val + 24) value = some (.requestFillIndexWrite ch (value.setWidth 32)) ∧
      windowCommand (64 * ch.val + 28) value = some (.registerWrite ch .requestConsume value) ∧
      windowCommand (64 * ch.val + 32) value = some (.registerWrite ch .responseFill value) ∧
      windowCommand (64 * ch.val + 36) value = some (.responseConsumeIndexWrite ch (value.setWidth 32)) ∧
      (∀ k, 40 ≤ k → k < 64 → windowCommand (64 * ch.val + k) value = some (.registerWrite ch .pad value)) ∧
      ∀ offset, 256 ≤ offset → windowCommand offset value = none

/-- Masking sets the mask alone. Unmasking clears the mask and delivers a vector held back. When the 100 microsecond measure of an
ACTIVE channel with responses unsignalled runs out, the count becomes 0 and the measure stops, and the vector is delivered or, if
masked, held back; on a channel that is not ACTIVE, measures nothing or has nothing unsignalled the expiry changes nothing. What a
mask does to a raised vector is the model's reading of MSI-X (notes/assumptions/10.md). -/
def Obligations.VectorsFireByMaskAndMeasure : Prop :=
  ∀ (ch : Fin 4) (s : State),
    let i := s.vectors.get ch
    exec (.vectorMask ch) s = .next { s with vectors := s.vectors.set ch { i with masked := true } } ∧
    exec (.vectorUnmask ch) s = .next
      { s with
        vectors := s.vectors.set ch
          { i with masked := false, held := false, delivered := if i.held then i.delivered + 1 else i.delivered } } ∧
    ((s.windows.get ch).state = .active → i.measuring = true → 0 < i.unsignalled →
      exec (.interruptDelayExpiry ch) s = .next
        { s with
          vectors := s.vectors.set ch
            (if i.masked then { i with unsignalled := 0, measuring := false, held := true }
             else { i with unsignalled := 0, measuring := false, delivered := i.delivered + 1 }) }) ∧
    ((s.windows.get ch).state ≠ .active ∨ i.measuring = false ∨ i.unsignalled = 0 →
      exec (.interruptDelayExpiry ch) s = .next s)

/-- REQUEST_FETCH begins a fetch exactly when the channel is ACTIVE, fetches nothing, has records outstanding and fewer than 8
requests in progress. RESPONSE_WRITE begins a write exactly when the channel is ACTIVE, writes nothing, has a response queued and
fewer responses unconsumed than its ring has entries. Otherwise neither changes anything. One fetch and one write at a time per
channel is the model's choice (notes/assumptions/6.md). -/
def Obligations.FetchesAndResponseWritesBeginWhenTheRingsAllow : Prop :=
  ∀ (ch : Fin 4) (s : State),
    let v := s.windows.get ch
    (v.state = .active ∧ v.fetching = false ∧ 0 < (v.requestFill - v.requestConsume).toNat ∧
        s.works.port.reqs.countP (fun r => decide (r.ch = ch)) < 8 →
      exec (.requestFetch ch) s = .next { s with windows := s.windows.set ch { v with fetching := true } }) ∧
    (¬(v.state = .active ∧ v.fetching = false ∧ 0 < (v.requestFill - v.requestConsume).toNat ∧
        s.works.port.reqs.countP (fun r => decide (r.ch = ch)) < 8) → exec (.requestFetch ch) s = .next s) ∧
    (v.state = .active ∧ v.writing = false ∧ s.works.port.out.get ch ≠ [] ∧
        (v.responseFill - v.responseConsume).toNat < v.responseEntries.toNat →
      exec (.responseWrite ch) s = .next { s with windows := s.windows.set ch { v with writing := true } }) ∧
    (¬(v.state = .active ∧ v.writing = false ∧ s.works.port.out.get ch ≠ [] ∧
        (v.responseFill - v.responseConsume).toNat < v.responseEntries.toNat) → exec (.responseWrite ch) s = .next s)

/-- When the fetch of an ACTIVE channel completes with a record whose tag is not 0, whose input buffer passes and whose code names a
request that the part serves (every request in RUNNING, CONFIGURE and STATUS in STARTING, STATUS in REBUILDING), the request
consume index rises by 1, the fetch ends, and the request enters progress at the tail with the record's tag, buffer addresses and
length, handed to its unit; nothing else changes. -/
def Obligations.FetchedRequestIsHandedToItsUnit : Prop :=
  ∀ (ch : Fin 4) (record buffer : Bytes) (s : State) (q : Request), s.quiet →
    (s.windows.get ch).state = .active → (s.windows.get ch).fetching = true →
    inputPasses record = true → recordTag record ≠ 0 → Request.ofBytes record buffer = some q →
    (s.works.part = .running ∨ (s.works.part = .starting ∧ (q = .status ∨ ∃ b, q = .configure b)) ∨
      (s.works.part = .rebuilding ∧ q = .status)) →
    exec (.fetchDone ch record buffer) s = .next
      { s with
        windows := s.windows.set ch
          { s.windows.get ch with fetching := false, requestConsume := (s.windows.get ch).requestConsume + 1 }
        works := { s.works with
          serial := s.works.serial + 1
          port := { s.works.port with
            reqs := s.works.port.reqs ++
              [⟨s.works.serial, ch, recordTag record, q, recordAddr record, recordLength record, recordSecond record, .handed, false⟩] } } }

/-- When the fetch of an ACTIVE channel completes, no request in progress having a serial number not yet given, the request is refused
at the port without entering its unit: MALFORMED when the input buffer fails, the tag is 0 or the code names no request; NOT_READY
when it is none of these but the part is STARTING and it is neither CONFIGURE nor STATUS, or REBUILDING and it is not STATUS. The
consume index rises by 1 and a refusal with the record's tag joins the outbound queue; when that queue is full, the request stays
in progress, ended, and its refusal waits for a place behind those that wait. A fetch completed that the channel did not make, or
on a channel not ACTIVE, changes nothing: the model's choice (notes/assumptions/4.md). -/
def Obligations.FetchedRequestIsRefusedAtThePort : Prop :=
  ∀ (ch : Fin 4) (record buffer : Bytes) (s : State) (reason : Reason), s.quiet →
    ((s.windows.get ch).state ≠ .active ∨ (s.windows.get ch).fetching = false →
      exec (.fetchDone ch record buffer) s = .next s) ∧
    ((s.windows.get ch).state = .active → (s.windows.get ch).fetching = true → (∀ r ∈ s.works.port.reqs, r.id < s.works.serial) →
      ((reason = .malformed ∧ (inputPasses record = false ∨ recordTag record = 0 ∨ Request.ofBytes record buffer = none)) ∨
        (reason = .notReady ∧ inputPasses record = true ∧ recordTag record ≠ 0 ∧ ∃ q, Request.ofBytes record buffer = some q ∧
          q ≠ .status ∧ (s.works.part = .rebuilding ∨ (s.works.part = .starting ∧ ∀ b, q ≠ .configure b)))) →
      let p := s.works.port
      let resp : Response := ⟨recordTag record, .refused, some reason, none, false, false, .empty⟩
      let refused (port : Port) : Prop := exec (.fetchDone ch record buffer) s = .next
        { s with
          windows := s.windows.set ch
            { s.windows.get ch with fetching := false, requestConsume := (s.windows.get ch).requestConsume + 1 }
          works := { s.works with serial := s.works.serial + 1, port := port } }
      ((p.out.get ch).length < 64 → refused { p with out := p.out.set ch (p.out.get ch ++ [resp]) }) ∧
      (64 ≤ (p.out.get ch).length → refused
        { p with
          waiting := p.waiting.set ch (p.waiting.get ch ++ [(s.works.serial, resp)])
          reqs := p.reqs ++ [⟨s.works.serial, ch, recordTag record, .status, 0, 0, 0, .ended, false⟩] }))

/-- When the write of an ACTIVE channel completes, the oldest response's bytes stand at the response base plus 32 times the fill index
modulo the ring entries, the fill index rises by 1 and the write ends; the count of responses unsignalled rises by 1 and the
measure runs, or the vector is raised when the responses unconsumed reach the lesser of watermark and ring entries. The place
freed goes to the first pending notice routed to the channel in table order, with the outcome DONE (the model's choice:
notes/assumptions/71.md), else to the owner that has waited longest, whose request then leaves progress, else it stays free. A
channel with no write under way sees no effect, which is the model's choice (notes/assumptions/4.md). -/
def Obligations.ResponseWrittenAdvancesAndGivesItsPlace : Prop :=
  ∀ (ch : Fin 4) (s : State), s.quiet →
    let v := s.windows.get ch
    let i := s.vectors.get ch
    (v.state ≠ .active ∨ v.writing = false → exec (.responseWriteDone ch) s = .next s) ∧
    ∀ (resp : Response) (l : List Response), v.state = .active → v.writing = true → s.works.port.out.get ch = resp :: l →
      ∃ port : Port,
        exec (.responseWriteDone ch) s = .next
          { s with
            host := hostWrite s.host (v.responseBase.toNat + 32 * (v.responseFill.toNat % v.responseEntries.toNat)) resp.bytes
            windows := s.windows.set ch { v with writing := false, responseFill := v.responseFill + 1 }
            vectors := s.vectors.set ch
              (if min (s.cfg.settings.watermarks.get ch) v.responseEntries.toNat ≤
                  (v.responseFill + 1 - v.responseConsume).toNat then
                (if i.masked then { i with unsignalled := 0, measuring := false, held := true }
                 else { i with unsignalled := 0, measuring := false, delivered := i.delivered + 1 })
               else { i with unsignalled := i.unsignalled + 1, measuring := true })
            works := { s.works with port := port } } ∧
        (∀ (k : NoticeKind) (n : PendingNotice), s.works.port.notices.getD k.index none = some n →
          s.cfg.settings.routes.getD k.index 0 = ch → (∀ j : NoticeKind, j.index < k.index → ¬ s.pendingOn ch j) →
          port = { s.works.port with
            notices := s.works.port.notices.set k.index none, out := s.works.port.out.set ch (l ++ [n.record k]) }) ∧
        ((∀ k : NoticeKind, ¬ s.pendingOn ch k) →
          (∀ (id : Nat) (waits : Response) (rest : List (Nat × Response)), s.works.port.waiting.get ch = (id, waits) :: rest →
            port = { s.works.port with
              out := s.works.port.out.set ch (l ++ [waits]), waiting := s.works.port.waiting.set ch rest,
              reqs := s.works.port.reqs.filter fun r => decide (r.id ≠ id) }) ∧
          (s.works.port.waiting.get ch = [] → port = { s.works.port with out := s.works.port.out.set ch l }))

/-- When an access that is under way on an ACTIVE channel fails, the channel becomes STOPPED with its fields and indices kept and
nothing under way; its vector counts nothing and measures nothing; its outbound queue, the responses waiting for a place in it and
its reports under way are dropped; its requests that have ended or whose reports were under way leave progress (DEDUCED:
notes/assumptions/17.md) and its other requests go on, discarded. Its mask, held vector and delivered count stay
(notes/assumptions/10.md). Everything of the other three channels, and everything outside the port, is as it was. When no such
access is under way the command has no effect (notes/assumptions/4.md). -/
def Obligations.HostAccessFailureStopsItsChannelAlone : Prop :=
  ∀ (ch : Fin 4) (access : HostAccess) (s : State), s.quiet →
    let v := s.windows.get ch
    let p := s.works.port
    let under := v.state = .active ∧
      ((access = .ringFetch ∧ v.fetching = true) ∨ (access = .responseWrite ∧ v.writing = true) ∨ access = .buffer)
    (¬ under → exec (.hostAccessFailure ch access) s = .next s) ∧
    (under → ∃ port : Port,
      exec (.hostAccessFailure ch access) s = .next
        { s with
          windows := s.windows.set ch { v with state := .stopped, fetching := false, writing := false }
          vectors := s.vectors.set ch { s.vectors.get ch with unsignalled := 0, measuring := false }
          works := { s.works with port := port } } ∧
      port.out = p.out.set ch [] ∧ port.waiting = p.waiting.set ch [] ∧ port.notices = p.notices ∧
      port.writes = p.writes.filter (fun b => decide (b.ch ≠ ch)) ∧
      port.reqs.filter (fun r => decide (r.ch ≠ ch)) = p.reqs.filter (fun r => decide (r.ch ≠ ch)) ∧
      (∀ r ∈ port.reqs, r.ch = ch → r.discarded = true ∧ r.phase ≠ .ended ∧ ∀ b ∈ p.writes, b.ch = ch → b.req ≠ r.id) ∧
      ∀ r ∈ p.reqs, r.ch = ch → r.phase ≠ .ended → (∀ b ∈ p.writes, b.req ≠ r.id) → { r with discarded := true } ∈ port.reqs)

/-- When the oldest report of a channel has been written, its bytes stand in host memory from its buffer's address on, the report is
no longer under way, and its request, still in progress with a place in the outbound queue, is answered DONE with its results;
nothing else changes. With no report of the channel under way the command has no effect (notes/assumptions/4.md). That reports are
written oldest first and answered by this command is the model's choice (notes/assumptions/8.md). -/
def Obligations.ReportStandsInItsBufferBeforeTheAnswer : Prop :=
  ∀ (ch : Fin 4) (s : State), s.quiet →
    ((∀ b ∈ s.works.port.writes, b.ch ≠ ch) → exec (.bufferWriteDone ch) s = .next s) ∧
    ∀ (b : BufWrite) (r : Req), s.works.port.writes.find? (fun b => decide (b.ch = ch)) = some b → s.works.req b.req = some r →
      r.discarded = false → (s.works.port.out.get r.ch).length < 64 →
      exec (.bufferWriteDone ch) s = .next
        { s with
          host := hostWrite s.host b.addr b.bytes
          works := { s.works with
            port := { s.works.port with
              writes := s.works.port.writes.filter fun c => decide (c.req ≠ b.req)
              reqs := s.works.port.reqs.filter fun q => decide (q.id ≠ b.req)
              out := s.works.port.out.set r.ch
                (s.works.port.out.get r.ch ++ [⟨r.tag, .done, none, none, false, false, b.result⟩]) } } }

/-- A STATUS, DAY STATE or FILE STATE whose output buffer is present and long enough (1152, 760 and 248 bytes), and for the latter two
whose day or file exists, is taken, and the write of its report to its buffer begins, of exactly that length: for STATUS the
status report of the part as it stands (statusReport), for DAY STATE the day's report on today (DayEntry.report), for FILE STATE
the file's report (File.report); nothing else changes, and the archive is not altered. A buffer that is absent or too short is
refused MALFORMED, before an absent day or file is refused NOT_FOUND (that order is DEDUCED: notes/assumptions/15.md). That the
report's bytes reach host memory only at BUFFER_WRITE_DONE is the model's choice (notes/assumptions/8.md); a count above what its
field holds is written as a free value (notes/assumptions/30.md); that all figures of STATUS stand as they are at the command is
DEDUCED (notes/assumptions/27.md). -/
def Obligations.ReportsAreWrittenWholeOrRefused : Prop :=
  ∀ (ch : Fin 4) (s : State) (r : Req), s.quiet →
    (∀ n, s.offers ch .port r → r.request = .status → (n = r.length) →
      (r.addr ≠ 0 ∧ 1152 ≤ n → (statusReport s.ctx s.works).length = 1152 ∧
        exec (.status ch) s = .next
          { s with works := { s.works with port := s.works.port.reporting r (statusReport s.ctx s.works) .empty } }) ∧
      (r.addr = 0 ∨ n < 1152 → exec (.status ch) s = .next (s.refusing r .malformed))) ∧
    (∀ d, s.offers ch .catalogue r → r.request = .dayState d →
      (r.addr ≠ 0 → 760 ≤ r.length → ∀ e, s.works.day d = some e → (e.report d s.cfg.today).length = 760 ∧
        exec (.dayState ch) s = .next
          { s with works := { s.works with port := s.works.port.reporting r (e.report d s.cfg.today) .empty } }) ∧
      (r.addr ≠ 0 → 760 ≤ r.length → s.works.day d = none → exec (.dayState ch) s = .next (s.refusing r .notFound)) ∧
      (r.addr = 0 ∨ r.length < 760 → exec (.dayState ch) s = .next (s.refusing r .malformed))) ∧
    (∀ source fileId, s.offers ch .intake r → r.request = .fileState source fileId →
      (r.addr ≠ 0 → 248 ≤ r.length → ∀ p, s.works.intake.find source fileId = some p → p.2.report.length = 248 ∧
        exec (.fileState ch) s = .next { s with works := { s.works with port := s.works.port.reporting r p.2.report .empty } }) ∧
      (r.addr ≠ 0 → 248 ≤ r.length → s.works.intake.find source fileId = none →
        exec (.fileState ch) s = .next (s.refusing r .notFound)) ∧
      (r.addr = 0 ∨ r.length < 248 → exec (.fileState ch) s = .next (s.refusing r .malformed)))

/-- A TUNE whose rows present are all in range puts each of them in force, leaves every row that is absent, the epoch, the close lag
and the media channels' extents, sensing and times as they were, and changes neither today nor the tables. When only the scrub
interval and the watermarks are present the whole effect is: the settings, the scrub timer begun anew if the interval has changed,
and the write of the 392-byte settings block to the request's buffer begun. When a row present is out of range the request is
refused MALFORMED naming the first such row, and no setting changes. The numbers of the rows (notes/assumptions/12.md) and that
the marks of all four media channels are tested (notes/assumptions/13.md) are DEDUCED by the model; that a preference other than 0
or 1 is out of range is its choice (notes/assumptions/11.md). -/
def Obligations.TuneChangesOnlyTheRowsPresent : Prop :=
  ∀ (ch : Fin 4) (s : State) (r : Req) (mask : Nat) (b : RawSettings), s.offers ch .port r → r.request = .tune mask b → s.quiet →
    let old := s.cfg.settings
    ((∀ i < 9, tunes mask i = true → b.rowValid i = true) → ∃ t, exec (.tune ch) s = .next t ∧
      let new := t.cfg.settings
      t = { s with cfg := { s.cfg with settings := new }, works := t.works } ∧
      new.stall = (if tunes mask 0 then b.stall else old.stall) ∧ new.merge = (if tunes mask 1 then b.merge else old.merge) ∧
      new.hold = (if tunes mask 2 then b.hold else old.hold) ∧ new.idle = (if tunes mask 3 then b.idle else old.idle) ∧
      new.scrub = (if tunes mask 4 then b.scrub else old.scrub) ∧
      (∀ mc : Fin 4, new.media.get mc = if tunes mask 5 then
          { old.media.get mc with low := (b.media.get mc).low, high := (b.media.get mc).high } else old.media.get mc) ∧
      new.preference = (if tunes mask 6 then decide (b.preference = 1) else old.preference) ∧
      (tunes mask 7 = false → new.routes = old.routes) ∧
      (tunes mask 7 = true → ∀ i n : Nat, b.routes[i]? = some n → (new.routes[i]?).map (fun c : Fin 4 => c.val) = some n) ∧
      new.watermarks = (if tunes mask 8 then b.watermarks else old.watermarks) ∧
      new.epoch = old.epoch ∧ new.closeLag = old.closeLag) ∧
    ((∀ i < 9, tunes mask i = true → b.rowValid i = true) → (∀ i < 9, tunes mask i = true → i = 4 ∨ i = 8) →
      let block := ({ s.cfg with settings := s.cfg.settings.tuned mask b } : Cfg).block
      block.length = 392 ∧
        exec (.tune ch) s = .next
          { s with
            cfg := { s.cfg with settings := s.cfg.settings.tuned mask b }
            works := { s.works with
              port := s.works.port.reporting r block .empty
              scrub := if (s.cfg.settings.tuned mask b).scrub = old.scrub then s.works.scrub
                else { s.works.scrub with timerFrom := s.clock } } }) ∧
    ∀ i < 9, tunes mask i = true → b.rowValid i = false → (∀ j < i, tunes mask j = true → b.rowValid j = true) →
      exec (.tune ch) s = .next (s.answering r .refused (some .malformed) (.named i))

/-- A CONFIGURE accepted in STARTING puts all of the block's settings (the enquiry preference, the routes, and each media channel's
extents, sensing, times and marks among them), today and, as both the current and the pending copy, its class and policy tables in
force; the part is REBUILDING with an empty catalogue, no file, no staged or late record, an empty work queue, no hold and a free
cursor table; exactly the media channels with extents are ONLINE; and the request is answered DONE. A block with a row out of
range is refused MALFORMED and changes nothing else; outside STARTING the request is refused STATE. The number by which a refusal
names the setting is a free value (notes/assumptions/12.md). That flag bytes other than 0 or 1 are out of range is the model's
choice (notes/assumptions/11.md), and that the fields of channels without extents are tested is DEDUCED (notes/assumptions/13.md). -/
def Obligations.ConfigureStartsTheRebuild : Prop :=
  ∀ (ch : Fin 4) (s : State) (r : Req) (b : RawSettings), s.offers ch .startUp r → r.request = .configure b → s.quiet →
    (s.works.part ≠ .starting → exec (.configure ch) s = .next (s.refusing r .state)) ∧
    (s.works.part = .starting → (∃ i < 8, b.configureRow i = false) →
      ∃ n, exec (.configure ch) s = .next (s.answering r .refused (some .malformed) (.named n))) ∧
    (s.works.part = .starting → (∀ i < 8, b.configureRow i = true) → ∃ t, exec (.configure ch) s = .next t ∧
      t = { s with cfg := t.cfg, works := t.works } ∧
      t.cfg.today = some b.today ∧ t.cfg.settings.epoch = b.epoch ∧ t.cfg.settings.closeLag = b.closeLag ∧
      t.cfg.settings.stall = b.stall ∧ t.cfg.settings.merge = b.merge ∧ t.cfg.settings.hold = b.hold ∧
      t.cfg.settings.idle = b.idle ∧ t.cfg.settings.scrub = b.scrub ∧ t.cfg.settings.watermarks = b.watermarks ∧
      t.cfg.settings.preference = decide (b.preference = 1) ∧
      (∀ i n : Nat, b.routes[i]? = some n → (t.cfg.settings.routes[i]?).map (fun c : Fin 4 => c.val) = some n) ∧
      (∀ mc : Fin 4, t.cfg.settings.media.get mc = ⟨(b.media.get mc).extents,
        if (b.media.get mc).sensing = 0 then .readyLine else .fixedTime,
        (b.media.get mc).program, (b.media.get mc).read, (b.media.get mc).clear, (b.media.get mc).low, (b.media.get mc).high⟩) ∧
      t.cfg.classes = b.classes.map RawClass.entry ∧ t.cfg.pendingClasses = t.cfg.classes ∧
      t.cfg.policies = b.policies.map RawPolicy.policy ∧ t.cfg.pendingPolicies = t.cfg.policies ∧
      t.works.part = .rebuilding ∧ t.works.days = [] ∧ t.works.intake.files = [] ∧ t.works.intake.staging = [] ∧
      t.works.intake.late = [] ∧ t.works.packer.queue = [] ∧ t.works.retention.holds = [] ∧ t.works.array.cache = [] ∧
      (∀ n < 16, (t.works.cursor n).opened = false) ∧
      (∀ mc : Fin 4, (t.works.chan mc).online = decide (0 < (b.media.get mc).extents)) ∧
      t.works.port = s.works.port.answered r .done none .empty)

/-- An ARCHIVE RESET taken leaves the configuration, windows, vectors, media and host memory as they are, and the pending flags. The
part is REBUILDING, and all that the units hold, the port apart, is as at power-on: no day, file, staged or late record, gate
condition, work item, group, merge schedule, posted or cached image, hold, sweep, audit, lookup, batch, pending entry, scrub
position or count, slot or extent table entry, queued operation, contest state, void mark owed or relocation. But: each cursor is
FREE with the generation it had; exactly the media channels with extents are ONLINE, and the space notices armed; one hold range
spans every account (DEDUCED: notes/assumptions/16.md); the sheets whose quarantine the audit in progress had asked for are kept
for the rebuild (DEDUCED: notes/assumptions/62.md); and a media operation under way goes on, marked so that its end changes
nothing but the media (DEDUCED: notes/assumptions/16.md). Reports under way are dropped. On every channel each other request in
progress, not ended and not discarded, is refused RESET, in the order in which they entered progress, a READ CURSOR in progress
with the items it has written and the position BEFORE_FIRST (the model's choice: notes/assumptions/81.md); after them the request
itself is answered DONE. The responses join the outbound queue while it has a place, and those that find it full wait behind the
ones that wait, their requests ended; no other request stays in progress. The order of these responses is the model's choice
(notes/assumptions/28.md); that the requests of dropped reports are refused, and ended ones keep their responses, is DEDUCED
(notes/assumptions/16.md). -/
def Obligations.ArchiveResetBeginsTheRebuildAnew : Prop :=
  ∀ (ch : Fin 4) (s : State) (r : Req), s.offers ch .startUp r → r.request = .archiveReset → s.quiet →
    ∃ t, exec (.archiveReset ch) s = .next t ∧
      t = { s with works :=
        { Works.initial with
          serial := s.works.serial, part := .rebuilding, port := t.works.port
          array := { ArrayCtl.initial with chans := t.works.array.chans, fullArmed := true }
          enquiry := ⟨s.works.enquiry.cursors.map fun c => { Cursor.free with generation := c.generation }, []⟩
          retention := { Retention.initial with ranges := [⟨1, Config.maxAccount, none, [], false, none⟩] }
          rebuild := { Rebuild.initial with stood := (s.works.audit.map fun a => a.asked).getD [] } } } ∧
      (∀ mc : Fin 4, t.works.chan mc =
        { MediaChan.initial with
          online := decide (0 < (s.cfg.settings.media.get mc).extents), lowArmed := true
          busy := (s.works.chan mc).busy.map fun o => { o with stray := true } }) ∧
      t.works.port.writes = [] ∧ t.works.port.notices = s.works.port.notices ∧
      (s.works.port.reqs.Pairwise (fun a b => a.id ≠ b.id) → ∀ c : Fin 4, (s.works.port.out.get c).length ≤ 64 →
        let others := s.works.port.reqs.filter fun q =>
          decide (q.ch = c) && decide (q.id ≠ r.id) && decide (q.phase ≠ .ended) && !q.discarded
        let results (q : Req) : Result :=
          match (s.works.enquiry.cursors.filterMap fun c => c.reading).find? fun rd => decide (rd.req = q.id) with
          | some rd => .read (if rd.mode.peeks then 0 else rd.used) .beforeFirst
          | none => .empty
        let owed : List (Nat × Response) :=
          others.map (fun q => (q.id, ⟨q.tag, .refused, some .reset, none, false, false, results q⟩)) ++
            (if c = ch then [(r.id, ⟨r.tag, .done, none, none, false, false, .empty⟩)] else [])
        let room := 64 - (s.works.port.out.get c).length
        t.works.port.out.get c = s.works.port.out.get c ++ (owed.take room).map (fun p => p.2) ∧
        t.works.port.waiting.get c = s.works.port.waiting.get c ++ owed.drop room ∧
        ∀ q ∈ t.works.port.reqs, q.phase = .ended)

/-- While the part is REBUILDING and not yet resolved, REBUILD_SCAN asks a FOREGROUND media read of the next slot in scan order on
each ONLINE channel whose scan is neither at its end nor waiting for a read, at the tail of a queue that has room, and marks the
read outstanding; a channel that is OFFLINE, scanned, or waiting keeps its queue and its scan. In any other part state it has no
effect. Consequences are still to be carried out. That one command asks on every idle channel is the model's choice
(notes/assumptions/31.md), as is that it has no effect in another part state (notes/assumptions/4.md). -/
def Obligations.RebuildScanReadsTheNextSlotOfEachChannel : Prop :=
  ∀ s : State,
    (s.works.part ≠ .rebuilding ∨ s.works.rebuild.resolved = true → exec .rebuildScan s = .next s) ∧
    (s.works.part = .rebuilding → s.works.rebuild.resolved = false → ∃ w, Settles (exec .rebuildScan s) s w ∧
      w.part = .rebuilding ∧ w.days = s.works.days ∧ w.port = s.works.port ∧ w.rebuild.cands = s.works.rebuild.cands ∧
      ∀ mc : Fin 4,
        let scan := s.works.rebuild.scans.get mc
        let asks := scan.reading = false ∧ scan.next < 64 * (s.cfg.settings.media.get mc).extents ∧ (s.works.chan mc).online = true
        (asks → w.rebuild.scans.get mc = { scan with reading := true } ∧
          ((s.works.chan mc).queue.length < 512 → ∃ n, (w.chan mc).queue =
            (s.works.chan mc).queue ++ [⟨n, true, .read scan.next [(.rebuild, false)] false, false⟩])) ∧
        (¬ asks → w.rebuild.scans.get mc = scan ∧ w.chan mc = s.works.chan mc))

/-- OPEN FILE of a kind other than NORMAL (0) and RESTORE (1), or of a source above 4095, is refused MALFORMED before any other test
(DEDUCED: notes/assumptions/15.md, 37.md). A file of the key with a parcel in flight is refused BUSY; one SETTLING, RECONCILED or
DISCREPANT DUPLICATE_FILE; one RECEIVING under another kind or target STATE, else it restarts with its own target; an ABANDONED
one with records outstanding under another kind is refused STATE, else it reopens with the kind and target of the request; with no
file of the key a new one is made in the lowest free slot, or refused TABLE_FULL. Before a reopening, and before a new record or
TABLE_FULL, a RESTORE open is refused NOT_FOUND when the index has no such entry, STATE when it is LIVE, and BUSY when another
RESTORE file that names it is RECEIVING or SETTLING; the file takes the target with the entry's last key and index totals. An
opened file is RECEIVING with sequence, resume index, counts and presented totals 0, SATURATED clear, nothing declared and no
restore set; one that restarts or reopens keeps its outstanding count but for the records of its set. It is answered DONE with
slot and RECEIVING. When one other file of the source is RECEIVING, it becomes ABANDONED, its restore set discarded and taken off
its outstanding count; its parcel in flight, if its request can be answered on the same channel, is answered PARTIAL STATE with
its results so far, before the DONE (the model's order: notes/assumptions/28.md). Nothing else changes. -/
def Obligations.NewFileOpensInTheLowestFreeSlot : Prop :=
  ∀ (ch : Fin 4) (s : State) (r : Req) (source fileId kind cls day : Nat) (first : Key), s.offers ch .intake r →
    r.request = .openFile source fileId kind cls day first → s.quiet →
    let i := s.works.intake
    let refused (why : Reason) : Prop := exec (.openFile ch) s = .next (s.refusing r why)
    let named (t : Target) : Prop := t.day = day ∧ t.cls = cls ∧ t.first = first
    let elsewhere (here : Option Nat) : Prop := ∃ p ∈ i.files, some p.1 ≠ here ∧
      (p.2.state = .receiving ∨ p.2.state = .settling) ∧ ∃ t, p.2.target = some t ∧ named t
    let barred (here : Option Nat) (why : Reason) : Prop := kind = 1 ∧
      ((s.works.entryAt day cls first = none ∧ why = .notFound) ∨ ∃ e, s.works.entryAt day cls first = some e ∧
        ((e.quarantined = false ∧ why = .state) ∨ (e.quarantined = true ∧ elsewhere here ∧ why = .busy)))
    let aims (here : Option Nat) (t : Option Target) : Prop := (kind = 0 ∧ t = none) ∨
      (kind = 1 ∧ ∃ e, s.works.entryAt day cls first = some e ∧ e.quarantined = true ∧ ¬ elsewhere here ∧
        t = some ⟨day, cls, first, e.last, e.totals⟩)
    let alike (f : File) : Prop := (kind = 0 ∧ f.target = none) ∨ (kind = 1 ∧ ∃ t, f.target = some t ∧ named t)
    let anew (t : Option Target) (outstanding : Nat) : File :=
      ⟨source, fileId, .receiving, t, 0, 0, none, none, ⟨0, 0, 0⟩, false, List.replicate 11 0, outstanding, []⟩
    let opens (slot : Nat) (f : File) : Prop :=
      ((∀ p ∈ i.files, p.1 ≠ slot → p.2.source = source → p.2.state ≠ .receiving) →
        exec (.openFile ch) s = .next
          { s with
            works := { s.works with
              intake := { i with files := tblPut slot f i.files }
              port := s.works.port.answered r .done none (.fileSlot slot .receiving) } }) ∧
      ∀ k g, tblGet k i.files = some g → k ≠ slot → g.source = source → g.state = .receiving →
        (∀ p ∈ i.files, p.1 ≠ slot → p.2.source = source → p.2.state = .receiving → p.1 = k) →
        let gone := { g with state := .abandoned, outstanding := g.outstanding - g.restoreSet.length, restoreSet := [] }
        (g.parcel = none → ∃ files, exec (.openFile ch) s = .next
            { s with
              works := { s.works with
                intake := { i with files := files }
                port := s.works.port.answered r .done none (.fileSlot slot .receiving) } } ∧
          tblGet slot files = some f ∧ tblGet k files = some gone ∧ ∀ j, j ≠ slot → j ≠ k → tblGet j files = tblGet j i.files) ∧
        ∀ (p : Parcel) (q : Req), g.parcel = some p → s.works.req p.req = some q → q.id ≠ r.id → q.ch = ch → q.discarded = false →
          (s.works.port.out.get ch).length < 63 → ∃ files, exec (.openFile ch) s = .next
            { s with
              works := { s.works with
                intake := { i with files := files }
                port := (s.works.port.answered q .partly (some .state) (.parcel p.consumed p.written .abandoned p.counts)).answered r
                  .done none (.fileSlot slot .receiving) } } ∧
          tblGet slot files = some f ∧ (∀ j, j ≠ slot → j ≠ k → tblGet j files = tblGet j i.files) ∧
          ∃ n, tblGet k files = some { gone with parcel := none, nextSeq := (g.nextSeq + 1) % 2 ^ 32, resume := n } ∧
            (g.resume + p.consumed < 2 ^ 32 → n = g.resume + p.consumed)
    (1 < kind ∨ 4095 < source → refused .malformed) ∧
    (kind ≤ 1 → source ≤ 4095 →
      (i.find source fileId = none →
        (∀ why, barred none why → refused why) ∧
        ∀ t, aims none t →
          ((∀ k < 1024, (tblGet k i.files).isSome) → refused .tableFull) ∧
          ∀ slot < 1024, tblGet slot i.files = none → (∀ k < slot, (tblGet k i.files).isSome) → opens slot (anew t 0)) ∧
      ∀ slot f, i.find source fileId = some (slot, f) →
        (f.parcel.isSome → refused .busy) ∧
        (f.parcel = none →
          (f.state = .settling ∨ f.state = .reconciled ∨ f.state = .discrepant → refused .duplicateFile) ∧
          (f.state = .receiving → ¬ alike f → refused .state) ∧
          (f.state = .receiving → alike f → opens slot (anew f.target (f.outstanding - f.restoreSet.length))) ∧
          (f.state = .abandoned → 0 < f.outstanding → (kind = 0 ↔ f.target ≠ none) → refused .state) ∧
          (f.state = .abandoned → (0 < f.outstanding → (kind = 0 ↔ f.target = none)) →
            (∀ why, barred (some slot) why → refused why) ∧
            ∀ t, aims (some slot) t → opens slot (anew t (f.outstanding - f.restoreSet.length)))))

/-- INGEST PARCEL is refused MALFORMED when it has no record or more than 4096, when its end lies beyond index 4 294 967 296, or when
it names a refusal list that has no room for 4 bytes per record. Otherwise it is refused NOT_FOUND for an absent file, STATE for
one that is not RECEIVING, BUSY for one with a parcel in flight, and PARCEL_ORDER when its sequence is not the next or its start
index not the resume index; in the remaining case the parcel is in flight with all its records still to be consumed and the
request is taken. Nothing else changes. -/
def Obligations.ParcelIsTakenOnlyInOrder : Prop :=
  ∀ (ch : Fin 4) (s : State) (r : Req) (source fileId sequence start listLength : Nat) (records : List Plain),
    s.offers ch .intake r → r.request = .ingestParcel source fileId sequence start listLength records → s.quiet →
    let wellFormed := 1 ≤ records.length ∧ records.length ≤ 4096 ∧ start + records.length ≤ 2 ^ 32 ∧
      (r.listAddr = 0 ∨ 4 * records.length ≤ listLength)
    (¬ wellFormed → exec (.ingestParcel ch) s = .next (s.refusing r .malformed)) ∧
    (wellFormed → s.works.intake.find source fileId = none → exec (.ingestParcel ch) s = .next (s.refusing r .notFound)) ∧
    ∀ slot f, wellFormed → s.works.intake.find source fileId = some (slot, f) →
      (f.state ≠ .receiving → exec (.ingestParcel ch) s = .next (s.refusing r .state)) ∧
      (f.state = .receiving → f.parcel.isSome → exec (.ingestParcel ch) s = .next (s.refusing r .busy)) ∧
      (f.state = .receiving → f.parcel = none → sequence ≠ f.nextSeq ∨ start ≠ f.resume →
        exec (.ingestParcel ch) s = .next (s.refusing r .parcelOrder)) ∧
      (f.state = .receiving → f.parcel = none → sequence = f.nextSeq → start = f.resume →
        exec (.ingestParcel ch) s = .next
          { s with
            works := { s.works with
              intake := { s.works.intake with
                files := tblPut slot
                  { f with parcel := some ⟨r.id, r.ch, r.tag, records, 0, List.replicate 11 0, 0, r.listAddr, none⟩ }
                  s.works.intake.files }
              port := s.works.port.taken r } })

/-- CLOSE FILE of a RECEIVING file with no parcel in flight and two places in the outbound queue: the declared totals are recorded and
the file becomes DISCREPANT when a total has saturated or the totals presented differ from those declared. Else a NORMAL file
becomes RECONCILED with no record outstanding and SETTLING with some; a RESTORE file becomes SETTLING when its target stands
QUARANTINED in the index and the totals of its set are the index totals recorded at the open (the model's choice:
notes/assumptions/54.md), and DISCREPANT when not. A RESTORE file that becomes DISCREPANT has its set discarded and taken off its
outstanding count; for one that becomes SETTLING a RESTORE item is asked of the Packer, the one consequence still to be carried
out. A file RECONCILED or DISCREPANT raises FILE_SETTLED, which names the file and its state with the outcome DONE (the model's
choice: notes/assumptions/71.md): on the channel routed for it, when that is ACTIVE and its outbound queue has a place, MERGED as
the pending flag stood, which is then clear, and else in the pending flag, MERGED if it was set. After the notice (the model's
order: notes/assumptions/28.md) the request is answered DONE with the slot, the new state and the totals presented. No other
queue, request or part of the state changes. An absent file is refused NOT_FOUND, one not RECEIVING STATE, one with a parcel in
flight BUSY. -/
def Obligations.CloseFileComparesTheTotals : Prop :=
  ∀ (ch : Fin 4) (s : State) (r : Req) (source fileId : Nat) (declared : FileTotals), s.offers ch .intake r →
    r.request = .closeFile source fileId declared → s.quiet → (s.works.port.out.get ch).length < 63 →
    (s.works.intake.find source fileId = none → exec (.closeFile ch) s = .next (s.refusing r .notFound)) ∧
    ∀ slot f, s.works.intake.find source fileId = some (slot, f) →
      (f.state ≠ .receiving → exec (.closeFile ch) s = .next (s.refusing r .state)) ∧
      (f.state = .receiving → f.parcel.isSome → exec (.closeFile ch) s = .next (s.refusing r .busy)) ∧
      ∀ st : FileState, f.state = .receiving → f.parcel = none →
        let agree := f.saturated = false ∧ f.presented = declared
        let whole (t : Target) := (∃ e, s.works.entryAt t.day t.cls t.first = some e ∧ e.quarantined = true) ∧
          recTotals f.restoreSet = t.totals
        ((st = .discrepant ∧ (¬ agree ∨ ∃ t, f.target = some t ∧ ¬ whole t)) ∨
          (st = .reconciled ∧ agree ∧ f.target = none ∧ f.outstanding = 0) ∨
          (st = .settling ∧ agree ∧ f.target = none ∧ 0 < f.outstanding) ∨
          (st = .settling ∧ agree ∧ ∃ t, f.target = some t ∧ whole t)) →
          let notes := s.cfg.settings.routes.getD 4 0
          let merged := (s.works.port.notices.getD 4 none).isSome
          let noted : Port :=
            if st = .settling then s.works.port
            else if (s.windows.get notes).state = .active ∧ (s.works.port.out.get notes).length < 64 then
              { s.works.port with
                notices := s.works.port.notices.set 4 none
                out := s.works.port.out.set notes (s.works.port.out.get notes ++
                  [⟨0, .done, none, some .fileSettled, false, merged, .file f.source f.fileId st⟩]) }
            else { s.works.port with notices := s.works.port.notices.set 4 (some ⟨.file f.source f.fileId st, merged⟩) }
          let f' := if st = .discrepant ∧ f.target.isSome then
              { f with declared := some declared, state := st, outstanding := f.outstanding - f.restoreSet.length, restoreSet := [] }
            else { f with declared := some declared, state := st }
          let w := { s.works with
            intake := { s.works.intake with files := tblPut slot f' s.works.intake.files }
            port := noted.answered r .done none (.fileClosed slot st f.presented) }
          (st = .settling ∧ f.target.isSome → Settles (exec (.closeFile ch) s) s { w with tasks := [.ask (.intake slot)] }) ∧
          (¬ (st = .settling ∧ f.target.isSome) → exec (.closeFile ch) s = .next { s with works := w })

/-- ABANDON FILE is refused NOT_FOUND for an absent file and STATE for one SETTLING, RECONCILED or DISCREPANT; for an ABANDONED file
it is answered DONE and changes nothing else. A RECEIVING file that alone stands in its slot becomes ABANDONED with its restore
set discarded and taken off its outstanding count; with a parcel in flight whose request can be answered on the same channel, that
parcel is answered PARTIAL with reason STATE and its results so far, before the request itself is answered DONE (the model's
order: notes/assumptions/28.md). -/
def Obligations.AbandonFileEndsAReceivingFile : Prop :=
  ∀ (ch : Fin 4) (s : State) (r : Req) (source fileId : Nat), s.offers ch .intake r → r.request = .abandonFile source fileId →
    s.quiet →
    (s.works.intake.find source fileId = none → exec (.abandonFile ch) s = .next (s.refusing r .notFound)) ∧
    ∀ slot f, s.works.intake.find source fileId = some (slot, f) →
      (f.state = .settling ∨ f.state = .reconciled ∨ f.state = .discrepant →
        exec (.abandonFile ch) s = .next (s.refusing r .state)) ∧
      (f.state = .abandoned → exec (.abandonFile ch) s = .next (s.answering r .done none .empty)) ∧
      (f.state = .receiving → tblGet slot s.works.intake.files = some f →
        let gone := { f with state := .abandoned, outstanding := f.outstanding - f.restoreSet.length, restoreSet := [] }
        (f.parcel = none → ∃ files, exec (.abandonFile ch) s = .next
            { s with
              works := { s.works with
                intake := { s.works.intake with files := files }
                port := s.works.port.answered r .done none .empty } } ∧
          tblGet slot files = some gone ∧ ∀ k, k ≠ slot → tblGet k files = tblGet k s.works.intake.files) ∧
        ∀ (p : Parcel) (q : Req), f.parcel = some p → s.works.req p.req = some q → q.id ≠ r.id → q.ch = ch → q.discarded = false →
          (s.works.port.out.get ch).length < 63 → ∃ t, exec (.abandonFile ch) s = .next t ∧
            t.works.port.out = s.works.port.out.set ch (s.works.port.out.get ch ++
              [⟨q.tag, .partly, some .state, none, false, false, .parcel p.consumed p.written .abandoned p.counts⟩,
               ⟨r.tag, .done, none, none, false, false, .empty⟩]) ∧
            (∃ g, tblGet slot t.works.intake.files = some g ∧ g.state = .abandoned ∧ g.parcel = none ∧ g.restoreSet = [] ∧
              g.counts = f.counts) ∧
            ∀ k, k ≠ slot → tblGet k t.works.intake.files = tblGet k s.works.intake.files)

/-- FORGET FILE is refused NOT_FOUND for an absent file, and STATE for a file RECEIVING or SETTLING or with an outstanding count above
0. Otherwise the record leaves the table, its file slot is free, and the request is answered DONE, nothing else changing. In a
table with one record per key and per slot no record of the key is left, so that a later OPEN FILE of it makes a new record. -/
def Obligations.ForgetFileFreesTheSlot : Prop :=
  ∀ (ch : Fin 4) (s : State) (r : Req) (source fileId : Nat), s.offers ch .intake r → r.request = .forgetFile source fileId →
    s.quiet →
    (s.works.intake.find source fileId = none → exec (.forgetFile ch) s = .next (s.refusing r .notFound)) ∧
    ∀ slot f, s.works.intake.find source fileId = some (slot, f) →
      (f.state = .receiving ∨ f.state = .settling ∨ 0 < f.outstanding →
        exec (.forgetFile ch) s = .next (s.refusing r .state)) ∧
      (f.state ≠ .receiving → f.state ≠ .settling → f.outstanding = 0 → ∃ files, exec (.forgetFile ch) s = .next
          { s with
            works := { s.works with
              intake := { s.works.intake with files := files }
              port := s.works.port.answered r .done none .empty } } ∧
        tblGet slot files = none ∧ (∀ k, k ≠ slot → tblGet k files = tblGet k s.works.intake.files) ∧
        ((∀ p ∈ s.works.intake.files, p.2.source = source → p.2.fileId = fileId → p.1 = slot) →
          ({ s.works.intake with files := files } : Intake).find source fileId = none))

/-- For a NORMAL file with a parcel in flight that nothing holds back: a record MALFORMED, FUTURE (its day after tomorrow), EXPIRED
(due under the policies in force, its account not held), without a DAY for want of a table place, or DUPLICATE or CONFLICT with a
staged or late record of its identity, each taken only when no earlier step refuses it, is counted among the records presented
with its duration and charge (each total saturating at 2^64 - 1) and under its outcome in the file and in the parcel, and
consumed. With a refusal list and a request still heard, the 4-byte entry of its index and outcome stands in host memory after
those before it; without a list, or for a discarded request, nothing is written. When it was the last record the parcel is
answered DONE (a discarded request leaves progress without a response), the sequence rises by 1 and the resume index by the
records consumed. Neither a day, nor staging, nor the Late List changes. That the entry stands in host memory at its record's own
event is the model's choice (notes/assumptions/8.md). -/
def Obligations.RecordIntakeRefusesByTheFirstFailingStep : Prop :=
  ∀ (slot today : Nat) (s : State) (f : File) (p : Parcel) (rec : Plain) (rest : List Plain) (q : Req) (fate : Fate), s.quiet →
    s.cfg.today = some today → tblGet slot s.works.intake.files = some f → f.target = none → f.parcel = some p →
    p.rest = rec :: rest → s.works.intake.gateClosed = false →
    (∀ e, s.works.day (dayOf rec.start) = some e → e.going = false) →
    s.works.req p.req = some q →
    let listed := p.listAddr ≠ 0 ∧ q.discarded = false
    let written := if listed then p.written + 1 else p.written
    let d := dayOf rec.start
    let cls := classOf s.cfg.classes rec.account
    let overdue := due s.cfg.settings.epoch s.cfg.policies today d cls = true ∧ tblGet rec.account s.works.retention.holds = none
    let timely := rec.malformed = false ∧ d ≤ today + 1
    ((fate = .malformed ∧ rec.malformed = true) ∨ (fate = .future ∧ rec.malformed = false ∧ today + 1 < d) ∨
      (fate = .expired ∧ timely ∧ overdue) ∨
      (fate = .noDay ∧ timely ∧ ¬ overdue ∧ s.works.day d = none ∧ 4096 ≤ s.works.days.length) ∨
      (∃ twin e, s.works.day d = some e ∧ s.works.intake.twin (rec.held cls) = some twin ∧ timely ∧ ¬ overdue ∧
        ((fate = .duplicate ∧ sameCall twin (rec.held cls) = true) ∨ (fate = .conflict ∧ sameCall twin (rec.held cls) = false)))) →
    ∃ files port,
      exec (.recordIntakeEvent slot) s = .next
        { s with
          host := if listed then hostWrite s.host (p.listAddr + 4 * p.written) (le 2 p.consumed ++ le 1 fate.index ++ le 1 0) else s.host
          works := { s.works with
            intake := { s.works.intake with files := files }
            port := port } } ∧
      (∀ k, k ≠ slot → tblGet k files = tblGet k s.works.intake.files) ∧
      ∃ g : File, tblGet slot files = some g ∧
        g.presented = ⟨min (f.presented.count + 1) (2 ^ 64 - 1), min (f.presented.dur + rec.dur) (2 ^ 64 - 1),
          min (f.presented.charge + rec.charge) (2 ^ 64 - 1)⟩ ∧
        g.counts = f.counts.set fate.index (f.counts.getD fate.index 0 + 1) ∧ g.outstanding = f.outstanding ∧ g.state = f.state ∧
        (rest ≠ [] → port = s.works.port ∧ g.nextSeq = f.nextSeq ∧ g.resume = f.resume ∧ g.parcel = some
          { p with rest := rest, consumed := p.consumed + 1, written := written, wait := none,
                   counts := p.counts.set fate.index (p.counts.getD fate.index 0 + 1) }) ∧
        (rest = [] → g.parcel = none ∧ g.nextSeq = (f.nextSeq + 1) % 2 ^ 32 ∧
          (f.resume + (p.consumed + 1) < 2 ^ 32 → g.resume = f.resume + (p.consumed + 1)) ∧
          (q.discarded = false → (s.works.port.out.get q.ch).length < 64 →
            port = s.works.port.answered q .done none (.parcel (p.consumed + 1) written f.state
              (p.counts.set fate.index (p.counts.getD fate.index 0 + 1)))) ∧
          (q.discarded = true → port = { s.works.port with reqs := s.works.port.reqs.filter fun r => decide (r.id ≠ q.id) }))

/-- For a NORMAL file with a parcel in flight, nothing holding it back, a record that is well formed, not FUTURE, not EXPIRED and new
in its day: in an OPEN day it is ACCEPTED into the staging set of its day and class in key order and counted in the day's intake
and staged triples; in a CLOSING or CLOSED day it joins the Late List in the order of day, class and key with LATE set and its
arrival time, is counted in intake and late, and a merge of its day and class is tested; a day the table has room for is created,
OPEN when today is at most the close lag ahead of it and CLOSED otherwise. The file's outstanding count and the counts of the
outcome rise by 1, the record is consumed, and both gate conditions are tested. After the last record the parcel is answered DONE
with its results (a discarded request leaves progress without a response), the sequence rises by 1 and the resume index by the
records consumed. A day whose counters balance (held + staged + late = intake - retired - voided + corrections) still balances.
Nothing is written to host memory, and no other day, staging set or file changes. -/
def Obligations.AcceptedRecordIsStagedOrLate : Prop :=
  ∀ (slot today : Nat) (s : State) (f : File) (p : Parcel) (rec : Plain) (rest : List Plain), s.quiet →
    s.cfg.today = some today → tblGet slot s.works.intake.files = some f → f.target = none → f.parcel = some p →
    p.rest = rec :: rest → s.works.intake.gateClosed = false → rec.malformed = false →
    let d := dayOf rec.start
    let cls := classOf s.cfg.classes rec.account
    let call := rec.held cls
    d ≤ today + 1 →
    (due s.cfg.settings.epoch s.cfg.policies today d cls = true → (tblGet rec.account s.works.retention.holds).isSome) →
    s.works.intake.twin call = none →
    let filed (w : Works) (fate : Fate) : Prop :=
      (∀ k, k ≠ slot → tblGet k w.intake.files = tblGet k s.works.intake.files) ∧
      ∃ g : File, tblGet slot w.intake.files = some g ∧ g.outstanding = f.outstanding + 1 ∧ g.state = f.state ∧
        g.counts = f.counts.set fate.index (f.counts.getD fate.index 0 + 1) ∧
        let counts := p.counts.set fate.index (p.counts.getD fate.index 0 + 1)
        (rest ≠ [] → w.port = s.works.port ∧ g.nextSeq = f.nextSeq ∧ g.resume = f.resume ∧
          g.parcel = some { p with rest := rest, consumed := p.consumed + 1, wait := none, counts := counts }) ∧
        (rest = [] → g.parcel = none ∧ g.nextSeq = (f.nextSeq + 1) % 2 ^ 32 ∧
          (f.resume + (p.consumed + 1) < 2 ^ 32 → g.resume = f.resume + (p.consumed + 1)) ∧
          ∀ q : Req, s.works.req p.req = some q →
            (q.discarded = false → (s.works.port.out.get q.ch).length < 64 →
              w.port = s.works.port.answered q .done none (.parcel (p.consumed + 1) p.written f.state counts)) ∧
            (q.discarded = true → w.port = { s.works.port with reqs := s.works.port.reqs.filter fun r => decide (r.id ≠ q.id) }))
    let gates (i : Intake) : Prop :=
      (30198988 ≤ i.stagedCount → i.stagingHigh = true) ∧ (i.stagedCount < 26843545 → i.stagingHigh = false) ∧
      (1048576 ≤ i.late.length → i.lateFull = true) ∧ (i.late.length < 838860 → i.lateFull = false)
    let staged (days : Tbl DayEntry) : Prop := ∃ t, exec (.recordIntakeEvent slot) s = .next t ∧
      t = { s with works := { s.works with days := t.works.days, intake := t.works.intake, port := t.works.port } } ∧
      t.works.days = tblModify d (fun e => { e with intake := e.intake.add call.totals, staged := e.staged.add call.totals }) days ∧
      t.works.intake.staging = tblPut (8 * d + cls)
        (insertBy (fun a b => a.call.key.lt b.call.key) ⟨call, slot⟩ (s.works.intake.set d cls)) s.works.intake.staging ∧
      t.works.intake.late = s.works.intake.late ∧ filed t.works .accepted ∧ gates t.works.intake ∧
      ((∀ e, tblGet d days = some e → e.conserved) → ∀ e, t.works.day d = some e → e.conserved)
    let lated (days : Tbl DayEntry) : Prop := ∃ w, Settles (exec (.recordIntakeEvent slot) s) s w ∧
      w = { s.works with days := w.days, intake := w.intake, packer := w.packer, port := w.port, tasks := [.mergeTest d cls] } ∧
      w.days = tblModify d (fun e => { e with intake := e.intake.add call.totals, late := e.late.add call.totals }) days ∧
      w.intake.staging = s.works.intake.staging ∧
      w.intake.late = insertBy lateLt ⟨{ call with marks := { call.marks with late := true } }, slot, s.clock⟩ s.works.intake.late ∧
      w.packer.queue = s.works.packer.queue ∧ w.packer.groups = s.works.packer.groups ∧ filed w .late ∧ gates w.intake ∧
      ((∀ e, tblGet d days = some e → e.conserved) → ∀ e, w.day d = some e → e.conserved)
    (∀ e, s.works.day d = some e → e.going = false →
      (e.state = .opened → staged s.works.days) ∧ (e.state ≠ .opened → lated s.works.days)) ∧
    (s.works.day d = none → s.works.days.length < 4096 →
      (today ≤ d + s.cfg.settings.closeLag → staged (tblPut d (DayEntry.new .opened) s.works.days)) ∧
      (d + s.cfg.settings.closeLag < today → lated (tblPut d (DayEntry.new .closed) s.works.days)))

/-- While the gate is closed, or the next record's day is GOING, the record intake event of a NORMAL file consumes nothing: the parcel
waits, from the present time if it waits for nothing now (also when it was held back before at the same boundary and released: the
model's choice, notes/assumptions/41.md), and nothing else changes. When a waiting parcel has waited the stall limit, the clock
stands at that moment at least, and the parcel is answered PARTIAL with reason BUSY and its results so far, the sequence rising by
1 and the resume index by the records consumed. A STALL_LIMIT for a file whose parcel does not wait has no effect. The clock is
the model's own (notes/assumptions/2.md). -/
def Obligations.ParcelHeldBackWaitsFromItsFirstHindrance : Prop :=
  ∀ (slot : Nat) (s : State), s.quiet →
    (∀ (f : File) (p : Parcel) (rec : Plain) (rest : List Plain) (c : ParcelWait),
      tblGet slot s.works.intake.files = some f → f.target = none → f.parcel = some p → p.rest = rec :: rest →
      ((c = .gate ∧ s.works.intake.gateClosed = true) ∨
        (c = .going (dayOf rec.start) ∧ s.works.intake.gateClosed = false ∧
          ∃ e, s.works.day (dayOf rec.start) = some e ∧ e.going = true)) →
      exec (.recordIntakeEvent slot) s = .next
        { s with
          works := { s.works with
            intake := { s.works.intake with
              files := tblPut slot
                { f with parcel := some { p with wait := some ((p.wait.map (fun t => t.1)).getD s.clock, c) } }
                s.works.intake.files } } }) ∧
    ((∀ f p, tblGet slot s.works.intake.files = some f → f.parcel = some p → p.wait = none) →
      exec (.stallLimit slot) s = .next s) ∧
    (∀ (f : File) (p : Parcel) (since : Nat) (c : ParcelWait) (q : Req), tblGet slot s.works.intake.files = some f →
      f.parcel = some p → p.wait = some (since, c) → s.works.req p.req = some q → q.discarded = false →
      (s.works.port.out.get q.ch).length < 64 → f.resume + p.consumed < 2 ^ 32 →
      exec (.stallLimit slot) s = .next
        { s with
          clock := max s.clock (since + 1000 * s.cfg.settings.stall)
          works := { s.works with
            intake := { s.works.intake with
              files := tblPut slot
                { f with parcel := none, nextSeq := (f.nextSeq + 1) % 2 ^ 32, resume := f.resume + p.consumed }
                s.works.intake.files }
            port := s.works.port.answered q .partly (some .busy) (.parcel p.consumed p.written f.state p.counts) } })

/-- For a RESTORE file with a parcel in flight, the first case that holds gives the record's outcome: MALFORMED when it reads so;
OUT_OF_RANGE when its day is not the target's, its key lies outside the target's range, or the set holds 512 records; DUPLICATE or
CONFLICT when the set holds a record of its identity, as the eleven given fields agree with the first such record or not; else
ACCEPTED, and it joins the restore set in key order under the target's class, the outstanding count rising by 1. In every other
case the set and that count stay. Every record is counted as presented with its duration and charge (each total saturating at 2^64
- 1) and under its outcome in the file and the parcel, and consumed. With a refusal list and a request still heard, the 4-byte
entry of the index and outcome of a record not ACCEPTED stands in host memory after those before it, at the record's own event
(the model's choice: notes/assumptions/8.md); else nothing is written. After the last record the parcel is answered DONE with its
results (a discarded request leaves progress without a response), the sequence rises by 1 and the resume index by the records
consumed. Nothing but the file, the list and, at that end, the port changes, neither a day nor staging. -/
def Obligations.RestoredRecordJoinsTheRestoreSet : Prop :=
  ∀ (slot : Nat) (s : State) (f : File) (g : Target) (p : Parcel) (rec : Plain) (rest : List Plain) (q : Req) (fate : Fate), s.quiet →
    tblGet slot s.works.intake.files = some f → f.target = some g → f.parcel = some p → p.rest = rec :: rest →
    s.works.req p.req = some q →
    let call := rec.held g.cls
    let within := dayOf rec.start = g.day ∧ call.key.lt g.first = false ∧ g.last.lt call.key = false ∧ f.restoreSet.length < 512
    let twin := f.restoreSet.find? fun r => decide (r.identity = call.identity)
    let listed := fate ≠ .accepted ∧ p.listAddr ≠ 0 ∧ q.discarded = false
    let written := if listed then p.written + 1 else p.written
    let counts := p.counts.set fate.index (p.counts.getD fate.index 0 + 1)
    ((fate = .malformed ∧ rec.malformed = true) ∨ (fate = .outOfRange ∧ rec.malformed = false ∧ ¬ within) ∨
      (∃ r, twin = some r ∧ rec.malformed = false ∧ within ∧
        ((fate = .duplicate ∧ sameCall r call = true) ∨ (fate = .conflict ∧ sameCall r call = false))) ∨
      (fate = .accepted ∧ twin = none ∧ rec.malformed = false ∧ within)) →
    ∃ files port,
      exec (.restoreRecordIntake slot) s = .next
        { s with
          host := if listed then hostWrite s.host (p.listAddr + 4 * p.written) (le 2 p.consumed ++ le 1 fate.index ++ le 1 0) else s.host
          works := { s.works with intake := { s.works.intake with files := files }, port := port } } ∧
      (∀ k, k ≠ slot → tblGet k files = tblGet k s.works.intake.files) ∧
      ∃ h : File, tblGet slot files = some h ∧
        h.restoreSet = (if fate = .accepted then insertBy recLt call f.restoreSet else f.restoreSet) ∧
        h.outstanding = (if fate = .accepted then f.outstanding + 1 else f.outstanding) ∧ h.state = f.state ∧ h.target = f.target ∧
        h.presented = ⟨min (f.presented.count + 1) (2 ^ 64 - 1), min (f.presented.dur + rec.dur) (2 ^ 64 - 1),
          min (f.presented.charge + rec.charge) (2 ^ 64 - 1)⟩ ∧
        h.counts = f.counts.set fate.index (f.counts.getD fate.index 0 + 1) ∧
        (rest ≠ [] → port = s.works.port ∧ h.nextSeq = f.nextSeq ∧ h.resume = f.resume ∧
          h.parcel = some { p with rest := rest, consumed := p.consumed + 1, written := written, wait := none, counts := counts }) ∧
        (rest = [] → h.parcel = none ∧ h.nextSeq = (f.nextSeq + 1) % 2 ^ 32 ∧
          (f.resume + (p.consumed + 1) < 2 ^ 32 → h.resume = f.resume + (p.consumed + 1)) ∧
          (q.discarded = false → (s.works.port.out.get q.ch).length < 64 →
            port = s.works.port.answered q .done none (.parcel (p.consumed + 1) written f.state counts)) ∧
          (q.discarded = true → port = { s.works.port with reqs := s.works.port.reqs.filter fun r => decide (r.id ≠ q.id) }))

/-- CLOSE DAY is refused NOT_FOUND for a day without an entry, and answered DONE with its state, nothing changing, for a day CLOSING
or CLOSED. An OPEN day with staged records in the Day Table once enters CLOSING awaiting the classes that have them, ascending,
and its CLOSE_RUN items are then asked for; one without staged records enters CLOSED and a merge is then tested for each class.
The request is answered DONE with the state after the event, before the consequences; that order, and the merge tests in ascending
class, are the model's choice (notes/assumptions/28.md). -/
def Obligations.CloseDayBeginsClosing : Prop :=
  ∀ (ch : Fin 4) (s : State) (r : Req) (d : Nat), s.offers ch .catalogue r → r.request = .closeDay d → s.quiet →
    (s.works.day d = none → exec (.closeDay ch) s = .next (s.refusing r .notFound)) ∧
    ∀ e, s.works.day d = some e →
      (e.state ≠ .opened → exec (.closeDay ch) s = .next (s.answering r .done none (.dayState e.state))) ∧
      (e.state = .opened →
        let classes := (List.range 8).filter fun c => decide (s.works.intake.set d c ≠ [])
        (classes ≠ [] → Settles (exec (.closeDay ch) s) s
          { s.works with
            days := tblModify d (fun e => { e with state := .closing, awaiting := classes }) s.works.days
            tasks := [.ask (.catalogue d)]
            port := s.works.port.answered r .done none (.dayState .closing) }) ∧
        (classes = [] → Settles (exec (.closeDay ch) s) s
          { s.works with
            days := tblModify d (fun e => { e with state := .closed, awaiting := [] }) s.works.days
            tasks := (List.range 8).map fun c => .mergeTest d c
            port := s.works.port.answered r .done none (.dayState .closed) }))

/-- A DAY ROLL to T' is refused DAY_ORDER, nothing else changing, when T' is at most today, more than 31 days after it, or above 49
710. Otherwise, in one event: today is T' and the pending class and policy tables become the current ones; each OPEN day that lies
more than the close lag before T' enters CLOSING awaiting the classes that have staged records, or CLOSED without any, and no
other day changes; each account whose regulatory hold's release day has come loses that hold, its entry staying with its disputes
or, with dispute count 0, being removed, and no other account's entry changes; each range with such an account has its rewrite-
owed flag set, nothing else of a range changes, and as consequences follow, for the days that began closing in ascending order,
the CLOSE_RUN requests of those with staged records and the merge tests of the eight classes of the others, and then the start of
the rewrite of every range with the flag (the model's order: notes/assumptions/28.md); and a sweep under the new policies starts,
or the running one is marked to run again. The request is answered DONE with T' and the number of days that began closing. -/
def Obligations.DayRollMovesTodayAndTheTables : Prop :=
  ∀ (ch : Fin 4) (s : State) (r : Req) (today new : Nat), s.offers ch .catalogue r → r.request = .dayRoll new → s.quiet →
    s.cfg.today = some today →
    (new ≤ today ∨ today + 31 < new ∨ 49710 < new → exec (.dayRoll ch) s = .next (s.refusing r .dayOrder)) ∧
    (today < new → new ≤ today + 31 → new ≤ 49710 →
      let closing := s.works.days.filter fun p => decide (p.2.state = .opened) && decide (p.1 + s.cfg.settings.closeLag < new)
      let classes (d : Nat) := (List.range 8).filter fun c => decide (s.works.intake.set d c ≠ [])
      let freed (q : HoldRange) : Bool := s.works.retention.holds.any fun p => p.2.expired new && decide (q.lo ≤ p.1) && decide (p.1 ≤ q.hi)
      ∃ w, Settles (exec (.dayRoll ch) s)
          { s with
            cfg := { s.cfg with today := some new, classes := s.cfg.pendingClasses, policies := s.cfg.pendingPolicies } } w ∧
        w = { s.works with tasks := w.tasks, days := w.days, retention := w.retention, port := w.port } ∧
        w.port = s.works.port.answered r .done none (.rolled new closing.length) ∧
        (∀ d, (∀ p ∈ closing, p.1 ≠ d) → w.day d = s.works.day d) ∧
        (∀ d e, s.works.day d = some e → (∃ p ∈ closing, p.1 = d) → w.day d = some
          { e with state := if classes d = [] then .closed else .closing, awaiting := classes d }) ∧
        (∀ a, (∀ p ∈ s.works.retention.holds, p.1 = a → p.2.expired new = false) →
          tblGet a w.retention.holds = tblGet a s.works.retention.holds) ∧
        (∀ a e, tblGet a s.works.retention.holds = some e → e.expired new = true →
          tblGet a w.retention.holds = if 0 < e.disputes then some { e with reg := none } else none) ∧
        w.retention.ranges = s.works.retention.ranges.map (fun q => if freed q then { q with owed := true } else q) ∧
        w.retention.lastGeneration = s.works.retention.lastGeneration ∧
        w.tasks = (closing.flatMap fun p =>
            if classes p.1 = [] then (List.range 8).map (fun c => .mergeTest p.1 c) else [.ask (.catalogue p.1)]) ++
          (w.retention.ranges.filter fun q => q.owed).map (fun q => .holdStart q.lo) ∧
        (s.works.retention.sweep = none →
          w.retention.sweep = some (Sweep.start new s.cfg.pendingPolicies)) ∧
        (∀ v, s.works.retention.sweep = some v → w.retention.sweep = some { v with again := true }))

/-- For a day with a group whose reads are answered and nothing formed, PACKING forms its sequences. CLOSE_RUN of class c: the staging
set of the day and class, its totals the amount packed. MERGE of class c: each late record taken is INSERTED when no record of its
identity stands in the images read, else a duplicate when every compared field is equal and a conflict when not; each stretch of
claimed entries has its sheets' records and the inserted ones whose covering entry is in it, in key order, and a class without
entries makes one new stretch of them; inserted and dropped totals are the amounts. APPLY: the records of each stretch with the
batch's changes made and the voided ones left out; the deltas and the voided totals are the amounts. TRIM: the records of the
sheet read whose accounts are kept, the others' totals retired; a TRIM that keeps none enters its sheet's range in the retirement
list. RETIRE: no stretch, the totals of its sheets retired. RESTORE: the file's restore set in place of the quarantined sheet.
Else the retirement list is the take's. Packing follows as the consequence; nothing else changes. A day with no such group sees no
effect, the model's choice (notes/assumptions/4.md). Each step of packing takes the next stretch, packed into sheets. The last
sheet of a MERGE's, APPLY's or TRIM's stretch with a body below 1016 bytes is tested: it stands where the run has no next sheet or
that is QUARANTINED or busy; else that sheet is claimed and its read asked, and, read, is joined to the small one if one sheet of
4064 bytes and 512 records holds both, to be tested again, else released. With all stretches packed the first output image is
posted, each admitted one is followed by the next, and with all LIVE, or none made, the summary of the day with the group's
amounts is posted. -/
def Obligations.PackingFormsTheRecordSequences : Prop :=
  (∀ (day : Nat) (s : State), s.quiet →
    (s.works.packingGroup day = none → exec (.packing day) s = .next s) ∧
    ∀ (g : Group) (e : DayEntry) (i : Item), s.works.packingGroup day = some g → s.works.group g.id = some g →
      s.works.day day = some e → s.works.item g.item = some i →
      let formed (todo : List Stretch) (merging : List (LateRec × MergeOutcome)) (amounts : Amounts) (ranges : List KeyRange) : Prop :=
        Settles (exec (.packing day) s) s
          { s.works with
            tasks := [.packStep g.id]
            packer := { s.works.packer with
              groups := s.works.packer.groups.map fun h =>
                if h.id = g.id then { h with todo := todo, merging := merging, amounts := amounts, ranges := ranges } else h } }
      let stretches := e.stretches g.claimed
      let images (p : Nat × List Entry) : List Rec := p.2.flatMap fun x => g.image (x.ref day p.1)
      (∀ c, i.work = .closeRun c →
        formed [⟨c, [], (s.works.intake.set day c).map fun r => r.call⟩] []
          { Amounts.zero with packed := recTotals ((s.works.intake.set day c).map fun r => r.call) } g.ranges) ∧
      (∀ c, i.work = .merge c →
        let sheeted : List Rec := g.reads.flatMap fun r => r.image.getD []
        let outcome (r : LateRec) : MergeOutcome :=
          match sheeted.find? fun q => decide (q.identity = r.call.identity) with
          | none => .inserted
          | some q => if sameCall q r.call then .duplicate else .conflict
        let calls (inserted : Bool) : List Rec :=
          (g.merging.filter fun p => (match outcome p.1 with | .inserted => true | _ => false) == inserted).map fun p => p.1.call
        let covered (p : Nat × List Entry) (r : Rec) : Bool := (coveringEntry (e.runEntries c) r.key).any fun x => p.2.contains x
        formed
          (stretches.map (fun p => ⟨p.1, p.2.map (fun x => x.first), sortBy recLt (images p ++ (calls true).filter (covered p))⟩) ++
            if e.runEntries c = [] ∧ calls true ≠ [] then [⟨c, [], sortBy recLt (calls true)⟩] else [])
          (g.merging.map fun p => (p.1, outcome p.1))
          { Amounts.zero with inserted := recTotals (calls true), dropped := recTotals (calls false) } g.ranges) ∧
      (∀ ch l, i.work = .apply ch l →
        let changed (r : Rec) : Option Rec :=
          match l.find? fun a => decide (a.id = r.identity) with
          | none => some r
          | some a => match a.change with
            | .void => none
            | .correct dur charge tariff => some (r.corrected dur charge tariff)
        let recs := stretches.flatMap images
        formed (stretches.map fun p => ⟨p.1, p.2.map (fun x => x.first), (images p).filterMap changed⟩) []
          { Amounts.zero with
            corr := Triple.sum (recs.filterMap fun r => (changed r).map fun n => ⟨0, (n.dur : Int) - r.dur, (n.charge : Int) - r.charge⟩)
            voided := recTotals (recs.filter fun r => (changed r).isNone) } g.ranges) ∧
      (∀ ref keep, i.work = .trim ref keep →
        let kept := (g.image ref).filter fun r => decide (r.account ∈ keep)
        formed [⟨ref.cls, [ref.first], kept⟩] []
          { Amounts.zero with retired := recTotals ((g.image ref).filter fun r => decide (r.account ∉ keep)) }
          (if kept = [] then e.sheetRanges [ref] else g.ranges)) ∧
      (∀ refs, i.work = .retire refs →
        formed [] []
          { Amounts.zero with retired := Triple.sum (g.retiring.filterMap fun r => (e.entry r.cls r.first).map fun x => x.totals) }
          g.ranges) ∧
      (∀ slot cls first f, i.work = .restore slot cls first → s.works.file slot = some f →
        formed [⟨cls, [first], f.restoreSet⟩] [] Amounts.zero g.ranges)) ∧
  ∀ (x : Ctx) (w : Works) (g : Group) (e : DayEntry) (i : Item), w.group g.id = some g → w.day g.day = some e →
    w.item g.item = some i →
    let summarised (v : Works) : Works :=
      (v.mapGroup g.id fun h => { h with phase := .summary }).post
        (summaryImage g.day g.number ((e.count g.amounts).summarise false g.ranges)) .summary (.summary g.id)
    let next := w.runTask x (.packStep g.id)
    (g.phase = .packing → g.coalescing = none → g.current = none →
      (∀ st l, g.todo = st :: l → next =
        (w.mapGroup g.id fun h => { h with todo := l, current := some ⟨st.cls, st.olds, packSheets st.recs⟩ }).task (.packStep g.id)) ∧
      (g.todo = [] →
        let outputs := outputsOf g.day g.number 0 g.packed
        let v := w.mapGroup g.id fun h => { h with phase := .posting, outputs := outputsOf h.day h.number 0 h.packed }
        (∀ o, outputs[g.posted]? = some o → next = v.post o.image .data (.output g.id g.posted)) ∧
        (outputs = [] → next = summarised v))) ∧
    (∀ p, g.phase = .packing → g.current = some p →
      let last := (p.sheets.getLast?).getD []
      let tested := p.sheets ≠ [] ∧ bodyLength last < 1016 ∧
        ((∃ c, i.work = .merge c) ∨ (∃ ch l, i.work = .apply ch l) ∨ ∃ r keep, i.work = .trim r keep)
      let neighbour (n : Entry) : Prop :=
        ∃ k, p.olds.getLast? = some k ∧ (e.runEntries p.cls).find? (fun m => k.lt m.first) = some n
      let stands (v : Works) (claimed : List (Nat × Key) → List (Nat × Key)) : Works :=
        (v.mapGroup g.id fun h =>
          { h with current := none, coalescing := none, packed := h.packed ++ [p], claimed := claimed h.claimed }).task (.packStep g.id)
      (g.coalescing = none → (¬ tested ∨ ∀ n, neighbour n → n.quarantined = true ∨ n.busy.isSome = true) →
        next = stands w fun l => l) ∧
      (∀ n, g.coalescing = none → tested → neighbour n → n.quarantined = false → n.busy = none →
        let r := n.ref g.day p.cls
        next = ((w.claim g.day p.cls n.first (.item g.item)).mapGroup g.id fun h =>
          { h with coalescing := some r, claimed := h.claimed ++ [(p.cls, n.first)] }).askRead n.slot (.neighbour g.id r)) ∧
      ∀ r b pin, g.coalescing = some r →
        let both := last ++ imageRecs b
        let read := w.runTask x (.answer (.neighbour g.id r) (.image b pin))
        (bodyLength both ≤ 4064 → both.length ≤ 512 → read = (w.mapGroup g.id fun h =>
          { h with coalescing := none, current := some ⟨p.cls, p.olds ++ [r.first], p.sheets.dropLast ++ [both]⟩ }).task
            (.packStep g.id)) ∧
        (4064 < bodyLength both ∨ 512 < both.length → ∀ n, w.entryAt g.day r.cls r.first = some n → n.busy = some (.item g.item) →
          read = stands (w.release x g.day r.cls r.first) fun l => l.filter fun q => decide (q ≠ (r.cls, r.first)))) ∧
    (∀ n, let v := w.mapGroup g.id fun h => { h with posted := n + 1 }
      (∀ o, g.outputs[n + 1]? = some o →
        w.runTask x (.admitted (.output g.id n)) = v.post o.image .data (.output g.id (n + 1))) ∧
      (g.outputs[n + 1]? = none → w.runTask x (.admitted (.output g.id n)) = v)) ∧
    ∀ n o slot, g.phase = .posting → g.outputs[n]? = some o →
      let live (h : Group) : List Output :=
        match h.outputs[n]? with | some o => h.outputs.set n { o with slot := some slot } | none => h.outputs
      let v := w.mapGroup g.id fun h => { h with outputs := live h }
      ((∃ o ∈ live g, o.slot = none) → w.runTask x (.sheetLive (.output g.id n) slot) = v) ∧
      ((∀ o ∈ live g, o.slot ≠ none) → w.runTask x (.sheetLive (.output g.id n) slot) = summarised v)

/-- MERGE_DELAY_EXPIRY, the clock standing at its moment at least, for a CLOSED day with late records, no MERGE waiting and room in
the queue: one MERGE item at the tail with those who had asked, then a scan; nothing measured, no effect (the model's choice:
notes/assumptions/4.md). A scan passes over items IN_GROUP and ends at four groups; an item with a channel wait, or of a day held
back or granting no group, holds back its day's later items. The others, and only they, are tested (DEDUCED:
notes/assumptions/32.md). Dropped, with a scan to follow: a MERGE with no record to merge, its askers told, its (day, class)
blocked by its late records (DEDUCED: notes/assumptions/18.md); an APPLY with a record in a QUARANTINED entry or a retirement list
past a limit, its entries leaving the Pending Amendment Set; a TRIM whose sheet is not current or QUARANTINED (undecided) or
pending (deferred; the drop is the model's choice: notes/assumptions/47.md); a RESTORE whose target is not QUARANTINED or whose
set packs to no one sheet of its range, its file DISCREPANT; a RETIRE left empty when its sheets not current (undecided) and
pending (deferred) are withdrawn. An item with a claim that fails keeps its place and holds back no other. The rest begin a group
under the day's next number, their claims set and reads asked, in PACKING if none is asked: CLOSE_RUN without either; MERGE claims
its mergeable records' covering entries and reads these and their accounts' other entries; APPLY claims the entries of its
records, each served by a pinned image of its group number or read; TRIM claims and reads its sheet; RETIRE claims its longest
prefix whose list fits; RESTORE its target. The clock is the model's own (notes/assumptions/2.md). -/
def Obligations.MergeDelayQueuesADueMerge : Prop :=
  (∀ (d c : Nat) (s : State), s.quiet →
    (s.works.mergeExpiry s.ctx d c = none → exec (.mergeDelayExpiry d c) s = .next s) ∧
    ∀ (t : Nat) (e : DayEntry), s.works.mergeExpiry s.ctx d c = some t → s.works.day d = some e → e.state = .closed →
      s.works.intake.lateOf d c ≠ [] → s.works.packer.waitingMerge d c = none → s.works.packer.queue.length < 1024 →
      ∃ w, Settles (exec (.mergeDelayExpiry d c) s) { s with clock := max s.clock t } w ∧
        w = { s.works with serial := w.serial, packer := w.packer, tasks := [.scan] } ∧
        w.packer.groups = s.works.packer.groups ∧ (w.packer.schedOf d c).askers = [] ∧
        ∃ n, w.packer.queue = s.works.packer.queue ++ [⟨n, d, .merge c, (s.works.packer.schedOf d c).askers, false, none⟩]) ∧
  (∀ (x : Ctx) (w : Works), w.runTask x .scan = w.scanItems x [] (w.packer.queue.map fun i => i.id)) ∧
  ∀ (x : Ctx) (w : Works) (held : List Nat) (id : Nat) (l : List Nat) (i : Item), w.item id = some i →
    let goesOn (t : Works) : Prop := w.scanItems x held (id :: l) = t.scanItems x held l
    let grants := ∃ e, w.day i.day = some e ∧ e.inProgress = none ∧ e.owed = 0 ∧ e.underAudit = false ∧ e.going = false
    let dropped (t : Works) : Prop := goesOn t ∧ t.packer.queue = w.packer.queue.filter (fun j => decide (j.id ≠ id)) ∧ .scan ∈ t.tasks
    (i.inGroup = true → goesOn w) ∧
    (i.inGroup = false → 4 ≤ w.packer.groups.length → w.scanItems x held (id :: l) = w) ∧
    (i.inGroup = false → w.packer.groups.length < 4 → (i.channelWait.isSome ∨ i.day ∈ held ∨ ¬ grants) →
      w.scanItems x held (id :: l) = w.scanItems x (addNew i.day held) l) ∧
    (i.inGroup = false → w.packer.groups.length < 4 → i.channelWait = none → i.day ∉ held → grants →
      (∀ g ∈ w.packer.groups, g.id ≠ w.serial) → ∀ e, w.day i.day = some e →
      let taken (v : Works) (claims : List (Nat × Entry)) (reads : List GroupRead) (merging : List (LateRec × MergeOutcome))
          (heldBack : Nat) (retiring : List SheetRef) (ranges : List KeyRange) (pins : List Nat) : Works :=
        let u := pins.foldl (fun u n => u.touch n) { v with serial := w.serial + 1 }
        let u := claims.foldl (fun u p => u.claim i.day p.1 p.2.first (.item id)) u
        let u := { u with
          days := tblModify i.day (fun e => { e with inProgress := some (id, i.work.kind) }) u.days
          packer := { u.packer with
            queue := v.packer.queue.map fun j => if j.id = id then { j with inGroup := true } else j
            groups := w.packer.groups ++
              [{ id := w.serial, item := id, day := i.day, number := e.group + 1,
                 phase := if reads.all (fun r => r.image.isSome) then .packing else .reading
                 claimed := claims.map fun p => (p.1, p.2.first), reads := reads, merging := merging, heldBack := heldBack,
                 todo := [], current := none, coalescing := none, packed := [], outputs := [], posted := 0, retiring := retiring,
                 ranges := ranges, amounts := Amounts.zero }] } }
        (reads.filter fun r => r.image.isNone).foldl (fun u r =>
          match u.current r.ref with
          | some n => u.askRead n.slot (.group w.serial r.ref)
          | none => u) u
      let tried (v : Works) (any : Bool) (claims : List (Nat × Entry)) (t : Works) : Prop :=
        let free (p : Nat × Entry) : Prop := (p.2.busy = none ∨ p.2.busy = some (.item id)) ∧ (p.2.quarantined = false ∨ any = true)
        ((∀ p ∈ claims, free p) → goesOn t) ∧ ((∃ p ∈ claims, ¬ free p) → goesOn v)
      (∀ c, i.work = .closeRun c → goesOn (taken w [] [] [] 0 [] [] [])) ∧
      (∀ c, i.work = .merge c →
        let late := (w.mergeable i.day c).1
        (late = [] → ∃ t, dropped t ∧ (∀ ch ∈ i.askers, .mergeTold ch ∈ t.tasks) ∧
          (t.packer.schedOf i.day c).held = (w.intake.lateOf i.day c).length) ∧
        (late ≠ [] →
          let cover := (late.filterMap fun r => coveringEntry (e.runEntries c) r.call.key).eraseDups
          let others := late.flatMap fun r => (w.accountEntries i.day r.call.account).map fun p => p.2.ref i.day p.1
          let claims := cover.map fun n => (c, n)
          tried w false claims (taken w claims
            ((cover.map (fun n => n.ref i.day c) ++ others).eraseDups.map fun r => ⟨r, none⟩)
            (late.map fun r => (r, .inserted)) (w.mergeable i.day c).2 [] [] []))) ∧
      (∀ ch entries, i.work = .apply ch entries →
        let gone (reason : Reason) (n : Nat) : Prop := ∃ t, dropped t ∧
          t.amend.pending = w.amend.pending.filter (fun p => decide (p.ch ≠ ch)) ∧ .applyDropped ch reason n ∈ t.tasks
        (∀ n, w.applyQuarantined i.day 0 entries = some n → gone .quarantined n) ∧
        (w.applyQuarantined i.day 0 entries = none → rangesFit (w.applyRanges i.day entries) = false →
          gone .tooLarge entries.length) ∧
        (w.applyQuarantined i.day 0 entries = none → rangesFit (w.applyRanges i.day entries) = true →
          let pairs := entries.filterMap fun a => (w.applyEntry i.day a).map fun n => (a, n)
          let claims := (pairs.map fun p => (p.1.cls, p.2)).eraseDups
          let pin (p : Nat × Entry) : Option Nat :=
            (pairs.find? fun q => decide (q.1.cls = p.1) && decide (q.2 = p.2) && decide (q.1.group = p.2.group)).map fun q => q.1.pin
          tried w false claims (taken w claims (claims.map fun p => ⟨p.2.ref i.day p.1, (pin p).map fun k => w.pinned k⟩) [] 0 []
            (w.applyRanges i.day entries) (claims.filterMap pin)))) ∧
      (∀ ref keep, i.work = .trim ref keep →
        (w.current ref = none → ∃ t, dropped t ∧ .reported ref .undecided ∈ t.tasks) ∧
        ∀ n, w.current ref = some n →
          (n.quarantined = true → ∃ t, dropped t ∧ .reported ref .undecided ∈ t.tasks) ∧
          (n.quarantined = false → w.pendingIn ref.day n.first n.last = true → ∃ t, dropped t ∧ .reported ref .pending ∈ t.tasks) ∧
          (n.quarantined = false → w.pendingIn ref.day n.first n.last = false →
            tried w false [(ref.cls, n)] (taken w [(ref.cls, n)] [⟨ref, none⟩] [] 0 [] [] []))) ∧
      (∀ refs, i.work = .retire refs →
        let lost := refs.filter fun r => (w.current r).isNone
        let pend := refs.filter fun r => (w.current r).any fun n => w.pendingIn r.day n.first n.last
        let left := refs.filter fun r => decide (r ∉ lost) && decide (r ∉ pend)
        let reports : List Task := lost.map (fun r => .reported r .undecided) ++ pend.map fun r => .reported r .pending
        (left = [] → ∃ t, dropped t ∧ ∀ k ∈ reports, k ∈ t.tasks) ∧
        (left ≠ [] →
          let v := { w with
            tasks := w.tasks ++ reports
            packer := { w.packer with queue := w.packer.queue.map fun j => if j.id = id then { j with work := .retire left } else j } }
          let first := e.retirePrefix left
          let claims := first.filterMap fun r => (w.current r).map fun n => (r.cls, n)
          tried v true claims (taken v claims [] [] 0 first (e.sheetRanges first) []))) ∧
      ∀ slot cls first, i.work = .restore slot cls first →
        let whole := (∃ n, w.entryAt i.day cls first = some n ∧ n.quarantined = true) ∧
          ∃ f g recs, w.file slot = some f ∧ f.target = some g ∧ packSheets f.restoreSet = [recs] ∧
            recs.head?.map (fun r => r.key) = some g.first ∧ recs.getLast?.map (fun r => r.key) = some g.last
        (¬ whole → ∀ f, w.file slot = some f → ∃ t, dropped t ∧ ∃ h, t.file slot = some h ∧ h.state = .discrepant ∧ h.restoreSet = []) ∧
        (whole → ∀ n, w.entryAt i.day cls first = some n →
          tried w true [(cls, n)] (taken w [(cls, n)] [] [] 0 [] [] [])))

/-- For the program of a posted image that nothing has overtaken, none waiting for a place in the posting queue. Passed: the slot
holds the image on the media with no void mark, is LIVE, the image has left the posting queue and is the most recent of the cache,
attached to its slot, the channel is idle and the poster is told. Failed: the slot holds what the module left, is STALE, its
extent's failure count rises by 1 up to 2, and the image stands at the head of the posting queue without a slot. No other slot of
the media changes, nor catalogue, Intake Unit, Packer or configuration. What an ARCHIVE RESET overtook reaches the media alone
(notes/assumptions/16.md). What a failed program leaves in its slot, and that it disturbs no other, is the model's choice
(notes/assumptions/9.md). An image whose group has aborted leaves the posting queue either way, its slot LIVE with no poster told,
or STALE. A relocation copy passed: its slot is LIVE and the walk goes on past the old one; the entry of the old slot names the
new one, its claim released and a quarantine asked meanwhile applied, a SUMMARY or HOLD sheet's owner names it, and a void mark of
the old slot is asked, or of the new one when nothing named the old. Failed: the slot is STALE, the failure counted, and the copy
takes another slot or, with none, ends, its claim released, the relocation paused. When the image LIVE is a group's summary, the
group completes: it leaves progress; its day has its number, no group in progress, a void mark owed for each entry superseded or
retired and for the previous summary, the new summary, and counters changed by its amounts; in its index each stretch is replaced
by its output sheets and each retired entry removed; a CLOSE_RUN's class is no longer awaited, its staging set is gone, and a
CLOSING day with none left is CLOSED; a MERGE's records have left the Late List; no other day changes; and a day whose counters
balance, the amounts accounting for the change of its index, still balances. -/
def Obligations.ProgramEndMakesTheSlotLiveOrStale : Prop :=
  (∀ (mc : Fin 4) (s : State) (o : Op) (post idx : Nat) (image : Bytes), s.quiet → (s.works.chan mc).busy = some o →
    o.kind = .program post idx image →
    let media (c : Cell) : Quad Media := s.media.set mc ((s.media.get mc).put idx c)
    let apart (w : Works) : Prop := w.days = s.works.days ∧ w.intake = s.works.intake ∧ w.packer = s.works.packer ∧
      w.retention = s.works.retention ∧ w.enquiry = s.works.enquiry ∧ w.amend = s.works.amend ∧ (w.chan mc).busy = none
    (o.stray = true → Settles (exec (.programDone mc .passed) s) { s with media := media ⟨some image, false⟩ }
      { s.works with
        tasks := [.grant mc]
        array := { s.works.array with chans := s.works.array.chans.set mc { s.works.chan mc with busy := none } } }) ∧
    ∀ p : Post, o.stray = false → s.works.array.posting.find? (fun q => decide (q.id = post)) = some p →
      s.works.array.offered = [] →
      let posting := s.works.array.posting.filter fun q => decide (q.id ≠ post)
      (p.orphan = true →
        (∃ w, Settles (exec (.programDone mc .passed) s) { s with media := media ⟨some image, false⟩ } w ∧ apart w ∧
          (w.slot ⟨mc, idx⟩).map (fun i => i.state) = some .live ∧ w.array.posting = posting ∧ ∀ q a, .sheetLive q a ∉ w.tasks) ∧
        ∀ found : Cell, ∃ w, Settles (exec (.programDone mc (.failed found)) s) { s with media := media found } w ∧ apart w ∧
          (w.slot ⟨mc, idx⟩).map (fun i => i.state) = some .stale ∧ w.array.posting = posting) ∧
      (p.orphan = false → (∃ w, Settles (exec (.programDone mc .passed) s) { s with media := media ⟨some image, false⟩ } w ∧ apart w ∧
        (w.slot ⟨mc, idx⟩).map (fun i => i.state) = some .live ∧
        w.array.posting = posting ∧
        (∃ i, w.array.cache.head? = some i ∧ i.slot = ⟨mc, idx⟩ ∧ i.attached = true ∧ i.image = p.image) ∧
        .sheetLive p.poster ⟨mc, idx⟩ ∈ w.tasks) ∧
      (∀ found : Cell, ∃ w, Settles (exec (.programDone mc (.failed found)) s) { s with media := media found } w ∧ apart w ∧
        (w.slot ⟨mc, idx⟩).map (fun i => i.state) = some .stale ∧
        ((w.chan mc).ext (idx / 64)).failures = min 2 (((s.works.chan mc).ext (idx / 64)).failures + 1) ∧
        w.array.posting = { p with slot := none } :: posting ∧ w.array.cache = s.works.array.cache))) ∧
  (∀ (mc source : Fin 4) (s : State) (o : Op) (idx : Nat) (image : Bytes) (r : Relocation) (cp : Copy), s.quiet →
    (s.works.chan mc).busy = some o → o.kind = .copy idx image source → o.stray = false →
    (s.works.chan source).relocation = some r → r.copy = some cp → cp.new = some ⟨mc, idx⟩ → s.works.entryOfSlot ⟨mc, idx⟩ = none →
    let old : SlotAddr := ⟨source, cp.old⟩
    let at_ (a : SlotAddr) : SlotAddr := if a = old then ⟨mc, idx⟩ else a
    let media (c : Cell) : Quad Media := s.media.set mc ((s.media.get mc).put idx c)
    let free (e : Entry) : Entry :=
      { e with busy := none, quarantined := e.quarantined || e.quarantineAsked, quarantineAsked := false }
    let apart (w : Works) : Prop := w.intake = s.works.intake ∧ w.packer = s.works.packer ∧ (w.chan mc).busy = none
    (∃ w, Settles (exec (.programDone mc .passed) s) { s with media := media ⟨some image, false⟩ } w ∧ apart w ∧
      (w.slot ⟨mc, idx⟩).map (fun i => i.state) = some .live ∧
      (w.chan source).relocation = some
        (if r.next < 64 ∧ 64 * r.source + r.next = cp.old then { r with copy := none, next := r.next + 1 }
         else { r with copy := none, revisit := r.revisit.filter fun i => decide (i ≠ cp.old) }) ∧
      (cp.kind = .data → s.works.entryOfSlot old = none → w.days = s.works.days ∧ (w.chan mc).voidAsked idx = true) ∧
      (cp.kind = .data → ∀ d cls e, s.works.entryOfSlot old = some (d, cls, e) → s.works.entryAt d cls e.first = some e →
        e.busy = some .relocation →
        w.entryAt d cls e.first = some (free { e with slot := ⟨mc, idx⟩ }) ∧ (∀ k, k ≠ d → w.day k = s.works.day k) ∧
        ((s.works.slot old).map (fun i => i.state) = some .live → (w.chan source).voidAsked cp.old = true)) ∧
      (cp.kind ≠ .data → s.works.named old = false → w.days = s.works.days ∧ (w.chan mc).voidAsked idx = true) ∧
      (cp.kind ≠ .data → s.works.named old = true →
        w.days = s.works.days.map (fun p => (p.1, { p.2 with summary := p.2.summary.map at_, goneSlot := p.2.goneSlot.map at_ })) ∧
        w.retention.ranges = s.works.retention.ranges.map (fun q => { q with
          sheet := q.sheet.map fun t => (at_ t.1, t.2)
          rewrite := q.rewrite.map fun v => { v with sheets := v.sheets.map fun h => { h with slot := at_ h.slot } } }) ∧
        ((s.works.slot old).map (fun i => i.state) = some .live → (w.chan source).voidAsked cp.old = true))) ∧
    ∀ found : Cell, ∃ w, Settles (exec (.programDone mc (.failed found)) s) { s with media := media found } w ∧ apart w ∧
      (w.slot ⟨mc, idx⟩).map (fun i => i.state) = some .stale ∧
      ((w.chan mc).ext (idx / 64)).failures = min 2 (((s.works.chan mc).ext (idx / 64)).failures + 1) ∧
      ∃ q, (w.chan source).relocation = some q ∧ q.source = r.source ∧
        ((∃ a, a ≠ ⟨mc, idx⟩ ∧ q.copy = some { cp with new := some a } ∧ (w.slot a).map (fun i => i.state) = some .writing) ∨
          (q.copy = none ∧ q.paused = true ∧ ∀ d cls e, s.works.entryOfSlot old = some (d, cls, e) →
            s.works.entryAt d cls e.first = some e → e.busy = some .relocation → w.entryAt d cls e.first = some (free e)))) ∧
  ∀ (x : Ctx) (w : Works) (id : Nat) (a : SlotAddr) (g : Group) (d : DayEntry) (i : Item), w.group id = some g →
    w.day g.day = some d → w.item g.item = some i →
    let t := w.runTask x (.sheetLive (.summary id) a)
    let seen (r : Run) := (r.cls, r.state, r.entries.map fun q => (q.first, q.last, q.totals, q.bodyLen, q.slot, q.group))
    t.packer.groups = w.packer.groups.filter (fun h => decide (h.id ≠ id)) ∧ (∀ k, k ≠ g.day → t.day k = w.day k) ∧
    .scan ∈ t.tasks ∧ .auditDrained g.day ∈ t.tasks ∧
    (∀ c, i.work = .closeRun c → t.intake.set g.day c = []) ∧
    (∀ c, i.work = .merge c → t.intake.late = w.intake.late.filter fun r => decide (r ∉ g.merging.map fun p => p.1)) ∧
    ∃ e, t.day g.day = some e ∧ e.group = g.number ∧ e.inProgress = none ∧ e.summary = some a ∧
      e.owed = (d.leaving g).length + d.summary.toList.length ∧ e.runs.map seen = (d.reindex g).runs.map seen ∧
      e.intake = d.intake.sub g.amounts.dropped ∧ e.staged = d.staged.sub g.amounts.packed ∧
      e.late = d.late.sub (g.amounts.inserted.add g.amounts.dropped) ∧ e.retired = d.retired.add g.amounts.retired ∧
      e.voided = d.voided.add g.amounts.voided ∧ e.corr = d.corr.add g.amounts.corr ∧
      (∀ c, i.work = .closeRun c → e.awaiting = d.awaiting.filter (fun k => decide (k ≠ c)) ∧
        e.state = if e.awaiting = [] ∧ d.state = .closing then .closed else d.state) ∧
      ((∀ c, i.work ≠ .closeRun c) → e.awaiting = d.awaiting ∧ e.state = d.state) ∧
      (d.conserved →
        indexTotals (d.reindex g).entries =
          (((((indexTotals d.entries).add g.amounts.packed).add g.amounts.inserted).add g.amounts.corr).sub g.amounts.voided).sub
            g.amounts.retired →
        e.conserved)

/-- For a read outside the rebuild that nothing has overtaken: when the image the module gave passes the sheet test, it is the most
recent of the cache, each requester is answered with it and the channel is idle; when it does not, or the status failed, the read
is made once more in its original place in the queue, of which the first 512 stand queued and the rest wait
(notes/assumptions/44.md); and when the repeat fails too, each requester is answered FAILED, but the scrub walk GONE when an entry
QUARANTINED before names the slot (DEDUCED: notes/assumptions/61.md), and an index entry of the slot that was LIVE and not busy is
QUARANTINED. For a read of the rebuild's scan: in an extent with its retire mark, the extent and all its slots are BAD, its
candidates are gone, and the scan goes on behind it; an erased slot takes the scan to the next slot; a slot with a void mark
becomes STALE in a FILLED extent; a sheet that fails is read once more, then the slot is STALE and counted; and a slot whose image
passes becomes LIVE with its candidate added (DEDUCED: notes/assumptions/23.md). The media never change; what a read gives is the
command's operand (notes/assumptions/9.md). At a grant an idle ONLINE channel takes its oldest operation, of the only class that
has one, or of the class whose turn it is: with preference, FOREGROUND three contests of four, without, each in turn; the queue
gives its place to the oldest that waits; and a read of a slot that has lost its sheet is answered GONE instead, outside the
rebuild. -/
def Obligations.MediaReadIsTestedAndRepeatedOnce : Prop :=
  (∀ (mc : Fin 4) (s : State) (o : Op) (idx : Nat) (who : List (Requester × Bool)) (again : Bool) (result : ReadEnd), s.quiet →
    (s.works.chan mc).busy = some o → o.kind = .read idx who again → o.stray = false →
    let cell := (s.media.get mc).cell idx
    let given := readImage cell result
    let repeated : List Op :=
      insertBy (fun a b => decide (a.arrival < b.arrival)) { o with kind := .read idx who true } (s.works.chan mc).queue
    let readAgain : Prop := Settles (exec (.mediaReadDone mc result) s) s
      { s.works with
        tasks := [.grant mc]
        array := { s.works.array with
          chans := s.works.array.chans.set mc
            { s.works.chan mc with
              busy := none, queue := repeated.take 512, waiting := repeated.drop 512 ++ (s.works.chan mc).waiting } } }
    ((∀ q ∈ who, q.1 ≠ .rebuild) →
      (∀ b, given = some b → (readSheet b).isSome → ∃ w, Settles (exec (.mediaReadDone mc result) s) s w ∧
        (w.chan mc).busy = none ∧ w.days = s.works.days ∧
        (∃ i, w.array.cache.head? = some i ∧ i.slot = ⟨mc, idx⟩ ∧ i.image = b ∧ i.attached = true) ∧
        ∀ q ∈ who, ∃ pin, .answer q.1 (.image b pin) ∈ w.tasks ∧ (pin.isSome ↔ q.1.pinned = true)) ∧
      ((∀ b, given = some b → readSheet b = none) → again = false → readAgain) ∧
      ((∀ b, given = some b → readSheet b = none) → again = true → ∃ w, Settles (exec (.mediaReadDone mc result) s) s w ∧
        (w.chan mc).busy = none ∧ (∀ q ∈ who, q.1 ≠ .scrub → .answer q.1 .failed ∈ w.tasks) ∧
        (∀ q ∈ who, q.1 = .scrub →
          .answer .scrub (if (s.works.entryOfSlot ⟨mc, idx⟩).any (fun t => t.2.2.quarantined) then .gone else .failed) ∈ w.tasks) ∧
        ∀ d cls e, s.works.entryOfSlot ⟨mc, idx⟩ = some (d, cls, e) → s.works.current (e.ref d cls) = some e →
          e.quarantined = false → e.busy = none →
          w.entryAt d cls e.first = some { e with quarantined := true })) ∧
    (who = [(.rebuild, false)] → (s.media.get mc).retired.contains (idx / 64) = true → result = .asStored →
      ∃ w, Settles (exec (.mediaReadDone mc result) s) s w ∧ w.days = s.works.days ∧ (w.chan mc).busy = none ∧
        ((w.chan mc).ext (idx / 64)).state = .bad ∧ (∀ i, i / 64 = idx / 64 → (w.slot ⟨mc, i⟩).map (fun v => v.state) = some .bad) ∧
        w.rebuild = { s.works.rebuild with
          scans := s.works.rebuild.scans.set mc ⟨64 * (idx / 64 + 1), false⟩
          cands := s.works.rebuild.cands.filter fun c => decide (¬ (c.slot.ch = mc ∧ c.slot.idx / 64 = idx / 64)) }) ∧
    (who = [(.rebuild, false)] →
      (result = .statusFailed ∨ ((s.media.get mc).retired.contains (idx / 64) = false ∧ result = .asStored ∧
        ∃ b, cell = ⟨some b, false⟩ ∧ readSheet b = none)) →
      (again = false → readAgain) ∧
      (again = true → ∃ w, Settles (exec (.mediaReadDone mc result) s) s w ∧ w.days = s.works.days ∧
        (w.slot ⟨mc, idx⟩).map (fun v => v.state) = some .stale ∧ ((w.chan mc).ext (idx / 64)).state = .filled ∧
        w.rebuild.scans = s.works.rebuild.scans.set mc ⟨idx + 1, false⟩ ∧ w.rebuild.cands = s.works.rebuild.cands ∧
        w.rebuild.counts = { s.works.rebuild.counts with stale := s.works.rebuild.counts.stale + 1 })) ∧
    (who = [(.rebuild, false)] → (s.media.get mc).retired.contains (idx / 64) = false → result = .asStored →
      ∃ w, Settles (exec (.mediaReadDone mc result) s) s w ∧ w.days = s.works.days ∧
        (cell = ⟨none, false⟩ → w.rebuild = { s.works.rebuild with scans := s.works.rebuild.scans.set mc ⟨idx + 1, false⟩ } ∧
          w.slot ⟨mc, idx⟩ = s.works.slot ⟨mc, idx⟩) ∧
        (cell.voided = true → w.rebuild = { s.works.rebuild with scans := s.works.rebuild.scans.set mc ⟨idx + 1, false⟩ } ∧
          w.slot ⟨mc, idx⟩ = some ⟨.stale, .data⟩ ∧ ((w.chan mc).ext (idx / 64)).state = .filled) ∧
        (∀ b t, cell = ⟨some b, false⟩ → readSheet b = some t →
          w.rebuild = { s.works.rebuild with
            scans := s.works.rebuild.scans.set mc ⟨idx + 1, false⟩
            cands := s.works.rebuild.cands ++ [candOf ⟨mc, idx⟩ t] } ∧
          (w.slot ⟨mc, idx⟩).map (fun i => i.state) = some .live ∧ ((w.chan mc).ext (idx / 64)).state = .filled))) ∧
  ∀ (x : Ctx) (w : Works) (mc : Fin 4),
    let c := w.chan mc
    let t := w.runTask x (.grant mc)
    let oldest (foreground : Bool) (o : Op) : Prop := o ∈ c.queue ∧ o.foreground = foreground ∧
      ∀ p ∈ c.queue, p.foreground = foreground → p ≠ o → o.arrival < p.arrival
    let turn : Bool := if x.set.preference then decide (c.contest < 3) else !c.lastForeground
    (c.online = false ∨ c.busy.isSome ∨ c.queue = [] → t = w) ∧
    (c.online = true → c.busy = none → c.queue.length ≤ 512 → c.queue.Pairwise (fun a b => a.arrival ≠ b.arrival) →
      ∀ (foreground : Bool) (o : Op), oldest foreground o → ((∃ p ∈ c.queue, p.foreground ≠ foreground) → turn = foreground) →
        let contested := ∃ p ∈ c.queue, p.foreground ≠ foreground
        (t.chan mc).queue = c.queue.filter (fun p => decide (p.arrival ≠ o.arrival)) ++ c.waiting.take 1 ∧
        (t.chan mc).waiting = c.waiting.drop 1 ∧
        (contested → x.set.preference = true → (t.chan mc).contest = if foreground then c.contest + 1 else 0) ∧
        (contested → x.set.preference = false → (t.chan mc).lastForeground = foreground) ∧
        (¬ contested → (t.chan mc).contest = c.contest ∧ (t.chan mc).lastForeground = c.lastForeground) ∧
        let lost := ∃ idx who again, o.kind = .read idx who again ∧ w.part ≠ .rebuilding ∧
          ∀ i, c.slot idx = some i → i.state ≠ .live ∧ i.state ≠ .writing
        (¬ lost → (t.chan mc).busy = some o ∧ t.tasks = w.tasks) ∧
        (lost → (t.chan mc).busy = none ∧ .grant mc ∈ t.tasks ∧
          ∀ idx who again, o.kind = .read idx who again → ∀ q ∈ who, .answer q.1 .gone ∈ t.tasks))

/-- For a void mark that nothing has overtaken: passed, the slot has its void mark on the media, no other slot changes, the slot is
STALE, the cache holds no image attached to it, each who asked is told, and the channel is idle. Failed the first time, it is made
once more in its original place in the queue (notes/assumptions/52.md), of which the first 512 stand queued and the rest wait
(notes/assumptions/44.md), the slot staying as it was until the repeat ends (notes/assumptions/53.md). Failed again, the slot is
STALE too, its extent's failure count rises by 1 up to 2, and each who asked is told. Whether a failed mark stands on the media is
the command's operand (notes/assumptions/9.md). A mark that a day owed, completed, leaves it owing one less, and at 0 the scan
follows. A removal goes on by steps: its day-gone summary LIVE, the previous summary is no longer named and its void mark is
asked, or with none at once that of the day-gone one; the previous one marked, the mark of the day-gone one is asked; that marked,
the entry leaves the Day Table; and a parcel that waited for the day, the gate open, then waits no longer. A void mark of a LIVE
slot on an ONLINE channel with room, of which none is asked, joins the queue's tail. -/
def Obligations.VoidMarkMakesTheSlotStale : Prop :=
  (∀ (mc : Fin 4) (s : State) (o : Op) (idx : Nat) (who : List VoidOwner) (again : Bool), s.quiet →
    (s.works.chan mc).busy = some o → o.kind = .voidMark idx who again → o.stray = false →
    let left (marked : Bool) : State :=
      if marked then { s with media := s.media.set mc ((s.media.get mc).put idx { (s.media.get mc).cell idx with voided := true }) } else s
    (∃ w, Settles (exec (.voidMarkDone mc .passed) s) (left true) w ∧
      (w.slot ⟨mc, idx⟩).map (fun i => i.state) = some .stale ∧ (∀ i ∈ w.array.cache, i.slot = ⟨mc, idx⟩ → i.attached = false) ∧
      (∀ v ∈ who, .voidDone v ⟨mc, idx⟩ ∈ w.tasks) ∧ (w.chan mc).busy = none ∧ w.days = s.works.days) ∧
    ∀ marked,
      (again = false →
        let repeated : List Op :=
          insertBy (fun a b => decide (a.arrival < b.arrival)) { o with kind := .voidMark idx who true } (s.works.chan mc).queue
        Settles (exec (.voidMarkDone mc (.failed marked)) s) (left marked)
          { s.works with
            tasks := [.grant mc]
            array := { s.works.array with
              chans := s.works.array.chans.set mc
                { s.works.chan mc with
                  busy := none, queue := repeated.take 512, waiting := repeated.drop 512 ++ (s.works.chan mc).waiting } } }) ∧
      (again = true → ∃ w, Settles (exec (.voidMarkDone mc (.failed marked)) s) (left marked) w ∧
        (w.slot ⟨mc, idx⟩).map (fun i => i.state) = some .stale ∧
        (∀ i ∈ w.array.cache, i.slot = ⟨mc, idx⟩ → i.attached = false) ∧
        ((w.chan mc).ext (idx / 64)).failures = min 2 (((s.works.chan mc).ext (idx / 64)).failures + 1) ∧
        (∀ v ∈ who, .voidDone v ⟨mc, idx⟩ ∈ w.tasks) ∧ (w.chan mc).busy = none ∧ w.days = s.works.days)) ∧
  (∀ (w : Works) (a : SlotAddr) (who : VoidOwner) (i : SlotInfo), (w.chan a.ch).voidAsked a.idx = false → (w.chan a.ch).online = true →
    w.slot a = some i → i.state = .live → (w.chan a.ch).queue.length < 512 →
    ((w.voidMark a who).chan a.ch).queue = (w.chan a.ch).queue ++ [⟨w.serial, false, .voidMark a.idx [who] false, false⟩]) ∧
  ∀ (x : Ctx) (w : Works) (d : Nat) (a : SlotAddr),
    let with_ (f : DayEntry → DayEntry) : Works := { w with days := tblModify d f w.days }
    (∀ e, w.day d = some e →
      let less := with_ fun e => { e with owed := e.owed - 1 }
      w.runTask x (.voidDone (.day d) a) = if e.owed ≤ 1 then { less with tasks := w.tasks ++ [.scan] } else less) ∧
    (∀ e p, w.day d = some e → e.summary = some p → w.runTask x (.sheetLive (.dayGone d) a) =
      (with_ fun e => { e with summary := none, goneSlot := some a }).voidMark p (.gonePrevious d)) ∧
    (∀ e, w.day d = some e → e.summary = none → w.runTask x (.sheetLive (.dayGone d) a) = w.voidMark a (.goneSelf d)) ∧
    (∀ e b, w.day d = some e → e.goneSlot = some b → w.runTask x (.voidDone (.gonePrevious d) a) =
      (with_ fun e => { e with goneSlot := none }).voidMark b (.goneSelf d)) ∧
    w.runTask x (.voidDone (.goneSelf d) a) = { w with days := tblDrop d w.days, tasks := w.tasks ++ [.dayLeft d] } ∧
    ∀ slot f p since rec rest, w.day d = none → w.intake.gateClosed = false → tblGet slot w.intake.files = some f → f.parcel = some p →
      p.wait = some (since, .going d) → p.rest = rec :: rest → dayOf rec.start = d →
      tblGet slot (w.runTask x (.dayLeft d)).intake.files = some { f with parcel := some { p with wait := none } }

/-- For operations that nothing has overtaken, the extent table having one entry per extent. A clear passed leaves every slot of its
extent erased on the media and CLEAR, the extent CLEAR with failure count 0 and no longer the source of the channel's relocation,
and the slots of other extents as they were, on the media and in the slot table. A clear failed, whatever it left in the extent's
slots on the media, asks for a retire mark on the same channel, which joins the queue or, when that is full, waits for a place,
and leaves the extents and slots of the tables and the rest of the media as they were. A retire mark passed stands on the media
and makes the extent and all its slots BAD, the slots of other extents staying as they were; one that fails, whether or not it
stands, is made once more in its original place in the queue (notes/assumptions/44.md, 52.md), and when that fails too the extent
and its slots are BAD all the same. After each the channel is idle. What a failed operation leaves on the media is the command's
operand, and that it disturbs no other place the model's choice (notes/assumptions/9.md). -/
def Obligations.ClearedExtentIsClearAndAFailedOneIsRetired : Prop :=
  ∀ (mc : Fin 4) (s : State) (o : Op) (e : Nat), s.quiet → (s.works.chan mc).busy = some o → o.stray = false →
    tblSorted (s.works.chan mc).exts = true →
    (o.kind = .clear e →
      (∃ t w, Settles (exec (.clearDone mc .passed) s) t w ∧ t = { s with media := t.media } ∧
        (∀ c, c ≠ mc → t.media.get c = s.media.get c) ∧ (t.media.get mc).retired = (s.media.get mc).retired ∧
        (∀ i, i / 64 = e → (t.media.get mc).cell i = ⟨none, false⟩ ∧ w.slot ⟨mc, i⟩ = none) ∧
        (∀ i, i / 64 ≠ e → (t.media.get mc).cell i = (s.media.get mc).cell i ∧ w.slot ⟨mc, i⟩ = s.works.slot ⟨mc, i⟩) ∧
        (w.chan mc).busy = none ∧ w.days = s.works.days ∧ (w.chan mc).ext e = ⟨.clear, 0⟩ ∧
        (∀ r, (w.chan mc).relocation = some r → r.source ≠ e) ∧ .allocate ∈ w.tasks) ∧
      ∀ found : List (Nat × Cell), ∃ t w, Settles (exec (.clearDone mc (.failed found)) s) t w ∧ t = { s with media := t.media } ∧
        (∀ c, c ≠ mc → t.media.get c = s.media.get c) ∧ (t.media.get mc).retired = (s.media.get mc).retired ∧
        (∀ i, i / 64 ≠ e → (t.media.get mc).cell i = (s.media.get mc).cell i) ∧ w.days = s.works.days ∧
        let asked : Op := ⟨s.works.serial, false, .retireMark e false, false⟩
        let c := s.works.chan mc
        w.chan mc = if c.queue.length < 512 then { c with busy := none, queue := c.queue ++ [asked] }
          else { c with busy := none, waiting := c.waiting ++ [asked] }) ∧
    ∀ again, o.kind = .retireMark e again →
      let left (marked : Bool) : State :=
        if marked then { s with media := s.media.set mc ((s.media.get mc).retire e) } else s
      let bad (w : Works) : Prop := ((w.chan mc).ext e).state = .bad ∧ (w.chan mc).busy = none ∧ w.days = s.works.days ∧
        (∀ i, i / 64 = e → (w.slot ⟨mc, i⟩).map (fun v => v.state) = some .bad) ∧
        ∀ i, i / 64 ≠ e → w.slot ⟨mc, i⟩ = s.works.slot ⟨mc, i⟩
      (∃ w, Settles (exec (.retireMarkDone mc .passed) s) (left true) w ∧ bad w ∧
        e ∈ ((left true).media.get mc).retired ∧ ((left true).media.get mc).cells = (s.media.get mc).cells) ∧
      ∀ marked,
        (again = false →
          let repeated : List Op :=
            insertBy (fun a b => decide (a.arrival < b.arrival)) { o with kind := .retireMark e true } (s.works.chan mc).queue
          Settles (exec (.retireMarkDone mc (.failed marked)) s) (left marked)
            { s.works with
              tasks := [.grant mc]
              array := { s.works.array with
                chans := s.works.array.chans.set mc
                  { s.works.chan mc with
                    busy := none, queue := repeated.take 512, waiting := repeated.drop 512 ++ (s.works.chan mc).waiting } } }) ∧
        (again = true → ∃ w, Settles (exec (.retireMarkDone mc (.failed marked)) s) (left marked) w ∧ bad w)

/-- On a channel that senses by fixed time, or with no operation in progress, a READY_TIMEOUT has no effect. On a READY-LINE channel
it is a channel fault: the channel is OFFLINE with no operation in progress, queued or waiting, no relocation, no probe under way
and its first probe due 10 s on; each slot that was WRITING is STALE; and each requester of a read in progress, queued or waiting
is answered MEDIA. Every day keeps its state and its intake, staged and late triples, the Intake Unit and the work queue are as
they were, and so are the configuration, the windows and the other channels' media. Without an operation in progress, or on a
FIXED-TIME channel, there is no effect (notes/assumptions/4.md); what the operation that timed out leaves on the media is the
command's operand (notes/assumptions/9.md). Each group with an image WRITING on the channel aborts as a consequence, with the
slots it lost. In an abort the group is no longer in progress and its images not yet posted leave; its item is WAITING in its
place with the channel wait given; its day has no group in progress, its group number and counters as they were, and a void mark
owed more for each slot that the group's sheets had reached or lost; the Intake Unit's records and the Pending Amendment Set stay;
and a scan follows. -/
def Obligations.ReadyTimeoutTakesTheChannelOffline : Prop :=
  (∀ (mc : Fin 4) (torn : Torn) (s : State), s.quiet →
    ((s.works.chan mc).busy = none ∨ (s.cfg.settings.media.get mc).sensing = .fixedTime →
      exec (.readyTimeout mc torn) s = .next s) ∧
    ∀ o, (s.works.chan mc).busy = some o → (s.cfg.settings.media.get mc).sensing = .readyLine →
      ∃ t w, Settles (exec (.readyTimeout mc torn) s) t w ∧ t = { s with media := t.media } ∧
        (∀ c, c ≠ mc → t.media.get c = s.media.get c) ∧
        (w.chan mc).online = false ∧ (w.chan mc).busy = none ∧ (w.chan mc).queue = [] ∧ (w.chan mc).waiting = [] ∧
        (w.chan mc).relocation = none ∧ (w.chan mc).probing = false ∧ (w.chan mc).probeDue = s.clock + 10000 ∧
        (∀ idx i, (s.works.chan mc).slot idx = some i → i.state = .writing →
          (w.slot ⟨mc, idx⟩).map (fun v => v.state) = some .stale) ∧
        (∀ p ∈ (s.works.chan mc).ops, p.stray = false → ∀ idx who again, p.kind = .read idx who again →
          ∀ q ∈ who, .answer q.1 (.media mc) ∈ w.tasks) ∧
        w.days.map (fun p => (p.1, p.2.state, p.2.intake, p.2.staged, p.2.late)) =
          s.works.days.map (fun p => (p.1, p.2.state, p.2.intake, p.2.staged, p.2.late)) ∧
        w.intake = s.works.intake ∧ w.packer.queue = s.works.packer.queue ∧
        ∀ p ∈ s.works.array.posting, ∀ a g, p.slot = some a → a.ch = mc → p.orphan = false → p.poster.group = some g →
          ∃ lost, .abort g (some mc) lost ∈ w.tasks ∧ a ∈ lost) ∧
  ∀ (x : Ctx) (w : Works) (id : Nat) (mc : Option (Fin 4)) (lost : List SlotAddr) (g : Group) (d : DayEntry), w.group id = some g →
    w.day g.day = some d →
    let t := w.runTask x (.abort id mc lost)
    let writing := w.array.posting.filterMap fun p => if p.poster.group = some id then p.slot else none
    let reached := (((g.outputs.filterMap fun o => o.slot) ++ writing).eraseDups ++ lost).eraseDups
    t.packer.groups = w.packer.groups.filter (fun h => decide (h.id ≠ id)) ∧
    t.packer.queue = w.packer.queue.map (fun i => if i.id = g.item then { i with inGroup := false, channelWait := mc } else i) ∧
    (∀ k, k ≠ g.day → t.day k = w.day k) ∧ t.intake = w.intake ∧ t.amend = w.amend ∧ .scan ∈ t.tasks ∧ .auditDrained g.day ∈ t.tasks ∧
    (∀ p ∈ t.array.posting ++ t.array.offered, p.poster.group = some id → p.slot.isSome ∧ p.orphan = true) ∧
    ∃ e, t.day g.day = some e ∧ e.inProgress = none ∧ e.owed = d.owed + reached.length ∧ e.group = d.group ∧ e.state = d.state ∧
      e.intake = d.intake ∧ e.staged = d.staged ∧ e.late = d.late ∧ e.retired = d.retired ∧ e.voided = d.voided ∧ e.corr = d.corr ∧
      e.summary = d.summary

/-- PROBE on a configured OFFLINE channel not being probed begins a probe: the clock stands at the due time at least and the next is
due 10 s later; on any other channel it has no effect. PROBE_FAILED ends the probe and leaves the channel OFFLINE. PROBE_READY
ends it with the channel ONLINE and nothing owed; on a channel with an empty queue and fewer than 512 things owed the operations
asked again are, in order, a void mark for each slot owed one, each clear owed and each retire mark owed; the units that waited
for the channel are told. Without a probe neither has an effect, nor has PROBE on a channel that is not to be probed
(notes/assumptions/4.md). That retire marks owed are asked again is DEDUCED (notes/assumptions/24.md); the order of the work asked
again is the model's choice (notes/assumptions/28.md), and the clock is its own (notes/assumptions/2.md). -/
def Obligations.ProbesBringAChannelBack : Prop :=
  ∀ (mc : Fin 4) (s : State), s.quiet →
    let c := s.works.chan mc
    let with_ (d : MediaChan) : Works := { s.works with array := { s.works.array with chans := s.works.array.chans.set mc d } }
    ((s.cfg.settings.media.get mc).extents = 0 ∨ c.online = true ∨ c.probing = true → exec (.probe mc) s = .next s) ∧
    (0 < (s.cfg.settings.media.get mc).extents → c.online = false → c.probing = false → exec (.probe mc) s = .next
      { s with clock := max s.clock c.probeDue, works := with_ { c with probing := true, probeDue := c.probeDue + 10000 } }) ∧
    (c.probing = false → exec (.probeReady mc) s = .next s ∧ exec (.probeFailed mc) s = .next s) ∧
    (c.probing = true → exec (.probeFailed mc) s = .next { s with works := with_ { c with probing := false } }) ∧
    (c.probing = true → ∃ w, Settles (exec (.probeReady mc) s) s w ∧ w.days = s.works.days ∧ w.intake = s.works.intake ∧
      w.packer = s.works.packer ∧ (w.chan mc).online = true ∧ (w.chan mc).probing = false ∧ (w.chan mc).owed = [] ∧
      (w.chan mc).clearAgain = [] ∧ (w.chan mc).retireAgain = [] ∧ (∀ d, d ≠ mc → w.chan d = s.works.chan d) ∧
      .online mc ∈ w.tasks ∧ .allocate ∈ w.tasks ∧
      (c.queue = [] → c.owed.length + c.clearAgain.length + c.retireAgain.length < 512 →
        (w.chan mc).queue.map (fun o => o.kind) =
          c.owed.map (fun m => .voidMark m.idx m.who false) ++ c.clearAgain.map (fun e => .clear e) ++
            c.retireAgain.map (fun e => .retireMark e false)))

/-- RELOCATION_WALK has no effect without a relocation, while it copies, while it is paused, or on an OFFLINE channel: the model's
choice (notes/assumptions/4.md). Otherwise, with slots of the source still ahead: a slot CLEAR, STALE or BAD is passed over; a
WRITING one enters the revisit set and the walk goes on. A LIVE SUMMARY or HOLD slot is copied: a slot is allocated for it, the
copy stands in the relocation, and the slot's read is asked of the Array Controller. A LIVE DATA slot is passed over when its
entry is QUARANTINED, left for later when the entry is busy or no entry names it, and otherwise its entry is claimed and it is
copied in the same way. When no slot can be allocated the claim is released, the entry as it was before it but for a quarantine
asked, and the relocation pauses. The source is tested for being finished as the consequence of a slot passed over or left. An
allocation gives a CLEAR slot, the lowest of the open extent of the ONLINE channel with the greatest CLEAR count, the lowest
number of several, which becomes WRITING; its extent, in a table with one entry per extent, has a failure count below 2, and no
other slot changes. The posting queue's entries are given slots in order, each asking its program, but a DATA image none while the
total CLEAR count is 256 or less. -/
def Obligations.RelocationWalkHandlesTheNextSlot : Prop :=
  (∀ (mc : Fin 4) (s : State), s.quiet →
    let c := s.works.chan mc
    (c.relocation = none ∨ c.online = false ∨ (∃ r, c.relocation = some r ∧ (r.copy.isSome ∨ r.paused = true)) →
      exec (.relocationWalk mc) s = .next s) ∧
    ∀ r : Relocation, c.relocation = some r → r.copy = none → r.paused = false → c.online = true → r.next < 64 →
      let idx := 64 * r.source + r.next
      let moved (w : Works) (r' : Relocation) : Works :=
        { w with array := { w.array with chans := w.array.chans.set mc { w.chan mc with relocation := some r' } } }
      let on (r' : Relocation) : Prop := Settles (exec (.relocationWalk mc) s) s { moved s.works r' with tasks := [.relocationSettle mc] }
      let past := on { r with next := r.next + 1 }
      let later := idx ∉ r.revisit → on { r with next := r.next + 1, revisit := r.revisit ++ [idx] }
      let copied (w : Works) (kind : SheetKind) : Prop := ∀ new w', w.takeSlot s.ctx kind = some (new, w') →
        Settles (exec (.relocationWalk mc) s) s
          ((moved w' { r with copy := some ⟨idx, kind, some new, none⟩ }).askRead ⟨mc, idx⟩ (.copy mc idx))
      (c.slot idx = none → past) ∧
      ∀ i, c.slot idx = some i →
        (i.state = .stale ∨ i.state = .bad → past) ∧
        (i.state = .writing → later) ∧
        (i.state = .live → i.kind ≠ .data → copied s.works i.kind ∧
          (s.works.takeSlot s.ctx i.kind = none → s.works.entryOfSlot ⟨mc, idx⟩ = none →
            exec (.relocationWalk mc) s = .next { s with works := moved s.works { r with paused := true } })) ∧
        (i.state = .live → i.kind = .data →
          (s.works.entryOfSlot ⟨mc, idx⟩ = none → later) ∧
          ∀ d cls e, s.works.entryOfSlot ⟨mc, idx⟩ = some (d, cls, e) →
            let claimed := s.works.mapEntry d cls e.first fun e => { e with busy := some .relocation }
            (e.quarantined = true → past) ∧
            (e.quarantined = false → e.busy.isSome → later) ∧
            (e.quarantined = false → e.busy = none → copied claimed .data ∧
              (claimed.takeSlot s.ctx .data = none → ∃ w, Settles (exec (.relocationWalk mc) s) s w ∧
                (w.chan mc).relocation = some { r with paused := true } ∧ w.intake = s.works.intake ∧
                (s.works.entryAt d cls e.first = some e → w.entryAt d cls e.first =
                  some { e with quarantined := e.quarantined || e.quarantineAsked, quarantineAsked := false }) ∧
                ∀ k, k ≠ d → w.day k = s.works.day k)))) ∧
  (∀ (x : Ctx) (w : Works) (kind : SheetKind) (a : SlotAddr) (t : Works), w.takeSlot x kind = some (a, t) →
    (w.chan a.ch).online = true ∧ 0 < w.clearOf x a.ch ∧
    (∀ mc : Fin 4, (w.chan mc).online = true → w.clearOf x mc ≤ w.clearOf x a.ch ∧ (w.clearOf x mc = w.clearOf x a.ch → a.ch ≤ mc)) ∧
    w.slot a = none ∧ t.slot a = some ⟨.writing, kind⟩ ∧ (∀ b, b ≠ a → t.slot b = w.slot b) ∧
    (∀ k < a.idx, k / 64 = a.idx / 64 → w.slot ⟨a.ch, k⟩ ≠ none) ∧ (t.chan a.ch).openExt = some (a.idx / 64) ∧
    (tblSorted (w.chan a.ch).exts = true → ((t.chan a.ch).ext (a.idx / 64)).failures < 2) ∧ t.days = w.days) ∧
  ∀ (x : Ctx) (w : Works) (p : Post) (l : List Post),
    (p.slot.isSome ∨ (p.kind = .data ∧ w.clearTotal x ≤ 256) → w.allocPosts x (p :: l) = w.allocPosts x l) ∧
    (p.slot = none → (p.kind = .data → 256 < w.clearTotal x) → ∀ a t, w.takeSlot x p.kind = some (a, t) →
      let given := { t with
        array := { t.array with posting := t.array.posting.map fun (q : Post) => if q.id = p.id then { q with slot := some a } else q } }
      w.allocPosts x (p :: l) = (given.askOp a.ch (.program p.id a.idx p.image) false).allocPosts x l)

/-- OPEN CURSOR with an account, a day range and a visibility in range, and a filter that is absent or not empty, opens the lowest
FREE cursor: its generation rises by 1 modulo 65 536, it stands BEFORE_FIRST with no prefetch and no read, last used now, and the
request is answered DONE with its number and generation. With no cursor FREE it is refused TABLE_FULL. An account, day range or
filter out of range, or a visibility that is neither WAIT nor PASS, is refused MALFORMED. LOOKUP CALL with a day up to 49 710, an
account in range, visibility WAIT or PASS and an output buffer of 64 bytes is taken: a lookup of that identity with nothing read
joins those in progress and is carried out as the consequence; otherwise it is refused MALFORMED. Nothing else changes. A lookup
carried out, its response finding a place: NOT_FOUND for a day absent or GOING; the record of the identity in the images held of
the account's readable sheets; else the first of these sheets not held has its image asked, and the lookup waits; else the staged
record; else QUARANTINED, naming the first sheet in result order that is QUARANTINED or whose image failed; else the late record;
else NOT_FOUND. A record found is written to the buffer and answered DONE, with PENDING for a PASS lookup of an identity in the
Pending Amendment Set; a WAIT lookup of one waits from the present time. An image given is held and a failed one noted, and the
lookup is taken afresh; an answer MEDIA refuses it MEDIA. A lookup answered is no longer in progress. -/
def Obligations.CursorsOpenAndLookupsBegin : Prop :=
  (∀ (ch : Fin 4) (s : State) (r : Req) (vis : Nat), s.offers ch .enquiry r → s.quiet →
    (∀ (account fromDay toDay : Nat) (filter : Option Nat), r.request = .openCursor account fromDay toDay filter vis →
      (¬(1 ≤ account ∧ account ≤ 999999999999999 ∧ fromDay ≤ toDay ∧ toDay ≤ 49710 ∧ filter ≠ some 0 ∧ vis ≤ 1) →
        exec (.openCursor ch) s = .next (s.refusing r .malformed)) ∧
      (1 ≤ account → account ≤ 999999999999999 → fromDay ≤ toDay → toDay ≤ 49710 → filter ≠ some 0 → vis ≤ 1 →
        ((∀ k < 16, (s.works.cursor k).opened = true) → exec (.openCursor ch) s = .next (s.refusing r .tableFull)) ∧
        ∀ n < 16, (s.works.cursor n).opened = false → (∀ k < n, (s.works.cursor k).opened = true) →
          let g := ((s.works.cursor n).generation + 1) % 65536
          exec (.openCursor ch) s = .next
            { s with
              works := { s.works with
                enquiry := { s.works.enquiry with
                  cursors := s.works.enquiry.cursors.set n
                    { opened := true, generation := g, account := account, fromDay := fromDay, toDay := toDay,
                      filter := filter.map filterOf, visibility := if vis = 0 then .wait else .pass, position := .beforeFirst,
                      prefetch := .none, lastUse := s.clock, meetsBack := false, reading := none } }
                port := s.works.port.answered r .done none (.cursor n g) } })) ∧
    ∀ id : Identity, r.request = .lookupCall id vis →
      let fits := id.day ≤ 49710 ∧ 1 ≤ id.account ∧ id.account ≤ 999999999999999 ∧ vis ≤ 1 ∧ r.addr ≠ 0 ∧ 64 ≤ r.length
      (¬ fits → exec (.lookupCall ch) s = .next (s.refusing r .malformed)) ∧
      (fits → Settles (exec (.lookupCall ch) s) s
        { s.works with
          tasks := [.lookup r.id]
          enquiry := { s.works.enquiry with
            lookups := s.works.enquiry.lookups ++ [⟨r.id, id, if vis = 0 then .wait else .pass, [], [], .none⟩] }
          port := s.works.port.taken r })) ∧
  ∀ (x : Ctx) (w : Works) (l : Lookup) (q : Req),
    w.enquiry.lookups.find? (fun k => decide (k.req = l.req)) = some l → w.req l.req = some q → q.discarded = false →
    (w.port.out.get q.ch).length < 64 →
    let t := w.runTask x (.lookup l.req)
    let d := l.id.day
    let left (port : Port) : Works :=
      { w with enquiry := { w.enquiry with lookups := w.enquiry.lookups.filter fun k => decide (k.req ≠ l.req) }, port := port }
    let refused (reason : Reason) (res : Result) : Works := left (w.port.answered q .refused (some reason) res)
    let pending := ∃ p ∈ w.amend.pending, p.id = l.id
    let found (rs : List Rec) : Option Rec := rs.find? fun r => decide (r.identity = l.id)
    let answers (r : Rec) : Prop :=
      (¬ pending → t = left (w.port.reporting q (r.plain false) .empty)) ∧
      (pending → l.visibility = .pass → t = left (w.port.reporting q (r.plain true) .empty)) ∧
      (pending → l.visibility = .wait → t = w.mapLookup l.req fun k => { k with wait := .pending l.id x.clock })
    let sheets := (w.accountEntries d l.id.account).map fun p => (p.2.ref d p.1, p.2)
    let lost (p : SheetRef × Entry) : Bool := p.2.quarantined || l.failed.contains p.1
    let live := sheets.filter fun p => !lost p
    let staged := found ((List.range 8).flatMap fun c => (w.intake.set d c).map fun r => r.call)
    let late := found (w.intake.late.map fun r => r.call)
    (w.liveDay d = none → t = refused .notFound .empty) ∧
    ((w.liveDay d).isSome →
      let read := found (live.flatMap fun p => (heldImage l.images p.1).getD [])
      (∀ r, read = some r → answers r) ∧
      (∀ p, read = none → live.find? (fun p => (heldImage l.images p.1).isNone) = some p →
        t = (w.mapLookup l.req fun k => { k with wait := .image p.1 }).askRead p.2.slot (.lookup l.req p.1)) ∧
      (read = none → (∀ p ∈ live, (heldImage l.images p.1).isSome) →
        (∀ r, staged = some r → answers r) ∧
        (∀ p, staged = none → sheets.find? lost = some p → t = refused .quarantined (.sheet d p.1.cls p.1.first)) ∧
        (staged = none → (∀ p ∈ sheets, lost p = false) →
          (∀ r, late = some r → answers r) ∧ (late = none → t = refused .notFound .empty)))) ∧
    ∀ ref, l.wait = .image ref →
      let told (a : ReadAnswer) : Works := w.runTask x (.answer (.lookup l.req ref) a)
      (∀ b pin, told (.image b pin) =
        (w.mapLookup l.req fun k => { k with images := k.images ++ [⟨ref, imageRecs b⟩] }).task (.lookup l.req)) ∧
      told .failed = (w.mapLookup l.req fun k => { k with failed := k.failed ++ [ref] }).task (.lookup l.req) ∧
      ∀ mc, told (.media mc) = refused .media .empty

/-- CLOSE CURSOR is refused MALFORMED for a number above 15, STATE for a handle that names no OPEN cursor of that generation, and BUSY
for one that is READING; otherwise the cursor is FREE with its generation kept, a READY image it held is unpinned, and the request
is answered DONE. IDLE_EXPIRY does the same to an OPEN cursor that is not READING, at the moment its last use lies the idle limit
back; a cursor FREE or READING sees no effect (notes/assumptions/4.md). That a number above 15 is MALFORMED is DEDUCED
(notes/assumptions/37.md); the clock is the model's own (notes/assumptions/2.md). -/
def Obligations.ClosedAndIdleCursorsAreFree : Prop :=
  ∀ (s : State), s.quiet →
    let free (n : Nat) (w : Works) : Prop :=
      w.enquiry = { s.works.enquiry with
        cursors := s.works.enquiry.cursors.set n { Cursor.free with generation := (s.works.cursor n).generation } } ∧
      (∀ t pin since, (s.works.cursor n).prefetch = .ready t pin since → w.array = (s.works.unpin pin).array) ∧
      ((∀ t pin since, (s.works.cursor n).prefetch ≠ .ready t pin since) → w.array = s.works.array)
    (∀ (ch : Fin 4) (r : Req) (n generation : Nat), s.offers ch .enquiry r → r.request = .closeCursor n generation →
      (15 < n → exec (.closeCursor ch) s = .next (s.refusing r .malformed)) ∧
      (n ≤ 15 → ((s.works.cursor n).opened = false ∨ (s.works.cursor n).generation ≠ generation) →
        exec (.closeCursor ch) s = .next (s.refusing r .state)) ∧
      (n ≤ 15 → (s.works.cursor n).opened = true → (s.works.cursor n).generation = generation →
        ((s.works.cursor n).reading.isSome → exec (.closeCursor ch) s = .next (s.refusing r .busy)) ∧
        ((s.works.cursor n).reading = none → ∃ w, exec (.closeCursor ch) s = .next { s with works := w } ∧ free n w ∧
          w = { s.works with enquiry := w.enquiry, array := w.array, port := s.works.port.answered r .done none .empty }))) ∧
    ∀ n : Fin 16,
      ((s.works.cursor n.val).opened = false ∨ (s.works.cursor n.val).reading.isSome → exec (.idleExpiry n) s = .next s) ∧
      ((s.works.cursor n.val).opened = true → (s.works.cursor n.val).reading = none → ∃ w,
        exec (.idleExpiry n) s = .next
          { s with
            clock := max s.clock ((s.works.cursor n.val).lastUse + 1000 * s.cfg.settings.idle)
            works := w } ∧ free n.val w ∧ w = { s.works with enquiry := w.enquiry, array := w.array })

/-- A READ CURSOR in mode 0 to 3 is taken by the command of its mode. With a cursor number up to 15, a count of 1 to 256 (not asked of
PEEK) and an output buffer of 64 bytes for each record (64 for PEEK), a handle of an OPEN cursor that is not READING: the cursor
is READING in that mode from its position, with nothing used and no image held, and the request is taken; nothing else changes. A
number, count or buffer out of range is refused MALFORMED, a handle that names no OPEN cursor STATE, and a cursor that is READING
BUSY. That a BACKWARD read after a wait or MEDIA end starts at its position itself is DEDUCED (notes/assumptions/20.md). A mode
above 3 is refused MALFORMED by FORWARD, which is the model's choice of command for it (notes/assumptions/7.md). That a number
above 15 is MALFORMED (notes/assumptions/37.md) and that the buffer is tested before the handle (notes/assumptions/15.md) are
DEDUCED. -/
def Obligations.ReadCursorIsTakenInItsMode : Prop :=
  ∀ (ch : Fin 4) (s : State) (r : Req) (number generation code n : Nat) (k : Int), s.offers ch .enquiry r →
    r.request = .readCursor number generation code n k → s.quiet →
    (3 < code → exec (.forward ch) s = .next (s.refusing r .malformed)) ∧
    ∀ (command : Instr) (mode : ReadMode),
      ((code = 0 ∧ command = .forward ch ∧ mode = .forward) ∨ (code = 1 ∧ command = .skipForward ch ∧ mode = .skipForward) ∨
        (code = 2 ∧ command = .backward ch ∧ mode = .backward) ∨ (code = 3 ∧ command = .peek ch ∧ mode = .peek k)) →
      let c := s.works.cursor number
      let fits := number ≤ 15 ∧ (code = 3 ∨ (1 ≤ n ∧ n ≤ 256)) ∧ r.addr ≠ 0 ∧ (if code = 3 then 64 else 64 * n) ≤ r.length
      (¬ fits → exec command s = .next (s.refusing r .malformed)) ∧
      (fits → (c.opened = false ∨ c.generation ≠ generation) → exec command s = .next (s.refusing r .state)) ∧
      (fits → c.opened = true → c.generation = generation → c.reading.isSome → exec command s = .next (s.refusing r .busy)) ∧
      (fits → c.opened = true → c.generation = generation → c.reading = none →
        exec command s = .next
          { s with
            works := { s.works with
              enquiry := { s.works.enquiry with
                cursors := s.works.enquiry.cursors.set number
                  { c with
                    reading := some
                      { req := r.id, mode := mode, n := n, used := 0, images := [], failed := [], gaps := [],
                        search := ⟨c.position, decide ((code = 2 ∧ c.meetsBack = false) ∨ (code = 3 ∧ k < 0))⟩,
                        skip := decide (code = 1), advancing := false, heldPlace := none, wait := .none } } }
              port := s.works.port.taken r } })

/-- For a read that waits for nothing, in a table of sixteen cursors; the search is the mode's own, a PEEK's from the position past
its k items in one event. An item whose identity has a pending entry is waited for by a WAIT cursor, which keeps its place and the
time. Any other item, or any with a PASS cursor, stands in the result buffer, PENDING where it is: 64 bytes after each item before
it, and is used; a PEEK's item at the buffer's start, and the read is answered DONE with 1 item and its position kept.
SKIP_FORWARD passes over its first item unwritten. A BACKWARD read stands at the item used. Once an item has been used, FORWARD
and SKIP_FORWARD take the next item found as the position and go on with items still asked for, else are answered DONE there; a
BACKWARD read that has used n is answered DONE at its position when an item remains, or a sheet that may hold one is unread
(DEDUCED: notes/assumptions/72.md). When the search finds none, the answer is DONE with END set: at AFTER_LAST, BACKWARD at
BEFORE_FIRST, a PEEK with 0 items at its position. Any other sheet needed is taken from the READY prefetch that holds it, then the
most recent of the cache, else, no READY image being held, its read is asked of the Array Controller and waited for at the place
it may next give. A cursor that is not READING, or waits, sees no effect (notes/assumptions/4.md). The place a wait keeps and
meetsBack cleared (log 20) are DEDUCED; an item's bytes at READ_STEP (8), the sheet a step needs (19), GAPs already shown (21), a
wait measured anew at each step (41) and the advance as a step of its own (48) are the model's choices. -/
def Obligations.ReadStepWritesAdvancesAndEnds : Prop :=
  ∀ (n : Fin 16) (s : State), s.quiet →
    let c := s.works.cursor n.val
    ((c.reading = none ∨ ∃ rd, c.reading = some rd ∧ rd.wait ≠ .none) → exec (.readStep n) s = .next s) ∧
    ∀ (rd : Reading) (q : Req), c.reading = some rd → rd.wait = .none → s.works.req rd.req = some q → q.discarded = false →
      s.works.enquiry.cursors.length = 16 →
      let with_ (c' : Cursor) : Works :=
        { s.works with enquiry := { s.works.enquiry with cursors := s.works.enquiry.cursors.set n.val c' } }
      let ahead := rd.mode = .forward ∨ rd.mode = .skipForward
      let peeks := ∃ k, rd.mode = .peek k
      let found : Find :=
        match rd.mode with
        | .forward => s.works.find c rd true rd.search
        | .skipForward => s.works.find c rd true rd.search
        | .backward => s.works.find c rd false rd.search
        | .peek k => s.works.findNth c (decide (0 ≤ k)) (if 0 ≤ k then k.toNat else (-k).toNat - 1) rd rd.search
      let bytes (i : EnquiryItem) (pending : Bool) : Bytes := match i with | .record call _ => call.plain pending | .gap ref => gapPlain ref
      let shown (i : EnquiryItem) : List SheetRef := match i with | .gap ref => rd.gaps ++ [ref] | .record _ _ => rd.gaps
      let ends (u : State) (items : Nat) (p : Position) (endMark : Bool) : Prop := (s.works.port.out.get q.ch).length < 64 →
        ∃ w, Settles (exec (.readStep n) s) u w ∧ (w.cursor n.val).reading = none ∧ (w.cursor n.val).position = p ∧
          (w.cursor n.val).lastUse = s.clock ∧ (∀ r ∈ w.port.reqs, r.id ≠ q.id) ∧ w.days = s.works.days ∧ w.intake = s.works.intake ∧
          w.port.out = s.works.port.out.set q.ch
            (s.works.port.out.get q.ch ++ [⟨q.tag, .done, none, none, endMark, false, .read items p⟩])
      (∀ p i, found = .item p i → rd.advancing = false → rd.skip = false →
        let pend := s.works.pendingOf i
        (∀ e, pend = some e → c.visibility = .wait → exec (.readStep n) s = .next
          { s with
            works := with_ { c with reading := some { rd with heldPlace := some p, wait := .pending e.id s.clock } } }) ∧
        (pend = none ∨ c.visibility = .pass →
          (¬ peeks → exec (.readStep n) s = .next
            { s with
              host := hostWrite s.host (q.addr + 64 * rd.used) (bytes i pend.isSome)
              works := with_ { c with
                position := if rd.mode = .backward then .place p else c.position
                meetsBack := if rd.mode = .backward then false else c.meetsBack
                reading := some { rd with
                  used := rd.used + 1, search := ⟨.place p, true⟩, gaps := shown i,
                  advancing := decide (rd.mode ≠ .backward ∨ rd.n ≤ rd.used + 1) } } }) ∧
          (peeks → ends { s with host := hostWrite s.host q.addr (bytes i pend.isSome) } 1 c.position false))) ∧
      (∀ p i, found = .item p i → rd.advancing = false → rd.skip = true → exec (.readStep n) s = .next
        { s with works := with_ { c with reading := some { rd with gaps := shown i, skip := false, search := ⟨.place p, true⟩ } } }) ∧
      (∀ p i, found = .item p i → rd.advancing = true →
        (ahead → rd.used < rd.n → exec (.readStep n) s = .next
          { s with
            works := with_ { c with
              position := .place p, meetsBack := false
              reading := some { rd with search := ⟨.place p, false⟩, advancing := false } } }) ∧
        (ahead → rd.n ≤ rd.used → ends s rd.used (.place p) false) ∧
        (rd.mode = .backward → ends s rd.used c.position false)) ∧
      (∀ ref e p, found = .need ref e p → rd.advancing = true → rd.mode = .backward → ends s rd.used c.position false) ∧
      (found = .none → (ahead → ends s rd.used .afterLast true) ∧ (rd.mode = .backward → ends s rd.used .beforeFirst true) ∧
        (peeks → ends s 0 c.position true)) ∧
      (∀ ref e p, found = .need ref e p → (rd.advancing = true → rd.mode ≠ .backward) →
        (∀ pin since, c.prefetch = .ready ref pin since → exec (.readStep n) s = .next
          { s with
            works := { with_ { c with reading := some { rd with images := rd.images ++ [⟨ref, s.works.pinned pin⟩] } } with
              array := (s.works.touch pin).array } }) ∧
        ((∀ ref' pin since, c.prefetch ≠ .ready ref' pin since) → Settles (exec (.readStep n) s) s
          ((with_ { c with reading := some { rd with heldPlace := some p, wait := .image ref } }).askRead e.slot (.cursor n rd.req ref))))

/-- For every view of a day, account, day and start: if a forward search strictly beyond a place gives an item at a place p, then that
item is among those the day shows, p lies after the start in result order (day, key, a GAP before a record, class), and no item
the day shows lies after the start and before p. If a search from a place of the day needs a sheet instead, the place at which the
sheet may next give an item lies after the start too. -/
def Obligations.TheItemFoundIsTheNextInResultOrder : Prop :=
  (∀ (v : DayView) (account d : Nat) (from_ p : Place) (i : EnquiryItem), findUp v [] account d (some (from_, true)) = .item p i →
    (p, i) ∈ v.items ∧ from_.lt p = true ∧ ∀ q ∈ v.items, from_.lt q.1 = true → q.1.lt p = false) ∧
  ∀ (v : DayView) (account d : Nat) (from_ p : Place) (r : SheetRef) (e : Entry), from_.day = d →
    findUp v [] account d (some (from_, true)) = .need r e p → (r, e) ∈ v.unread ∧ from_.lt p = true

/-- At the moment a WAIT step has waited the idle limit, a read that waits for a pending entry is answered PARTIAL with reason BUSY:
FORWARD, SKIP_FORWARD and BACKWARD with their items used and the place of the item waited for, which is the cursor's new position,
PEEK with 0 items and its position kept; and a waiting LOOKUP CALL is refused BUSY and is over. HOLD_WINDOW_EXPIRY drops a READY
prefetched image when it has been held the hold window, unpinning it. The clock stands at that moment at least. A cursor or lookup
that waits for no pending entry, and a cursor without a READY image, sees no effect (notes/assumptions/4.md). The clock is the
model's own (notes/assumptions/2.md). -/
def Obligations.EnquiryWaitsEndAtTheirLimits : Prop :=
  ∀ (s : State), s.quiet →
    (∀ (n : Fin 16), let c := s.works.cursor n.val
      ((∀ rd id since, c.reading = some rd → rd.wait ≠ .pending id since) → exec (.waitLimit (.cursor n)) s = .next s) ∧
      (∀ (rd : Reading) (id : Identity) (since : Nat) (q : Req), c.reading = some rd → rd.wait = .pending id since →
        s.works.req rd.req = some q → q.discarded = false →
        (s.works.port.out.get q.ch).length < 64 → s.works.enquiry.cursors.length = 16 → ∃ w,
        Settles (exec (.waitLimit (.cursor n)) s) { s with clock := max s.clock (since + 1000 * s.cfg.settings.idle) } w ∧
        (w.cursor n.val).reading = none ∧ w.days = s.works.days ∧ w.intake = s.works.intake ∧ w.amend = s.works.amend ∧
        ((∀ k, rd.mode ≠ .peek k) → ∀ p, rd.heldPlace = some p → (w.cursor n.val).position = .place p ∧
          w.port = s.works.port.answered q .partly (some .busy) (.read rd.used (.place p))) ∧
        (∀ k, rd.mode = .peek k → (w.cursor n.val).position = c.position ∧
          w.port = s.works.port.answered q .partly (some .busy) (.read 0 c.position))) ∧
      ((∀ t pin since, c.prefetch ≠ .ready t pin since) → exec (.holdWindowExpiry n) s = .next s) ∧
      (∀ t pin since, c.prefetch = .ready t pin since →
        exec (.holdWindowExpiry n) s = .next
          { s with
            clock := max s.clock (since + 1000 * s.cfg.settings.hold)
            works := { s.works with
              array := (s.works.unpin pin).array
              enquiry := { s.works.enquiry with cursors := s.works.enquiry.cursors.set n.val { c with prefetch := .none } } } })) ∧
    (∀ (req : Nat) (l : Lookup), s.works.enquiry.lookups.find? (fun l => decide (l.req = req)) = some l →
      ((∀ id since, l.wait ≠ .pending id since) → exec (.waitLimit (.lookup req)) s = .next s) ∧
      ∀ (id : Identity) (since : Nat) (q : Req), l.wait = .pending id since → s.works.req req = some q → q.discarded = false →
        (s.works.port.out.get q.ch).length < 64 →
        exec (.waitLimit (.lookup req)) s = .next
          { s with
            clock := max s.clock (since + 1000 * s.cfg.settings.idle)
            works := { s.works with
              enquiry := { s.works.enquiry with lookups := s.works.enquiry.lookups.filter fun l => decide (l.req ≠ req) }
              port := s.works.port.answered q .refused (some .busy) .empty } })

/-- An AMEND on a batch CHECKING or APPLYING is refused BUSY; one that would pass 1024 entries TOO_LARGE, naming how many there was
room for, the batch then NONE. Otherwise up to 64 entries are appended, the batch COLLECTING unless it was NONE and there were
none, answered DONE with the number collected. With the close mark the first failing test of R128 ends the batch, naming its entry
index: MALFORMED for no entry (0), a net change outside -2^41 .. 2^41 (the entry count), the first entry of another kind, with an
identity or values out of range, of another day than entry 0, or naming an earlier entry's identity again (the later one of the
pair is named, DEDUCED: notes/assumptions/40.md); NOT_FOUND (0) for a day absent or GOING, STATE (0) for one not CLOSED. A batch
that passes is CHECKING with its net change, day and closing request, and its finding begins. The finding of an entry: NOT_FOUND
without a live day; a late record of the identity refuses QUARANTINED when an entry of the account is, else asks a merge of its
day and class and waits for it, and when told of its end is found afresh from the beginning, which asks again if the record is
late still; an ask for records all held back already stays with the schedule (the model's choice: notes/assumptions/67.md); the
first LIVE entry of the account not examined has its pinned read asked; with none left a hit is found, else the batch is refused
QUARANTINED or NOT_FOUND. At the placement event stale finds are cleared; an identity pending in another batch waits; a net change
other than declared is refused UNBALANCED with the entry count; else the entries join the Pending Amendment Set and the batch is
APPLYING. At its commit they leave it, the batch is NONE, and the closing request is answered DONE with count, day, group and net
change. No other batch or day changes. -/
def Obligations.AmendCollectsUpToItsLimits : Prop :=
  (∀ (ch : Fin 4) (s : State) (r : Req) (close : Bool) (net : Int) (entries : List AmendEntry), s.offers ch .amendment r →
    r.request = .amend close net entries → s.quiet → entries.length ≤ 64 →
    let command : Instr := if close then .amendClose ch else .amend ch
    let b := s.works.batch ch
    let given := b.entries.map (fun e => e.given) ++ entries
    let ends (reason : Reason) (n : Nat) : Prop := ∃ w, exec command s = .next { s with works := w } ∧
      w = { s.works with serial := w.serial, array := w.array, amend := w.amend, port := w.port } ∧
      w.amend.pending = s.works.amend.pending ∧ (w.batch ch).state = .none ∧ (w.batch ch).entries = [] ∧
      (∀ c, c ≠ ch → w.batch c = s.works.batch c) ∧ w.port.out = s.works.port.out.set ch
        (s.works.port.out.get ch ++ [⟨r.tag, .refused, some reason, none, false, false, .named n⟩])
    let fails (p : AmendEntry → Prop) (k : Nat) : Prop := ∃ e, given[k]? = some e ∧ p e
    let kind := fails fun e => e.kind ≠ 1 ∧ e.kind ≠ 2
    let identity := fails fun e => ¬(e.day ≤ 49710 ∧ 1 ≤ e.account ∧ e.account ≤ 999999999999999 ∧ e.switch ≤ 4095)
    let values := fails fun e => e.kind = 1 ∧ (1048575 < e.dur ∨ 2147483647 < e.charge)
    let otherDay := fails fun e => ∀ a, given.head? = some a → e.day ≠ a.day
    let again (k : Nat) : Prop := ∃ j < k, ∃ a e, given[j]? = some a ∧ given[k]? = some e ∧
      a.day = e.day ∧ a.account = e.account ∧ a.switch = e.switch ∧ a.seq = e.seq
    let first (before : List (Nat → Prop)) (t : Nat → Prop) (k : Nat) : Prop := (∀ u ∈ before, ∀ j, ¬ u j) ∧ t k ∧ ∀ j < k, ¬ t j
    ((b.state = .checking ∨ b.state = .applying) → exec command s = .next (s.refusing r .busy)) ∧
    ((b.state = .none ∨ b.state = .collecting) →
      (1024 < given.length → ends .tooLarge (1024 - b.entries.length)) ∧
      (given.length ≤ 1024 → close = false → ∃ b' : Batch,
        exec command s = .next
          { s with
            works := { s.works with
              amend := { s.works.amend with batches := s.works.amend.batches.set ch b' }
              port := s.works.port.answered r .done none (.entries given.length) } } ∧
        b' = { b with state := b'.state, entries := b'.entries } ∧
        b'.entries = b.entries ++ entries.map (fun e => ⟨e, none⟩) ∧
        b'.state = if b.state = .none ∧ entries = [] then .none else .collecting) ∧
      (given.length ≤ 1024 → close = true →
        (given = [] → ends .malformed 0) ∧
        (given ≠ [] → net < -(2 ^ 41) ∨ 2 ^ 41 < net → ends .malformed given.length) ∧
        (-(2 ^ 41) ≤ net → net ≤ 2 ^ 41 →
          (∀ k, first [] kind k ∨ first [kind] identity k ∨ first [kind, identity] values k ∨
              first [kind, identity, values] otherDay k ∨ first [kind, identity, values, otherDay] again k → ends .malformed k) ∧
          ((∀ t ∈ [kind, identity, values, otherDay, again], ∀ k, ¬ t k) → ∀ a, given.head? = some a →
            ((∀ d, s.works.day a.day = some d → d.going = true) → ends .notFound 0) ∧
            ∀ d, s.works.day a.day = some d → d.going = false →
              (d.state ≠ .closed → ends .state 0) ∧
              (d.state = .closed → ∃ w, Settles (exec command s) s w ∧
                w = { s.works with serial := w.serial, tasks := [.find ch], amend := w.amend, port := s.works.port.taken r } ∧
                w.amend.pending = s.works.amend.pending ∧ (∀ c, c ≠ ch → w.batch c = s.works.batch c) ∧
                (w.batch ch).state = .checking ∧ (w.batch ch).net = some net ∧ (w.batch ch).closing = some r.id ∧
                (w.batch ch).wait = .finding 0 none ∧ (w.batch ch).day = some a.day ∧
                (w.batch ch).entries = b.entries ++ entries.map (fun e => ⟨e, none⟩))))))) ∧
  ∀ (x : Ctx) (w : Works) (ch : Fin 4),
    let b := w.batch ch
    let refused (t : Works) (reason : Reason) (n : Nat) : Prop := (t.batch ch).state = .none ∧ (t.batch ch).entries = [] ∧
      t.amend.pending = w.amend.pending ∧ t.days = w.days ∧
      ∀ q, b.closing = some q.id → w.req q.id = some q → q.discarded = false → (w.port.out.get q.ch).length < 64 →
        t.port = w.port.answered q .refused (some reason) (.named n)
    (∀ n e, b.state = .checking → b.wait = .finding n none → b.entries[n]? = some e →
      (∀ f, b.hit = some f → ∃ y : Entry, w.current f.ref = some y ∧ y.quarantined = false) →
      let id : Identity := ⟨e.given.day, e.given.account, e.given.switch, e.given.seq⟩
      let t := w.runTask x (.find ch)
      let sheets := w.accountEntries id.day id.account
      let bad := ∃ p ∈ sheets, p.2.quarantined = true
      (w.liveDay id.day = none → refused t .notFound n) ∧
      ((w.liveDay id.day).isSome →
        (∀ l, w.intake.late.find? (fun l => decide (l.call.identity = id)) = some l →
          (bad → refused t .quarantined n) ∧
          (¬ bad → t = (w.setBatch ch { b with wait := .merge n id.day l.call.cls }).askMerge ch id.day l.call.cls)) ∧
        ((∀ l ∈ w.intake.late, l.call.identity ≠ id) →
          (∀ p, sheets.find? (fun p => !p.2.quarantined && !(b.examined.contains (p.2.ref id.day p.1))) = some p →
            t = (w.setBatch ch { b with wait := .finding n (some (p.2.ref id.day p.1)) }).askRead p.2.slot
              (.batch ch b.serial n (p.2.ref id.day p.1))) ∧
          ((∀ p ∈ sheets, p.2.quarantined = false → p.2.ref id.day p.1 ∈ b.examined) →
            (∀ f, b.hit = some f →
              (t.batch ch).entries = b.entries.set n { e with found := some f } ∧ (t.batch ch).hit = none) ∧
            (b.hit = none → bad → refused t .quarantined n) ∧ (b.hit = none → ¬ bad → refused t .notFound n))))) ∧
    (∀ n d c, b.wait = .merge n d c →
      w.runTask x (.mergeTold ch) = { w.setBatch ch { b with wait := .finding n none } with tasks := w.tasks ++ [.find ch] }) ∧
    (∀ d c, (w.mergeable d c).1 = [] → (w.intake.lateOf d c).length ≤ (w.packer.schedOf d c).held →
      (∀ t, w.mergeExpiry x d c = some t → x.clock < t) → w.runTask x (.mergeTest d c) = w) ∧
    (b.state = .checking → b.wait = .placing →
      let t := w.runTask x (.place ch)
      let stale (e : BatchEntry) : Prop := ∃ f, e.found = some f ∧ ∀ y, w.current f.ref = some y → y.quarantined = true
      let held := ∃ e ∈ b.entries, ∃ p ∈ w.amend.pending,
        p.id = ⟨e.given.day, e.given.account, e.given.switch, e.given.seq⟩
      ((∃ e ∈ b.entries, stale e) → (t.batch ch).state = .checking ∧ t.amend.pending = w.amend.pending ∧
        ∀ (k : Nat) (e : BatchEntry), b.entries[k]? = some e → ∃ y : BatchEntry, (t.batch ch).entries[k]? = some y ∧ y.given = e.given ∧
          (stale e → y.found = none) ∧ (¬ stale e → y.found = e.found)) ∧
      ((∀ e ∈ b.entries, ¬ stale e) → held → t = w) ∧
      ((∀ e ∈ b.entries, ¬ stale e) → ¬ held → b.net ≠ some b.netChange → refused t .unbalanced b.entries.length) ∧
      ((∀ e ∈ b.entries, ¬ stale e) → ¬ held → b.net = some b.netChange → (t.batch ch).state = .applying ∧
        (t.batch ch).entries = b.entries ∧ t.days = w.days ∧ t.port = w.port ∧
        t.amend.pending = w.amend.pending ++ b.entries.zipIdx.filterMap fun p => p.1.found.map fun f =>
          ⟨⟨p.1.given.day, p.1.given.account, p.1.given.switch, p.1.given.seq⟩, ch, p.2, p.1.given.change, f.call.cls, f.call.key⟩)) ∧
    ∀ group,
      let t := w.runTask x (.committed ch group)
      (t.batch ch).state = .none ∧ (t.batch ch).entries = [] ∧ t.amend.pending = w.amend.pending.filter (fun p => decide (p.ch ≠ ch)) ∧
      t.days = w.days ∧ .pendingLeft (b.day.getD 0) ∈ t.tasks ∧
      ∀ q, b.closing = some q.id → w.req q.id = some q → q.discarded = false → (w.port.out.get q.ch).length < 64 →
        t.port = w.port.answered q .done none (.committed b.entries.length (b.day.getD 0) group b.netChange)

/-- ABANDON BATCH acts on the batch of its own channel alone: a batch NONE is answered DONE with no change; the entries of a
COLLECTING batch are discarded, the batch becomes NONE, and the request is answered DONE with the number discarded; a batch
CHECKING or APPLYING refuses it STATE and goes on. The other channels' batches, the Pending Amendment Set and everything outside
the Amendment Unit but pins of the sheet cache stay as they were. -/
def Obligations.AbandonBatchActsByTheBatchState : Prop :=
  ∀ (ch : Fin 4) (s : State) (r : Req), s.offers ch .amendment r → r.request = .abandonBatch → s.quiet →
    let b := s.works.batch ch
    (b.state = .none → exec (.abandonBatch ch) s = .next (s.answering r .done none .empty)) ∧
    (b.state = .checking ∨ b.state = .applying → exec (.abandonBatch ch) s = .next (s.refusing r .state)) ∧
    (b.state = .collecting → ∃ w, exec (.abandonBatch ch) s = .next { s with works := w } ∧
      w = { s.works with
        serial := w.serial, array := w.array, amend := w.amend, port := s.works.port.answered r .done none (.entries b.entries.length) } ∧
      w.amend.pending = s.works.amend.pending ∧ (w.batch ch).state = .none ∧ (w.batch ch).entries = [] ∧
      (∀ c, c ≠ ch → w.batch c = s.works.batch c) ∧
      ((∀ e ∈ b.entries, e.found = none) → b.hit = none → w.array = s.works.array))

/-- SET CLASS TABLE carries 16 entries and SET POLICY 8 policies. If every entry (policy) is valid by R141 (R142), tested whether
enabled or not (whether kept forever or not), the whole pending copy of its own table becomes the given one and the request is
answered DONE; otherwise it is refused MALFORMED naming the index of the first invalid one. Nothing else changes: not the other
table, not the current copies, and in a refusal not the pending copy either. That an enabled or keep byte above 1 makes its entry
(policy) invalid is the model's choice (notes/assumptions/11.md). -/
def Obligations.TablesAreReplacedWholeOrRefused : Prop :=
  (∀ (b buf : Bytes) (entries : List RawClass), Request.ofBytes b buf = some (.setClassTable entries) → entries.length = 16) ∧
  (∀ (b buf : Bytes) (policies : List RawPolicy), Request.ofBytes b buf = some (.setPolicy policies) → policies.length = 8) ∧
  ∀ (ch : Fin 4) (s : State) (r : Req), s.offers ch .retention r → s.quiet →
    (∀ entries : List RawClass, r.request = .setClassTable entries →
      let ok (c : RawClass) : Prop :=
        c.enabled ≤ 1 ∧ c.base ≤ 999999999999999 ∧ c.exp ≤ 12 ∧ 1 ≤ c.cls ∧ c.cls ≤ 7 ∧ c.base % 10 ^ c.exp = 0 ∧
          c.base + 10 ^ c.exp - 1 ≤ 999999999999999
      ((∀ c ∈ entries, ok c) → exec (.setClassTable ch) s = .next
        { s.answering r .done none .empty with
          cfg := { s.cfg with pendingClasses := entries.map fun c => ⟨decide (c.enabled = 1), c.base, c.exp, c.cls⟩ } }) ∧
      ∀ (before after : List RawClass) (c : RawClass), entries = before ++ c :: after → (∀ a ∈ before, ok a) → ¬ ok c →
        exec (.setClassTable ch) s = .next (s.answering r .refused (some .malformed) (.named before.length))) ∧
    ∀ policies : List RawPolicy, r.request = .setPolicy policies →
      let ok (p : RawPolicy) : Prop := 1 ≤ p.months ∧ p.months ≤ 120 ∧ p.grace ≤ 62 ∧ p.keep ≤ 1
      ((∀ p ∈ policies, ok p) → exec (.setPolicy ch) s = .next
        { s.answering r .done none .empty with
          cfg := { s.cfg with pendingPolicies := policies.map fun p => ⟨p.months, p.grace, decide (p.keep = 1)⟩ } }) ∧
      ∀ (before after : List RawPolicy) (p : RawPolicy), policies = before ++ p :: after → (∀ a ∈ before, ok a) → ¬ ok p →
        exec (.setPolicy ch) s = .next (s.answering r .refused (some .malformed) (.named before.length))

/-- PLACE HOLD with an account in range, kind DISPUTE without a release day, or REGULATORY with none or one after today and up to 49
710: refused TABLE_FULL for an account without an entry when 65 536 stand, STATE for a dispute count of 255; else the entry has
one dispute more, or its regulatory hold the given release day with its placed day kept or today, no other entry changes, and the
request joins the end of its range's wait list, taken. RELEASE HOLD joins it alone. HOLD STATE is answered DONE with the entry,
the range's span and generation, whether it is REWRITING and its number of waiting requests. Each is refused MALFORMED for an
operand out of range, or a DISPUTE with a release day (DEDUCED: notes/assumptions/36.md). 65 535 stands for an absent day, 0 for
no sheet; the order of consequences is the model's choice (notes/assumptions/28.md). A rewrite starts in an IDLE range with a
request waiting or owed: it takes the waiting requests and clears the flag; a release is taken when the table, those taken before
applied, has the hold, else refused STATE. With no entry of the range left, the void mark of its sheet is asked, or the end
follows; else the entries fall into the fewest parts of at most 120, the first (n mod k) one larger, spans as R148 divides them,
each posted under the next generation when the one before is LIVE; after the last, the end. At its end the accepted releases
apply; the range is divided into its new sheets' spans, each with its accounts' waiting requests and none rewriting; a range that
wrote no sheet has none, and with no entry in the table it joins the range below, or the one above if lowest, which keeps its
sheet and rewrite; a hold placed meanwhile keeps it apart (both DEDUCED: notes/assumptions/33.md); the previous sheet's void mark
is asked; every request taken is answered or waits for its response's place, a single one DONE with the entry; and a rewrite's
start is tested for every range left. -/
def Obligations.HoldsJoinTheirRangeAndAreReported : Prop :=
  (∀ (ch : Fin 4) (s : State) (r : Req) (account : Nat), s.offers ch .retention r → s.quiet →
    let inRange := 1 ≤ account ∧ account ≤ 999999999999999
    let today := s.cfg.today.getD 0
    let e : HoldEntry := (tblGet account s.works.retention.holds).getD ⟨0, none⟩
    let joined (a : HoldRange) (kind : HoldKind) (place : Bool) : List HoldRange :=
      s.works.retention.ranges.map fun q => if q.lo = a.lo then { q with wait := q.wait ++ [⟨r.id, account, kind, place⟩] } else q
    (∀ kind release : Nat, r.request = .placeHold account kind release →
      let fits := inRange ∧ ((kind = 1 ∧ release = 65535) ∨ (kind = 2 ∧ (release = 65535 ∨ (today < release ∧ release ≤ 49710))))
      let full := tblGet account s.works.retention.holds = none ∧ 65536 ≤ s.works.retention.holds.length
      (¬ fits → exec (.placeHold ch) s = .next (s.refusing r .malformed)) ∧
      (fits → full → exec (.placeHold ch) s = .next (s.refusing r .tableFull)) ∧
      (fits → ¬ full → kind = 1 → 255 ≤ e.disputes → exec (.placeHold ch) s = .next (s.refusing r .state)) ∧
      (fits → ¬ full → (kind = 2 ∨ e.disputes < 255) → ∀ a, s.works.retention.rangeOf account = some a → ∃ holds : Tbl HoldEntry,
        Settles (exec (.placeHold ch) s) s
          { s.works with
            tasks := [.holdStart a.lo]
            retention := { s.works.retention with
              holds := holds, ranges := joined a (if kind = 1 then .dispute else .regulatory) true }
            port := s.works.port.taken r } ∧
        (∀ other, other ≠ account → tblGet other holds = tblGet other s.works.retention.holds) ∧
        tblGet account holds = some
          (if kind = 1 then { e with disputes := e.disputes + 1 }
           else { e with reg := some ⟨(e.reg.map fun h => h.placed).getD today, if release = 65535 then none else some release⟩ }))) ∧
    (∀ kind : Nat, r.request = .releaseHold account kind →
      (¬ (inRange ∧ (kind = 1 ∨ kind = 2)) → exec (.releaseHold ch) s = .next (s.refusing r .malformed)) ∧
      (inRange → (kind = 1 ∨ kind = 2) → ∀ a, s.works.retention.rangeOf account = some a →
        Settles (exec (.releaseHold ch) s) s
          { s.works with
            tasks := [.holdStart a.lo]
            retention := { s.works.retention with ranges := joined a (if kind = 1 then .dispute else .regulatory) false }
            port := s.works.port.taken r })) ∧
    (r.request = .holdState account →
      (¬ inRange → exec (.holdState ch) s = .next (s.refusing r .malformed)) ∧
      (inRange → ∀ a, s.works.retention.rangeOf account = some a →
        exec (.holdState ch) s = .next (s.answering r .done none
          (.holdState (tblGet account s.works.retention.holds) a.lo a.hi ((a.sheet.map fun p => p.2).getD 0) a.rewrite.isSome
            a.wait.length))))) ∧
  (∀ (x : Ctx) (w : Works) (r : HoldRange), w.retention.ranges.find? (fun a => decide (a.lo = r.lo)) = some r →
    let t := w.runTask x (.holdStart r.lo)
    ((r.rewrite.isSome ∨ (r.wait = [] ∧ r.owed = false)) → t = w) ∧
    (r.rewrite = none → (r.wait ≠ [] ∨ r.owed = true) → ∃ ok : List Bool, ok.length = r.wait.length ∧
      let settled := r.wait.zip ok
      let accepted (l : List (HoldReq × Bool)) : List HoldReq := (l.filter fun p => p.2).map fun p => p.1
      let taken := accepted settled
      let rows := (applyReleases w.retention.holds taken).filter fun p => decide (r.lo ≤ p.1) && decide (p.1 ≤ r.hi)
      let g := w.retention.lastGeneration + 1
      let begun : Works := { w with serial := w.serial + 1 }
      let rewritten (rest : List HoldPart) (posted : Option (Nat × Nat × Nat)) : List HoldRange :=
        w.retention.ranges.map fun a => if a.lo = r.lo then
          { a with wait := [], owed := false, rewrite := some ⟨w.serial, taken, rest, posted, []⟩ } else a
      (∀ (i : Nat) (q : HoldReq), r.wait[i]? = some q →
        let e := (tblGet q.account (applyReleases w.retention.holds (accepted (settled.take i)))).getD ⟨0, none⟩
        ok[i]? = some (q.place || (if q.kind = .dispute then decide (0 < e.disputes) else e.reg.isSome))) ∧
      (∀ p ∈ settled, p.2 = false → ∀ q ∈ t.port.reqs, q.id = p.1.req → q.phase = .ended) ∧
      ((∀ p ∈ settled, p.2 = true) → t.port = w.port) ∧
      (∀ (q : HoldReq) (p : Req), settled = [(q, false)] → w.req q.req = some p → p.id = q.req → p.discarded = false →
        (w.port.out.get p.ch).length < 64 → t.port = w.port.answered p .refused (some .state) .empty) ∧
      (rows = [] → t.retention = { w.retention with ranges := rewritten [] none } ∧
        (∀ p, r.sheet = some p → t.array = (begun.voidMark p.1 (.holdEmpty w.serial)).array) ∧
        (r.sheet = none → t.array = w.array ∧ .holdEnd w.serial ∈ t.tasks)) ∧
      (rows ≠ [] → ∃ (first : HoldPart) (rest : List HoldPart),
        let parts := first :: rest
        parts.length = (rows.length + 119) / 120 ∧ (parts.flatMap fun a => a.rows) = rows ∧
        (∀ (i : Nat) (a : HoldPart), parts[i]? = some a →
          a.rows.length = rows.length / parts.length + (if i < rows.length % parts.length then 1 else 0)) ∧
        first.lo = r.lo ∧ (parts.getLast?.map fun a => a.hi) = some r.hi ∧
        (∀ (i : Nat) (a b : HoldPart), parts[i]? = some a → parts[i + 1]? = some b →
          (b.rows.head?.map fun p => p.1) = some b.lo ∧ a.hi = b.lo - 1) ∧
        t.retention = { w.retention with lastGeneration := g, ranges := rewritten rest (some (first.lo, first.hi, g)) } ∧
        t.array = (begun.post (holdImage first g) .hold (.hold w.serial)).array))) ∧
  (∀ (x : Ctx) (w : Works) (serial : Nat) (slot : SlotAddr) (r : HoldRange) (v : Rewrite) (lo hi g : Nat),
    w.retention.rewriting serial = some r → r.rewrite = some v → v.posted = some (lo, hi, g) →
    let t := w.runTask x (.sheetLive (.hold serial) slot)
    let next := w.retention.lastGeneration + 1
    let onto (rest : List HoldPart) (posted : Option (Nat × Nat × Nat)) : List HoldRange :=
      w.retention.ranges.map fun a => if a.lo = r.lo then
        { a with rewrite := some { v with sheets := v.sheets ++ [⟨lo, hi, slot, g⟩], parts := rest, posted := posted } } else a
    (v.parts = [] →
      t = { w with retention := { w.retention with ranges := onto [] none }, tasks := w.tasks ++ [.holdEnd serial] }) ∧
    ∀ (p : HoldPart) (l : List HoldPart), v.parts = p :: l →
      t.retention = { w.retention with lastGeneration := next, ranges := onto l (some (p.lo, p.hi, next)) } ∧
      t.array = (w.post (holdImage p next) .hold (.hold serial)).array) ∧
  ∀ (x : Ctx) (w : Works) (serial : Nat) (r : HoldRange) (v : Rewrite) (before after : List HoldRange),
    w.retention.rewriting serial = some r → r.rewrite = some v → w.retention.ranges = before ++ r :: after →
    (∀ a ∈ before ++ after, a.lo ≠ r.lo) →
    let t := w.runTask x (.holdEnd serial)
    let last := v.sheets.length - 1
    let parts : List HoldRange := v.sheets.zipIdx.map fun p =>
      let lo := if p.2 = 0 then r.lo else p.1.lo
      let hi := if p.2 = last then r.hi else p.1.hi
      { lo := lo, hi := hi, sheet := some (p.1.slot, p.1.generation),
        wait := r.wait.filter fun q => decide (lo ≤ q.account) && decide (q.account ≤ hi), owed := r.owed, rewrite := none }
    t.retention.holds = applyReleases w.retention.holds v.taken ∧
    (v.sheets ≠ [] → t.retention.ranges = before ++ parts ++ after) ∧
    (v.sheets = [] → (∃ p ∈ applyReleases w.retention.holds v.taken, r.lo ≤ p.1 ∧ p.1 ≤ r.hi) →
      t.retention.ranges = before ++ { r with sheet := none, rewrite := none } :: after) ∧
    (v.sheets = [] → (∀ p ∈ applyReleases w.retention.holds v.taken, ¬ (r.lo ≤ p.1 ∧ p.1 ≤ r.hi)) →
      (∀ (below : HoldRange) (l : List HoldRange), before = l ++ [below] → t.retention.ranges =
        l ++ { below with hi := r.hi, wait := below.wait ++ r.wait, owed := below.owed || r.owed } :: after) ∧
      (∀ (above : HoldRange) (l : List HoldRange), before = [] → after = above :: l → t.retention.ranges =
        { above with lo := r.lo, wait := above.wait ++ r.wait, owed := above.owed || r.owed } :: l) ∧
      (before = [] → after = [] → t.retention.ranges = [{ r with sheet := none, rewrite := none }])) ∧
    (∀ a ∈ t.retention.ranges, .holdStart a.lo ∈ t.tasks) ∧
    t.array = (match r.sheet with
      | some q => (w.voidMark q.1 .untold).array
      | none => w.array) ∧
    (∀ q ∈ v.taken, ∀ p ∈ t.port.reqs, p.id = q.req → p.phase = .ended) ∧
    ∀ (q : HoldReq) (p : Req), v.taken = [q] → w.req q.req = some p → p.id = q.req → p.discarded = false →
      (w.port.out.get p.ch).length < 64 →
      t.port = w.port.answered p .done none
        (if q.place then .hold (tblGet q.account t.retention.holds) (t.earliestHeld q.account)
         else .released (tblGet q.account t.retention.holds))

/-- SWEEP with no sweep running starts one: its snapshot is today and the current policies, it stands before the first day, its lists
are empty and its counts 0; it is answered DONE with STARTED. With one running only its again-flag is set, and it is answered DONE
with AGAIN. SWEEP_WALK has no effect without a sweep, while an item waits for queue space, or once the last day has been passed.
With no days left it passes the last day. Before the first day it goes to the lowest day not GOING: a day without runs is only
entered; a run that is not due under the snapshot is only passed; a due one becomes EXPIRING and is counted, and its visit begins,
or, on a day UNDER_AUDIT, it is deferred with cause AUDIT. That SWEEP_WALK stands for one such step is the model's choice
(notes/assumptions/26.md), and so is that it has no effect where nothing can be walked (notes/assumptions/4.md). Only the walk's
first visit is stated here. A trim's completion takes its sheet off the decided list and counts it with its records; when the
sweep has nothing left of an EXPIRING run that has entries, no visit and no sheet to retire either (the model's choice:
notes/assumptions/63.md), the run is RESIDUAL in the same event. The sweep goes on while its walk has not passed the last day or
any of its lists is not empty, the visits, the open retire list and the items refused among them (the model's choice:
notes/assumptions/65.md). Once neither holds, SWEEP_DONE is raised, its outcome DONE (notes/assumptions/71.md), with the
snapshot's today, the counts, and the sheets kept, QUARANTINED ones apart; with the again-flag a new sweep starts from today and
the current policies in the same event, else the sweep is IDLE. The notice joins its channel's outbound queue, or its pending flag
is set. -/
def Obligations.SweepStartsOnceAndWalksTheDays : Prop :=
  (∀ (s : State), s.quiet →
    let swept (sw : Sweep) : Works := { s.works with retention := { s.works.retention with sweep := some sw } }
    (∀ (ch : Fin 4) (r : Req), s.offers ch .retention r → r.request = .sweep →
      (s.works.retention.sweep = none → exec (.sweep ch) s = .next
        { s with
          works := { swept
            { today := s.cfg.today.getD 0, policies := s.cfg.policies, again := false, position := none, passed := false,
              openRetire := [], decided := [], revisit := [], visits := [], refusedItems := [], kept := [],
              counts := ⟨0, 0, 0, 0, 0, 0⟩ } with
            port := s.works.port.answered r .done none (.swept false) } }) ∧
      ∀ sw, s.works.retention.sweep = some sw → exec (.sweep ch) s = .next
        { s with
          works := { swept { sw with again := true } with port := s.works.port.answered r .done none (.swept true) } }) ∧
    (s.works.retention.sweep = none → exec .sweepWalk s = .next s) ∧
    ∀ sw, s.works.retention.sweep = some sw →
      ((sw.refusedItems ≠ [] ∨ sw.passed = true) → exec .sweepWalk s = .next s) ∧
      (sw.refusedItems = [] → sw.passed = false → (∀ v ∈ sw.visits, v.walk = false) → sw.position = none →
        (s.works.days = [] →
          Settles (exec .sweepWalk s) s { swept { sw with passed := true } with tasks := [.sweepEnd] }) ∧
        ∀ (d : Nat) (e : DayEntry) (l : Tbl DayEntry), s.works.days = (d, e) :: l → e.going = false →
          (e.runs = [] → exec .sweepWalk s = .next { s with works := swept { sw with position := some ⟨d, none, false⟩ } }) ∧
          ∀ (run : Run) (runs : List Run), e.runs = run :: runs →
            let at_ : Sweep := { sw with position := some ⟨d, some run.cls, false⟩ }
            let expires (sw : Sweep) : Works :=
              { swept sw with
                days := tblModify d (fun e => { e with runs := e.runs.map fun q =>
                  if q.cls = run.cls then { q with state := .expiring } else q }) s.works.days }
            let counted : Sweep := { at_ with counts := { sw.counts with runsDue := sw.counts.runsDue + 1 } }
            (due s.cfg.settings.epoch sw.policies sw.today d run.cls = false → exec .sweepWalk s = .next { s with works := swept at_ }) ∧
            (due s.cfg.settings.epoch sw.policies sw.today d run.cls = true → e.underAudit = true →
              exec .sweepWalk s = .next
                { s with works := expires { counted with revisit := addNew ⟨d, run.cls, .audit⟩ sw.revisit } }) ∧
            (due s.cfg.settings.epoch sw.policies sw.today d run.cls = true → e.underAudit = false →
              exec .sweepWalk s = .next
                { s with works := expires { counted with visits := sw.visits ++ [⟨d, run.cls, none, none, true, false, []⟩] } }))) ∧
  (∀ (x : Ctx) (w : Works) (sw : Sweep) (r : SheetRef) (n : Nat) (e : DayEntry) (run : Run), w.retention.sweep = some sw →
    w.day r.day = some e → e.runs.find? (fun q => decide (q.cls = r.cls)) = some run → run.state = .expiring →
    let t := w.runTask x (.trimmedDone r n)
    let of_ (q : SheetRef) : Prop := q.day = r.day ∧ q.cls = r.cls
    let left := (∃ q ∈ sw.decided, q ≠ r ∧ of_ q) ∨ (∃ q ∈ sw.openRetire, of_ q) ∨
      (∃ q ∈ sw.revisit, q.day = r.day ∧ q.cls = r.cls) ∨ ∃ q ∈ sw.visits, q.day = r.day ∧ q.cls = r.cls
    t.retention.sweep = some { sw with
      decided := sw.decided.filter fun q => decide (q ≠ r)
      counts := { sw.counts with trimmed := sw.counts.trimmed + 1, recordsRetired := sw.counts.recordsRetired + n } } ∧
    (left → t.days = w.days) ∧
    (¬ left → .sweepEnd ∈ t.tasks ∧ t.days = tblModify r.day (fun e => { e with runs := e.runs.map fun q =>
      if q.cls = r.cls then { q with state := .residual } else q }) w.days)) ∧
  ∀ (x : Ctx) (w : Works) (sw : Sweep), w.retention.sweep = some sw →
    let t := w.runTask x .sweepEnd
    let open_ := sw.passed = false ∨ sw.revisit ≠ [] ∨ sw.decided ≠ [] ∨ sw.visits ≠ [] ∨ sw.openRetire ≠ [] ∨ sw.refusedItems ≠ []
    let report : Result := .sweepDone sw.today sw.counts (sw.kept.countP fun p => !p.2) (sw.kept.countP fun p => p.2)
    let next : Option Sweep := if sw.again then some
      { today := x.cfg.today.getD 0, policies := x.cfg.policies, again := false, position := none, passed := false, openRetire := [],
        decided := [], revisit := [], visits := [], refusedItems := [], kept := [], counts := ⟨0, 0, 0, 0, 0, 0⟩ } else none
    let ch := x.set.routes.getD 5 0
    let merged := (w.port.notices.getD 5 none).isSome
    (open_ → t = w) ∧
    (¬ open_ →
      ((x.windows.get ch).state = .active → (w.port.out.get ch).length < 64 →
        t = { w with
          retention := { w.retention with sweep := next }
          port := { w.port with
            notices := w.port.notices.set 5 none
            out := w.port.out.set ch (w.port.out.get ch ++ [⟨0, .done, none, some .sweepDone, false, merged, report⟩]) } }) ∧
      ((x.windows.get ch).state ≠ .active ∨ 64 ≤ (w.port.out.get ch).length →
        t = { w with
          retention := { w.retention with sweep := next }
          port := { w.port with notices := w.port.notices.set 5 (some ⟨report, merged⟩) } }))

/-- With the walk visiting a run, SWEEP_WALK decides the first entry after the key last decided, and the visit stands at it. An entry
already decided is passed over. On a day UNDER_AUDIT, an entry with a busy owner, or one in whose account span the Pending
Amendment Set holds an entry of the day, the run is deferred with that cause. A QUARANTINED entry with a held account in its span
is KEPT. With no held account in its span, LIVE or QUARANTINED, it joins the open retire list. A LIVE entry with a held account
has its image read. The sweep's kept list takes a sheet that is KEPT once, and loses one that is deferred or retired, so that its
last decision counts (the model's choice: notes/assumptions/59.md). Nothing else of the state changes. That one SWEEP_WALK makes
one decision is the model's choice (notes/assumptions/26.md). At the completion of the read the sheet is decided afresh by the
same cases, whether the walk reads or a revisit, which keeps a list of its own of what it retires and then goes on; an answer
MEDIA defers the run, cause CHANNEL, naming the channel, and an entry no longer in the index is passed over. With the image of an
entry of the same group number still LIVE and with a held account in its span, the accounts of the image's records held at this
event decide: every account of the sheet, KEPT; none, RETIRE; else a TRIM of the sheet that keeps them joins the Packer's queue,
there being room, and the sheet the decided list. Any other answer gives no image, so that the entry, still to be read, is read
again. -/
def Obligations.SweepDecidesByTheFirstCaseThatHolds : Prop :=
  (∀ (s : State) (sw : Sweep) (v : Visit) (e : DayEntry) (run : Run) (before after : List Entry) (x : Entry), s.quiet →
    s.works.retention.sweep = some sw → sw.refusedItems = [] → sw.passed = false → sw.visits.find? (fun u => u.walk) = some v →
    v.reading = none → tblGet v.day s.works.days = some e → e.going = false →
    e.runs.find? (fun q => decide (q.cls = v.cls)) = some run → run.entries = before ++ x :: after →
    (∀ k, v.at_ = some k → k.lt x.first = true) → (∀ a ∈ before, ∃ k, v.at_ = some k ∧ k.lt a.first = false) →
    let ref : SheetRef := ⟨v.day, v.cls, x.first, x.group⟩
    let onto (visit : Visit) : List Visit := sw.visits.map fun u => if u.day = v.day ∧ u.cls = v.cls then visit else u
    let at_ : Sweep := { sw with visits := onto { v with at_ := some x.first } }
    let rest := sw.kept.filter fun p => decide (p.1 ≠ ref)
    let ends (sw : Sweep) : State := { s with works := { s.works with retention := { s.works.retention with sweep := some sw } } }
    let defers (cause : Cause) : State := ends { at_ with kept := rest, revisit := addNew ⟨v.day, v.cls, cause⟩ sw.revisit }
    let decided := ref ∈ sw.decided ∨ ref ∈ sw.openRetire ∨ ref ∈ v.retire
    let pends := ∃ p ∈ s.works.amend.pending, p.id.day = v.day ∧ x.first.account ≤ p.id.account ∧ p.id.account ≤ x.last.account
    let held := ∃ p ∈ s.works.retention.holds, x.first.account ≤ p.1 ∧ p.1 ≤ x.last.account
    (decided → exec .sweepWalk s = .next (ends at_)) ∧
    (¬ decided → e.underAudit = true → exec .sweepWalk s = .next (defers .audit)) ∧
    (¬ decided → e.underAudit = false → x.busy.isSome → exec .sweepWalk s = .next (defers .busy)) ∧
    (¬ decided → e.underAudit = false → x.busy = none → pends → exec .sweepWalk s = .next (defers .pending)) ∧
    (¬ decided → e.underAudit = false → x.busy = none → ¬ pends →
      (x.quarantined = true → held → exec .sweepWalk s = .next (ends { at_ with kept := rest ++ [(ref, true)] })) ∧
      (¬ held → exec .sweepWalk s = .next (ends { at_ with kept := rest, openRetire := sw.openRetire ++ [ref] })) ∧
      (x.quarantined = false → held →
        Settles (exec .sweepWalk s) s
          ((ends { sw with visits := onto { v with at_ := some x.first, reading := some ref } }).works.askRead x.slot (.sweep ref))))) ∧
  ∀ (x : Ctx) (w : Works) (sw : Sweep) (v : Visit) (r : SheetRef) (a : ReadAnswer), w.retention.sweep = some sw →
    sw.visits.find? (fun u => decide (u.day = r.day) && decide (u.cls = r.cls)) = some v → v.reading = some r →
    let t := w.runTask x (.answer (.sweep r) a)
    let onto (visit : Visit) : List Visit := sw.visits.map fun u => if u.day = r.day ∧ u.cls = r.cls then visit else u
    let free : Visit := { v with reading := none }
    let on : Sweep := { sw with visits := onto free }
    let with_ (sw : Sweep) : Works := { w with retention := { w.retention with sweep := some sw } }
    let goes (u : Works) : Works := if v.walk then u else { u with tasks := u.tasks ++ [.visit r.day r.cls] }
    (w.entryAt r.day r.cls r.first = none → t = goes (with_ on)) ∧
    ∀ n, w.entryAt r.day r.cls r.first = some n →
      let ref : SheetRef := ⟨r.day, r.cls, n.first, n.group⟩
      let rest := sw.kept.filter fun p => decide (p.1 ≠ ref)
      let defers (cause : Cause) : Works := goes (with_ { on with kept := rest, revisit := addNew ⟨r.day, r.cls, cause⟩ sw.revisit })
      let keeps : Works := goes (with_ { on with kept := rest ++ [(ref, n.quarantined)] })
      let retires : Works := goes (with_
        (if v.walk then { on with kept := rest, openRetire := sw.openRetire ++ [ref] }
         else { on with kept := rest, visits := onto { free with retire := v.retire ++ [ref] } }))
      let decided := ref ∈ sw.decided ∨ ref ∈ sw.openRetire ∨ ref ∈ v.retire
      let audited := ∃ e, w.day r.day = some e ∧ e.underAudit = true
      let pends := ∃ p ∈ w.amend.pending, p.id.day = r.day ∧ n.first.account ≤ p.id.account ∧ p.id.account ≤ n.last.account
      let held := ∃ p ∈ w.retention.holds, n.first.account ≤ p.1 ∧ p.1 ≤ n.last.account
      (∀ mc, a = .media mc → t = defers (.channel mc)) ∧
      ((∀ mc, a ≠ .media mc) →
        (decided → t = goes (with_ on)) ∧ (¬ decided → audited → t = defers .audit) ∧
        (¬ decided → ¬ audited → n.busy.isSome → t = defers .busy) ∧
        (¬ decided → ¬ audited → n.busy = none → pends → t = defers .pending) ∧
        (¬ decided → ¬ audited → n.busy = none → ¬ pends →
          (n.quarantined = true → held → t = keeps) ∧ (¬ held → t = retires) ∧
          (n.quarantined = false → held →
            ((n.group ≠ r.group ∨ ∀ b pin, a ≠ .image b pin) →
              t = goes ((with_ { sw with visits := onto { v with reading := some ref } }).askRead n.slot (.sweep ref))) ∧
            ∀ b pin, a = .image b pin → n.group = r.group →
              let accounts := ((imageRecs b).map fun c => c.account).eraseDups
              let kept := accounts.filter fun k => (tblGet k w.retention.holds).isSome
              (kept = [] → t = retires) ∧ (kept ≠ [] → kept = accounts → t = keeps) ∧
              (kept ≠ [] → kept ≠ accounts → sw.refusedItems = [] → w.packer.queue.length < 1024 →
                let u := with_ { on with kept := rest, decided := sw.decided ++ [ref] }
                t = goes { u with
                  serial := w.serial + 1, tasks := w.tasks ++ [.scan]
                  packer := { w.packer with
                    queue := w.packer.queue ++ [⟨w.serial, r.day, .trim ref kept, [], false, none⟩] } }))))

/-- AUDIT DAY is refused MALFORMED for a day above 49 710 or a statement buffer below 1328 bytes or at address 0, BUSY while an audit
is in progress, NOT_FOUND for a day without an entry or GOING. That the buffer is tested before the state is read from the manual
(DEDUCED: notes/assumptions/15.md). Otherwise it is taken: the day's UNDER_AUDIT is set, and the audit in progress stands before
the day's first entry with its tallies, recomputed held, identity set and references empty and no failure seen, DRAINING exactly
when the day has a group in progress. Nothing else changes. -/
def Obligations.AuditDayMarksTheDayUnderAudit : Prop :=
  ∀ (ch : Fin 4) (s : State) (r : Req) (d : Nat), s.offers ch .audit r → r.request = .auditDay d → s.quiet →
    let fits := d ≤ 49710 ∧ r.addr ≠ 0 ∧ 1328 ≤ r.length
    (¬ fits → exec (.auditDay ch) s = .next (s.refusing r .malformed)) ∧
    (fits → s.works.audit.isSome → exec (.auditDay ch) s = .next (s.refusing r .busy)) ∧
    (fits → s.works.audit = none → (∀ e, tblGet d s.works.days = some e → e.going = true) →
      exec (.auditDay ch) s = .next (s.refusing r .notFound)) ∧
    (fits → s.works.audit = none → ∀ e, tblGet d s.works.days = some e → e.going = false →
      exec (.auditDay ch) s = .next
        { s with
          works := { s.works with
            days := tblModify d (fun e => { e with underAudit := true }) s.works.days
            audit := some
              { draining := e.inProgress.isSome, req := r.id, day := d, position := none, wait := .none, held := ⟨0, 0, 0⟩,
                ids := [], met := 0, read := 0, passed := 0, unread := 0, refs := [], omitted := 0, failure := false,
                unproved := false, asked := [] }
            port := s.works.port.taken r } })

/-- AUDIT_WALK has no effect without an audit, while it is DRAINING, and while a sheet is being read (the model's choice:
notes/assumptions/4.md). Otherwise it takes the first entry after the walk position, counts it met and moves the position to it: a
QUARANTINED entry is referred to as PRIOR_QUARANTINE; a LIVE one on an OFFLINE channel is counted unread and referred to as
UNREAD; a LIVE one that is free is claimed and its media read asked; one with a busy owner is waited for, and while it stays busy
a further AUDIT_WALK has no effect; at its release, or at an AUDIT_WALK that finds it free, it is taken afresh in the same way,
not counted again. Only the first 32 references are kept, further ones counted as omitted. With no entry left, the day's
UNDER_AUDIT is cleared, the audit is IDLE, the Packer's scan and the sweep's revisits follow in that order (the model's choice:
notes/assumptions/28.md), and the statement's write to its buffer begins (a discarded request leaves progress without one),
showing UNDER_AUDIT clear (the model's choice: notes/assumptions/60.md), with verdict DIFFERS when a failure was seen or index
totals, staged and late do not sum to intake less retired and voided plus corrections, else INCOMPLETE when an entry was unread or
QUARANTINED, else AGREES. A sheet read is checked in the order header, totals, identities: one that passes is counted, with its
totals and identities held; one that fails, an image that is no DATA sheet with finding HEADER among them, is referred to with its
finding, a failure is seen, its quarantine is kept as asked by this audit (notes/assumptions/62.md), and its entry is QUARANTINED
at the release; a failed read is a failure, a read answered MEDIA is unread. Either way the mark is released, and those who held
work back for it are told. -/
def Obligations.AuditWalkTakesTheNextEntryOrStates : Prop :=
  (∀ (s : State), s.quiet →
    (s.works.audit = none → exec .auditWalk s = .next s) ∧
    ∀ a : Audit, s.works.audit = some a →
      ((a.draining = true ∨ ∃ r, a.wait = .reading r) → exec .auditWalk s = .next s) ∧
      let took (d c : Nat) (y : Entry) (met : Audit) : Prop :=
        let ref : SheetRef := ⟨d, c, y.first, y.group⟩
        let referred (f : Finding) (b : Audit) : Audit :=
          if a.refs.length < 32 then { b with refs := a.refs ++ [⟨c, y.first, y.group, y.slot, f⟩] }
          else { b with omitted := a.omitted + 1 }
        let goes (b : Audit) : Works := { s.works with audit := some b }
        (y.quarantined = true →
          exec .auditWalk s = .next { s with works := goes (referred .priorQuarantine { met with unproved := true }) }) ∧
        (y.quarantined = false → (s.works.chan y.slot.ch).online = false →
          exec .auditWalk s = .next
            { s with works := goes (referred .unread { met with unread := a.unread + 1, unproved := true }) }) ∧
        (y.quarantined = false → (s.works.chan y.slot.ch).online = true → y.busy.isSome →
          exec .auditWalk s = .next { s with works := goes { met with wait := .release ref } }) ∧
        (y.quarantined = false → (s.works.chan y.slot.ch).online = true → y.busy = none →
          Settles (exec .auditWalk s) s
            (((goes { met with wait := .reading ref }).mapEntry d c y.first fun e => { e with busy := some .audit }).askRead
              y.slot (.audit ref)))
      (∀ r : SheetRef, a.draining = false → a.wait = .release r →
        (s.works.entryAt r.day r.cls r.first = none →
          exec .auditWalk s = .next { s with works := { s.works with audit := some { a with wait := .none } } }) ∧
        ∀ y, s.works.entryAt r.day r.cls r.first = some y →
          (y.busy.isSome → exec .auditWalk s = .next s) ∧ (y.busy = none → took r.day r.cls y { a with wait := .none })) ∧
      (a.draining = false → a.wait = .none → ∀ e : DayEntry, tblGet a.day s.works.days = some e → e.going = false →
        let after (p : Nat × Entry) : Prop := ∀ q, a.position = some q → q.1 < p.1 ∨ (q.1 = p.1 ∧ q.2.lt p.2.first = true)
        (∀ (before behind : List (Nat × Entry)) (p : Nat × Entry), e.walk = before ++ p :: behind → after p →
          (∀ q ∈ before, ¬ after q) →
          took a.day p.1 p.2 { a with position := some (p.1, p.2.first), met := a.met + 1, wait := .none }) ∧
        ((∀ p ∈ e.walk, ¬ after p) → ∀ r, s.works.req a.req = some r →
          let counted := ((e.intake.sub e.retired).sub e.voided).add e.corr
          let verdict : AuditVerdict :=
            if a.failure = true ∨ ((indexTotals e.entries).add e.staged).add e.late ≠ counted then .differs
            else if a.unproved = true then .incomplete else .agrees
          Settles (exec .auditWalk s) s
            { s.works with
              tasks := [.scan, .auditCleared a.day]
              days := tblModify a.day (fun e => { e with underAudit := false }) s.works.days
              audit := none
              port :=
                if r.discarded then { s.works.port with reqs := s.works.port.reqs.filter fun q => decide (q.id ≠ r.id) }
                else s.works.port.reporting r (a.statement { e with underAudit := false } s.cfg.today verdict) (.audited verdict) }))) ∧
  (∀ (x : Ctx) (w : Works) (a : Audit) (r : SheetRef) (y : Entry), w.audit = some a → a.wait = .release r →
    w.entryAt r.day r.cls r.first = some y → (∀ mc, (w.chan mc).relocation = none) →
    let t := w.runTask x (.releaseTold r.day r.cls r.first)
    let ref : SheetRef := ⟨r.day, r.cls, y.first, y.group⟩
    let referred (f : Finding) (b : Audit) : Audit :=
      if a.refs.length < 32 then { b with refs := a.refs ++ [⟨r.cls, y.first, y.group, y.slot, f⟩] } else { b with omitted := a.omitted + 1 }
    (y.quarantined = true → t.audit = some (referred .priorQuarantine { a with wait := .none, unproved := true })) ∧
    (y.quarantined = false → (w.chan y.slot.ch).online = false →
      t.audit = some (referred .unread { a with wait := .none, unread := a.unread + 1, unproved := true })) ∧
    (y.quarantined = false → (w.chan y.slot.ch).online = true → y.busy.isSome → t.audit = some { a with wait := .release ref }) ∧
    (y.quarantined = false → (w.chan y.slot.ch).online = true → y.busy = none →
      t.audit = some { a with wait := .reading ref } ∧ t.entryAt r.day r.cls r.first = some { y with busy := some .audit })) ∧
  ∀ (x : Ctx) (w : Works) (a : Audit) (r : SheetRef) (e : Entry), w.audit = some a → a.wait = .reading r →
    w.entryAt r.day r.cls r.first = some e → e.group = r.group → e.busy = some .audit →
    let freed (b : Audit) : Audit := { b with wait := .none }
    let referred (f : Finding) (b : Audit) : Audit :=
      if a.refs.length < 32 then { b with refs := a.refs ++ [⟨r.cls, e.first, e.group, e.slot, f⟩] }
      else { b with omitted := a.omitted + 1 }
    let gives (ans : ReadAnswer) (b : Audit) (quarantined : Bool) : Prop :=
      let t := w.runTask x (.answer (.audit r) ans)
      t.audit = some (freed b) ∧ .released r.day r.cls r.first ∈ t.tasks ∧
        t.entryAt r.day r.cls r.first = some
          { e with busy := none, quarantined := e.quarantined || e.quarantineAsked || quarantined, quarantineAsked := false }
    gives .failed (referred .readFailed { a with read := a.read + 1, failure := true }) false ∧
    (∀ mc, gives (.media mc) (referred .unread { a with unread := a.unread + 1, unproved := true }) false) ∧
    let failing (f : Finding) : Audit := referred f { a with read := a.read + 1, failure := true, asked := a.asked ++ [r] }
    (∀ b pin, (∀ h recs, readSheet b ≠ some (.data h recs)) → gives (.image b pin) (failing .header) true) ∧
    ∀ (b : Bytes) (pin : Option Nat) (h : Header) (recs : List Rec), readSheet b = some (.data h recs) →
      let header := h.day = r.day ∧ h.cls = r.cls ∧ h.group = e.group ∧ (h.count : Int) = e.totals.count ∧ h.bodyLen = e.bodyLen ∧
        recs.head?.map Rec.key = some e.first ∧ recs.getLast?.map Rec.key = some e.last
      let ids := recs.map Rec.identity
      let fresh := ids.Nodup ∧ ∀ i ∈ ids, i ∉ a.ids ∧ ∀ c < 8, ∀ q ∈ w.intake.set r.day c, q.call.identity ≠ i
      let fails (f : Finding) : Prop := gives (.image b pin) (failing f) true
      (header → recTotals recs = e.totals → fresh →
        gives (.image b pin)
          { a with read := a.read + 1, passed := a.passed + 1, held := a.held.add e.totals, ids := a.ids ++ ids } false) ∧
      (¬ header → fails .header) ∧ (header → recTotals recs ≠ e.totals → fails .totals) ∧
      (header → recTotals recs = e.totals → ¬ fresh → fails .identity)

/-- The scrub timer runs only in RUNNING with an interval above 0; otherwise its expiry has no effect. At an expiry the timer starts
afresh. While a read is outstanding nothing else happens. Otherwise the first entry after the position, in catalogue order, that
is not QUARANTINED, has no busy owner, whose day is not UNDER_AUDIT and whose channel is ONLINE becomes the position and the
outstanding read, and its media read is asked. If there is none after the position, the passes completed rise by 1 and the first
such entry of the whole table is taken; if there is none at all, the position stays. The clock is the model's own
(notes/assumptions/2.md), and that the wrap takes the first entry in the same expiry is its reading (notes/assumptions/42.md). At
the end of the outstanding read it is none again: the result is discarded when the index has no entry of that group number with
that slot, when an image is given of an entry that is QUARANTINED, or when the read was answered MEDIA or GONE, as a failed one of
an entry QUARANTINED before it ended is; a read answered FAILED, its own failure having quarantined the entry or asked for it, is
one scrubbed and one failure (these two DEDUCED: notes/assumptions/61.md); an image that agrees with its entry in header, keys,
totals and distinct identities is one scrubbed; one that does not is one scrubbed and one failure, and its entry becomes
QUARANTINED, or if busy has its quarantine requested. -/
def Obligations.ScrubTimerTakesTheNextEntry : Prop :=
  (∀ (s : State), s.quiet →
    ((s.works.part ≠ .running ∨ s.cfg.settings.scrub = 0) → exec .scrubTimerExpiry s = .next s) ∧
    (s.works.part = .running → 0 < s.cfg.settings.scrub →
      let now := max s.clock (s.works.scrub.timerFrom + s.cfg.settings.scrub)
      let t : State := { s with clock := now }
      let scrub : Scrub := { s.works.scrub with timerFrom := now }
      let works (b : Scrub) : Works := { s.works with scrub := b }
      let takes (p : Nat × Nat × Entry) : Prop := p.2.2.quarantined = false ∧ p.2.2.busy = none ∧
        (∀ e, tblGet p.1 s.works.days = some e → e.underAudit = false) ∧ (s.works.chan p.2.2.slot.ch).online = true
      let after (p : Nat × Nat × Entry) : Prop := ∀ q, s.works.scrub.position = some q →
        q.1 < p.1 ∨ (q.1 = p.1 ∧ (q.2.1 < p.2.1 ∨ (q.2.1 = p.2.1 ∧ q.2.2.lt p.2.2.first = true)))
      let taken (b : Scrub) (p : Nat × Nat × Entry) : Works :=
        (works { b with
          position := some (p.1, p.2.1, p.2.2.first)
          outstanding := some (⟨p.1, p.2.1, p.2.2.first, p.2.2.group⟩, p.2.2.slot) }).askRead p.2.2.slot .scrub
      (s.works.scrub.outstanding.isSome → exec .scrubTimerExpiry s = .next { t with works := works scrub }) ∧
      (s.works.scrub.outstanding = none →
        (∀ (before behind : List (Nat × Nat × Entry)) (p : Nat × Nat × Entry), s.works.catalogue = before ++ p :: behind →
          takes p → after p → (∀ q ∈ before, ¬ (takes q ∧ after q)) → Settles (exec .scrubTimerExpiry s) t (taken scrub p)) ∧
        (∀ (before behind : List (Nat × Nat × Entry)) (p : Nat × Nat × Entry), s.works.catalogue = before ++ p :: behind →
          takes p → (∀ q ∈ before, ¬ takes q) → (∀ q ∈ s.works.catalogue, ¬ (takes q ∧ after q)) →
          Settles (exec .scrubTimerExpiry s) t (taken { scrub with position := none, passes := s.works.scrub.passes + 1 } p)) ∧
        ((∀ q ∈ s.works.catalogue, ¬ takes q) → exec .scrubTimerExpiry s = .next { t with works := works scrub })))) ∧
  ∀ (x : Ctx) (w : Works) (r : SheetRef) (slot : SlotAddr) (a : ReadAnswer), w.scrub.outstanding = some (r, slot) →
    let t := w.runTask x (.answer .scrub a)
    let counted (failed : Nat) : Scrub :=
      { w.scrub with outstanding := none, scrubbed := w.scrub.scrubbed + 1, failures := w.scrub.failures + failed }
    let discarded : Prop := t = { w with scrub := { w.scrub with outstanding := none } }
    ((∀ e, w.current r = some e → e.slot ≠ slot) → discarded) ∧
    ((∃ mc, a = .media mc) ∨ a = .gone → discarded) ∧
    ∀ e : Entry, w.current r = some e → e.slot = slot →
      (a = .failed → t = { w with scrub := counted 1 }) ∧
      ∀ (b : Bytes) (pin : Option Nat), a = .image b pin →
        let agrees := ∃ (h : Header) (recs : List Rec), readSheet b = some (.data h recs) ∧ h.day = r.day ∧ h.cls = r.cls ∧
          h.group = e.group ∧ (h.count : Int) = e.totals.count ∧ h.bodyLen = e.bodyLen ∧ recs.head?.map Rec.key = some e.first ∧
          recs.getLast?.map Rec.key = some e.last ∧ recTotals recs = e.totals ∧ (recs.map Rec.identity).Nodup
        (e.quarantined = true → discarded) ∧
        (e.quarantined = false → agrees → t = { w with scrub := counted 0 }) ∧
        (e.quarantined = false → ¬ agrees → t.scrub = counted 1 ∧
          t.entryAt r.day r.cls r.first = some
            (if e.busy = none then { e with quarantined := true } else { e with quarantineAsked := true }))

/-- For every v below 2^56 the coded length is the smallest n of at least 1 with v < 128^n; the coding has that many bytes, the i-th
holding the i-th group of 7 bits from the least significant with its top bit set in every byte but the last. Reading with a limit
succeeds exactly on bytes that begin with the coding of a value within the limit, and gives that value and the bytes after it;
anything longer than 8 bytes, running past the end, or longer than the shortest form is refused. No variable-length field of a
valid record reaches 2^56. The manual's two worked codings are as it gives them. -/
def Obligations.VariableLengthIntegersAreTheShortest : Prop :=
  (∀ v < 2 ^ 56, 1 ≤ varLen v ∧ varLen v ≤ 8 ∧ v < 128 ^ varLen v ∧ (∀ n, 1 ≤ n → v < 128 ^ n → varLen v ≤ n) ∧
    (varint v).length = varLen v ∧
    ∀ i < varLen v, ((varint v).getD i 0).toNat = v / 128 ^ i % 128 + if i + 1 < varLen v then 128 else 0) ∧
  (∀ (max v : Nat) (b rest : Bytes), readVar max b = some (v, rest) ↔ v ≤ max ∧ v < 2 ^ 56 ∧ b = varint v ++ rest) ∧
  (∀ (prev : Option Rec) (r : Rec), r.valid = true →
    accountDelta prev r < 2 ^ 56 ∧ startField prev r < 2 ^ 56 ∧ r.dur < 2 ^ 56 ∧ r.switch < 2 ^ 56 ∧ r.seq < 2 ^ 56 ∧
      r.charge < 2 ^ 56 ∧ (∀ c, r.cell = some c → c < 2 ^ 56) ∧ ∀ v, r.volume = some v → v < 2 ^ 56) ∧
  varint 3725 = [141, 29] ∧ varint 90001 = [145, 191, 5]

/-- For records in key order of one day, every field in range: the sheets of the greedy fill joined are the records in their order;
every sheet has 1 to 512 records and a body of at most 4064 bytes, which is as long as its coding; the first record of each later
sheet would not have fitted in the sheet before it; every sheet but the last has a body above 4011 bytes or exactly 512 records;
and no records give no sheet. -/
def Obligations.PackingIsTheGreedyFill : Prop :=
  ∀ (day : Nat) (l : List Rec), recsRising l = true → (∀ r ∈ l, r.valid = true ∧ dayOf r.start = day) →
    (packSheets l).flatten = l ∧
    (∀ a ∈ packSheets l, 1 ≤ a.length ∧ a.length ≤ 512 ∧ bodyLength a ≤ 4064 ∧ (codeBody a).length = bodyLength a) ∧
    sheetsFull (packSheets l) ∧
    (∀ a ∈ (packSheets l).dropLast, 4011 < bodyLength a ∨ a.length = 512) ∧
    (l = [] → packSheets l = [])

/-- For every day, class, group number below 2^32 and list of 1 to 512 records in key order, of that day and class, every field in
range, with a body of at most 4064 bytes: the image of the DATA sheet made of them passes the checksum and decode tests of a sheet
read, and gives a header with the day, class, first and last account, group number, record count and body length, and the same
records with every field and mark. -/
def Obligations.DataSheetsReadBackAsWritten : Prop :=
  ∀ (day cls group : Nat) (l : List Rec), sheetable day cls l = true → group < 2 ^ 32 →
    ∃ a b, l.head? = some a ∧ l.getLast? = some b ∧
      readSheet (dataImage day cls group l) =
        some (.data ⟨.data, cls, day, a.account, b.account, group, l.length, bodyLength l⟩ l)

/-- For a day's DATA candidates (first key at or below last, class 0 to 7) and a summary: those kept stand in their order, none above
the summary's group number, none of a lower one within its retirement list, none overlapped in its class by a candidate of a
higher number that these rules leave standing, no two of a class overlapping; one they leave standing that is not kept overlaps,
in its class, one of a higher number so left, or a kept one of its own earlier in scan order. The day is CLOSED with the summary's
number, its runs stand in key order, exactly the sheets whose quarantine the audit in progress at the reset had asked for
QUARANTINED (DEDUCED: notes/assumptions/62.md), it balances, and is DISCREPANT exactly when its intake is not the summary's. The
day's summary is the first of the highest number; with none, or day-gone, nothing of the day stands; else the summary and the
sheets kept. At resolution the days are these, every other DATA or SUMMARY candidate is voided, and the Hold Table comes from the
HOLD candidates: each account has the entry and range of the newest one whose span has it (of copies the first:
notes/assumptions/33.md), without a regulatory hold due today and no entry if nothing is left, its range owed a rewrite; with
none, no entry, in a range without a sheet and not owed; the ranges follow on another from 1 to the last account; the greatest
generation is the last assigned; those wholly within newer spans are voided. No entry is dropped for the table's limit
(notes/assumptions/80.md). When the last void mark has completed the part is RUNNING, the days and holds stand, the owed rewrites
start, relocations are tested (notes/assumptions/51.md), the space notices are armed as the CLEAR counts say, the scrub timer runs
from now, and REBUILD_DONE, its outcome DONE (notes/assumptions/71.md), is queued or pending; a mark before the last is only
counted. -/
def Obligations.RebuiltDaysStandWithoutOverlap : Prop :=
  (∀ (stood : List SheetRef) (d : Nat) (slot : SlotAddr) (group : Nat) (sum : Summary) (l : List DataCand),
    (∀ c ∈ l, c.cls < 8 ∧ c.first.atMost c.last = true) →
    let kept := survivors group sum.ranges l
    let day := rebuiltDay stood d slot group sum kept
    let stands (c : DataCand) : Prop := c.group ≤ group ∧ (c.group < group → ∀ r ∈ sum.ranges, r.holds c = false)
    kept.Sublist l ∧
    (∀ c ∈ kept, stands c ∧ ∀ b ∈ l, stands b → b.cls = c.cls → c.group < b.group → b.overlaps c = false) ∧
    kept.Pairwise (fun a b => a.cls = b.cls → a.overlaps b = false) ∧
    (∀ c ∈ l, c ∉ kept → stands c →
      (∃ b ∈ l, stands b ∧ b.cls = c.cls ∧ c.group < b.group ∧ b.overlaps c = true) ∨
        ∃ b ∈ kept, b.cls = c.cls ∧ b.group = c.group ∧ b.overlaps c = true ∧ [b, c].Sublist l) ∧
    day.state = .closed ∧ day.group = group ∧ (∀ run ∈ day.runs, runOrdered run.entries) ∧ day.conserved ∧
    day.discrepant = decide (day.intake ≠ sum.intake) ∧
    (∀ c ∈ kept, ∃ run ∈ day.runs, run.cls = c.cls ∧ run.state = .live ∧
      ⟨c.first, c.last, c.totals, c.bodyLen, c.slot, c.group, decide (⟨d, c.cls, c.first, c.group⟩ ∈ stood), none, false⟩ ∈ run.entries) ∧
    ((day.runs.map fun run => run.entries.length).sum = kept.length)) ∧
  (∀ (stood : List SheetRef) (d : Nat) (cands : List Cand),
    let sums : List (SlotAddr × Nat × Summary) := cands.filterMap fun c =>
      match c.content with
      | .summary day group body => if day = d then some (c.slot, group, body) else none
      | _ => none
    let sheets : List DataCand := cands.filterMap fun c =>
      match c.content with
      | .data day cls first last totals len group => if day = d then some ⟨c.slot, cls, first, last, totals, len, group⟩ else none
      | _ => none
    (sums = [] → resolveDay stood d cands = (none, [])) ∧
    ∀ (slot : SlotAddr) (group : Nat) (sum : Summary) (before after : List (SlotAddr × Nat × Summary)),
      sums = before ++ (slot, group, sum) :: after → (∀ q ∈ before, q.2.1 < group) → (∀ q ∈ after, q.2.1 ≤ group) →
      (sum.gone = true → resolveDay stood d cands = (none, [])) ∧
      (sum.gone = false →
        let kept := survivors group sum.ranges sheets
        resolveDay stood d cands = (some (rebuiltDay stood d slot group sum kept), slot :: kept.map fun c => c.slot))) ∧
  (∀ (x : Ctx) (w : Works) (cands : List Cand), w.part = .rebuilding → w.rebuild.resolved = false →
    cands.Perm w.rebuild.cands → cands.Pairwise (fun a b => slotLt a.slot b.slot = true) →
    let t := w.runTask x .resolve
    let resolved (d : Nat) := resolveDay w.rebuild.stood d cands
    let fails (c : Cand) : Bool :=
      match c.content with
      | .data day _ _ _ _ _ _ => !((resolved day).2.contains c.slot)
      | .summary day _ _ => !((resolved day).2.contains c.slot)
      | .hold _ _ _ _ => false
    let voided := ((cands.filter fails).map fun c => c.slot) ++ (rebuiltRetention x.today cands).2
    (∀ d, t.day d = (resolved d).1) ∧ t.retention = (rebuiltRetention x.today cands).1 ∧ t.rebuild.resolved = true ∧
    t.rebuild.marks = w.rebuild.marks + voided.length ∧
    (voided ≠ [] → t.part = .rebuilding ∧ t.array = (voided.foldl (fun w s => w.voidMark s .rebuild) w).array)) ∧
  (∀ (today : Nat) (cands : List Cand),
    let holds : List (SlotAddr × Nat × Nat × Nat × Tbl HoldEntry) := cands.filterMap fun c =>
      match c.content with
      | .hold lo hi g rows => some (c.slot, lo, hi, g, rows)
      | _ => none
    (∀ (slot : SlotAddr) (lo hi g : Nat) (rows : Tbl HoldEntry), (slot, lo, hi, g, rows) ∈ holds →
      1 ≤ lo ∧ lo ≤ hi ∧ hi ≤ 999999999999999 ∧ tblSorted rows = true) →
    let given := rebuiltRetention today cands
    let ranges := given.1.ranges
    let spans (i account : Nat) : Prop := ∃ c, holds[i]? = some c ∧ c.2.1 ≤ account ∧ account ≤ c.2.2.1
    let newer (i j : Nat) : Prop := ∃ a b, holds[i]? = some a ∧ holds[j]? = some b ∧
      (b.2.2.2.1 < a.2.2.2.1 ∨ (b.2.2.2.1 = a.2.2.2.1 ∧ i < j))
    (∀ account, 1 ≤ account → account ≤ 999999999999999 → ∃ r ∈ ranges, r.lo ≤ account ∧ account ≤ r.hi ∧ r.wait = [] ∧ r.rewrite = none ∧
      ((∀ i, ¬ spans i account) → tblGet account given.1.holds = none ∧ r.sheet = none ∧ r.owed = false) ∧
      ∀ (i : Nat) (slot : SlotAddr) (lo hi g : Nat) (rows : Tbl HoldEntry), holds[i]? = some (slot, lo, hi, g, rows) → spans i account →
        (∀ j, spans j account → j = i ∨ newer i j) →
        r.sheet = some (slot, g) ∧ r.owed = true ∧
        tblGet account given.1.holds = (tblGet account rows).bind fun e =>
          let kept : HoldEntry := if (e.reg.bind fun h => h.release).any (fun day => decide (day ≤ today)) then { e with reg := none } else e
          if kept.disputes = 0 ∧ kept.reg = none then none else some kept) ∧
    (ranges.head?.map fun r => r.lo) = some 1 ∧ (ranges.getLast?.map fun r => r.hi) = some 999999999999999 ∧
    (∀ (i : Nat) (a b : HoldRange), ranges[i]? = some a → ranges[i + 1]? = some b → a.lo ≤ a.hi ∧ b.lo = a.hi + 1) ∧
    (∀ c ∈ holds, c.2.2.2.1 ≤ given.1.lastGeneration) ∧
    (given.1.lastGeneration = 0 ∨ ∃ c ∈ holds, c.2.2.2.1 = given.1.lastGeneration) ∧
    ∀ slot, slot ∈ given.2 ↔ ∃ i c, holds[i]? = some c ∧ c.1 = slot ∧
      ∀ account, c.2.1 ≤ account → account ≤ c.2.2.1 → ∃ j, newer j i ∧ spans j account) ∧
  ∀ (x : Ctx) (w : Works) (slot : SlotAddr), w.part = .rebuilding → w.rebuild.resolved = true → w.port.notices.length = 8 →
    let t := w.runTask x (.voidDone .rebuild slot)
    let counted : Rebuild := { w.rebuild with marks := w.rebuild.marks - 1 }
    let ch := x.set.routes.getD 7 0
    let merged := (w.port.notices.getD 7 none).isSome
    (2 ≤ w.rebuild.marks → t = { w with rebuild := counted }) ∧
    (w.rebuild.marks = 1 →
      t.part = .running ∧ t.rebuild = counted ∧ t.days = w.days ∧ t.retention = w.retention ∧
      t.scrub = { w.scrub with timerFrom := x.clock } ∧
      (∀ r ∈ w.retention.ranges, r.owed = true → .holdStart r.lo ∈ t.tasks) ∧
      (∀ mc : Fin 4, 0 < (x.set.media.get mc).extents → .relocationTest mc ∈ t.tasks ∧
        (t.chan mc).lowArmed = decide (64 * (x.set.media.get mc).extents * (x.set.media.get mc).low / 1000 ≤ w.clearOf x mc)) ∧
      t.array.fullArmed = decide (0 < w.clearTotal x) ∧
      ((x.windows.get ch).state ≠ .active →
        t.port.notices.getD 7 none = some ⟨.rebuildDone w.rebuild.counts, merged⟩) ∧
      ((x.windows.get ch).state = .active → (w.port.out.get ch).length ≤ 58 →
        (t.port.out.get ch).getLast? = some ⟨0, .done, none, some .rebuildDone, false, merged, .rebuildDone w.rebuild.counts⟩))
end

