-- ==== Sys2Proof/WellFormed.lean ====
section
/-!
DEFINITION. Which operands a command can have: a fetched request record is 64 bytes (R187), a sheet image fits its slot of 4096
bytes (R27), and slots, days, classes and file slots lie in their ranges (R3, R4, R54, R95).
-/

namespace Sys2Proof

/-- An image that a slot can hold (R27). -/
def Cell.wf (c : Cell) : Bool := c.image.all fun b => decide (b.length ≤ 4096)

/-- Slots of one extent, each with what it holds. -/
def foundWf (found : List (Nat × Cell)) : Bool := found.all fun p => decide (p.1 < Config.extentSlots) && p.2.wf

/-- The contents an unended operation leaves. -/
def Torn.wf (t : Torn) : Bool := foundWf t.found

/-- The end of a program. -/
def ProgramEnd.wf : ProgramEnd → Bool
  | .passed => true
  | .failed found => found.wf

/-- The end of a clear. -/
def ClearEnd.wf : ClearEnd → Bool
  | .passed => true
  | .failed found => foundWf found

/-- The end of a media read. -/
def ReadEnd.wf : ReadEnd → Bool
  | .asStored => true
  | .altered image => decide (image.length ≤ 4096)
  | .statusFailed => true

/-- A command whose operands the part can meet. -/
def Instr.wf : Instr → Bool
  | .powerOn torn => torn.all (fun p => p.2.wf) && decide (torn.map (·.1)).Nodup
  | .fetchDone _ record _ => decide (record.length = 64)
  | .recordIntakeEvent f => decide (f < Config.fileTable)
  | .restoreRecordIntake f => decide (f < Config.fileTable)
  | .stallLimit f => decide (f < Config.fileTable)
  | .packing d => decide (d ≤ Config.maxDay)
  | .mergeDelayExpiry d c => decide (d ≤ Config.maxDay) && decide (c < 8)
  | .programDone _ r => r.wf
  | .mediaReadDone _ r => r.wf
  | .clearDone _ r => r.wf
  | .readyTimeout _ t => t.wf
  | .portReset => true
  | .setupEvent _ _ => true
  | .requestFillIndexWrite _ _ => true
  | .responseConsumeIndexWrite _ _ => true
  | .registerWrite _ _ _ => true
  | .vectorUnmask _ => true
  | .requestFetch _ => true
  | .responseWrite _ => true
  | .responseWriteDone _ => true
  | .interruptDelayExpiry _ => true
  | .hostAccessFailure _ _ => true
  | .bufferWriteDone _ => true
  | .abandonBatch _ => true
  | .abandonFile _ => true
  | .amend _ => true
  | .amendClose _ => true
  | .archiveReset _ => true
  | .auditDay _ => true
  | .closeCursor _ => true
  | .closeDay _ => true
  | .closeFile _ => true
  | .configure _ => true
  | .dayRoll _ => true
  | .dayState _ => true
  | .fileState _ => true
  | .forgetFile _ => true
  | .holdState _ => true
  | .ingestParcel _ => true
  | .lookupCall _ => true
  | .openCursor _ => true
  | .openFile _ => true
  | .placeHold _ => true
  | .forward _ => true
  | .skipForward _ => true
  | .backward _ => true
  | .peek _ => true
  | .releaseHold _ => true
  | .setClassTable _ => true
  | .setPolicy _ => true
  | .status _ => true
  | .sweep _ => true
  | .tune _ => true
  | .voidMarkDone _ _ => true
  | .retireMarkDone _ _ => true
  | .probe _ => true
  | .probeReady _ => true
  | .probeFailed _ => true
  | .relocationWalk _ => true
  | .readStep _ => true
  | .waitLimit _ => true
  | .holdWindowExpiry _ => true
  | .idleExpiry _ => true
  | .sweepWalk => true
  | .auditWalk => true
  | .scrubTimerExpiry => true
  | .rebuildScan => true
  | .vectorMask _ => true

end Sys2Proof
end

