-- ==== Sys2Proof/Laws/PerInstr.lean ====
section
/-!
SUPPORT. A family of lemmas, one per command, about the command as syntax: every slot image that a well-formed command brings from the
modules fits the slot of 4096 bytes it lies in (R27).
-/

namespace Sys2Proof.Laws.Operands

/-- The slot images of a list of slots. -/
def imagesOf (found : List (Nat × Cell)) : List Bytes := found.filterMap fun p => p.2.image

/-- The slot images that a command's operands hold. -/
def images : Instr → List Bytes
  | .powerOn torn => torn.flatMap fun p => imagesOf p.2.found
  | .portReset => []
  | .setupEvent _ _ => []
  | .requestFillIndexWrite _ _ => []
  | .responseConsumeIndexWrite _ _ => []
  | .registerWrite _ _ _ => []
  | .vectorUnmask _ => []
  | .requestFetch _ => []
  | .fetchDone _ _ _ => []
  | .responseWrite _ => []
  | .responseWriteDone _ => []
  | .interruptDelayExpiry _ => []
  | .hostAccessFailure _ _ => []
  | .bufferWriteDone _ => []
  | .abandonBatch _ => []
  | .abandonFile _ => []
  | .amend _ => []
  | .amendClose _ => []
  | .archiveReset _ => []
  | .auditDay _ => []
  | .closeCursor _ => []
  | .closeDay _ => []
  | .closeFile _ => []
  | .configure _ => []
  | .dayRoll _ => []
  | .dayState _ => []
  | .fileState _ => []
  | .forgetFile _ => []
  | .holdState _ => []
  | .ingestParcel _ => []
  | .lookupCall _ => []
  | .openCursor _ => []
  | .openFile _ => []
  | .placeHold _ => []
  | .forward _ => []
  | .skipForward _ => []
  | .backward _ => []
  | .peek _ => []
  | .releaseHold _ => []
  | .setClassTable _ => []
  | .setPolicy _ => []
  | .status _ => []
  | .sweep _ => []
  | .tune _ => []
  | .recordIntakeEvent _ => []
  | .restoreRecordIntake _ => []
  | .stallLimit _ => []
  | .packing _ => []
  | .mergeDelayExpiry _ _ => []
  | .programDone _ .passed => []
  | .programDone _ (.failed c) => c.image.toList
  | .mediaReadDone _ .asStored => []
  | .mediaReadDone _ (.altered b) => [b]
  | .mediaReadDone _ .statusFailed => []
  | .voidMarkDone _ _ => []
  | .clearDone _ .passed => []
  | .clearDone _ (.failed found) => imagesOf found
  | .retireMarkDone _ _ => []
  | .readyTimeout _ torn => imagesOf torn.found
  | .probe _ => []
  | .probeReady _ => []
  | .probeFailed _ => []
  | .relocationWalk _ => []
  | .readStep _ => []
  | .waitLimit _ => []
  | .holdWindowExpiry _ => []
  | .idleExpiry _ => []
  | .sweepWalk => []
  | .auditWalk => []
  | .scrubTimerExpiry => []
  | .rebuildScan => []
  | .vectorMask _ => []

/-- A well-formed command's images fit their slots. -/
def Statement (i : Instr) : Prop := i.wf = true → ∀ b ∈ images i, b.length ≤ 4096

/-- Well-formed slots hold images that fit. -/
theorem found_fits (found : List (Nat × Cell)) (h : foundWf found = true) : ∀ b ∈ imagesOf found, b.length ≤ 4096 := by
  intro b hb
  obtain ⟨p, hp, hi⟩ := List.mem_filterMap.mp hb
  have := List.all_eq_true.mp h p hp
  simp only [Bool.and_eq_true] at this
  have hw := this.2
  simp only [Cell.wf, hi, Option.all_some, decide_eq_true_eq] at hw
  exact hw

theorem powerOn (torn : List (Fin 4 × Torn)) : Statement (.powerOn torn) := by
  intro h b hb
  obtain ⟨p, hp, hi⟩ := List.mem_flatMap.mp hb
  simp only [Instr.wf, Bool.and_eq_true] at h
  exact found_fits _ (List.all_eq_true.mp h.1 p hp) b hi
theorem portReset : Statement .portReset := fun _ _ hb => absurd hb List.not_mem_nil
theorem setupEvent (ch : Fin 4) (value : BitVec 32) : Statement (.setupEvent ch value) := fun _ _ hb => absurd hb List.not_mem_nil
theorem requestFillIndexWrite (ch : Fin 4) (value : BitVec 32) : Statement (.requestFillIndexWrite ch value) := fun _ _ hb => absurd hb List.not_mem_nil
theorem responseConsumeIndexWrite (ch : Fin 4) (value : BitVec 32) : Statement (.responseConsumeIndexWrite ch value) := fun _ _ hb => absurd hb List.not_mem_nil
theorem registerWrite (ch : Fin 4) (field : WindowField) (value : BitVec 64) : Statement (.registerWrite ch field value) := fun _ _ hb => absurd hb List.not_mem_nil
theorem vectorUnmask (ch : Fin 4) : Statement (.vectorUnmask ch) := fun _ _ hb => absurd hb List.not_mem_nil
theorem requestFetch (ch : Fin 4) : Statement (.requestFetch ch) := fun _ _ hb => absurd hb List.not_mem_nil
theorem fetchDone (ch : Fin 4) (record buffer : Bytes) : Statement (.fetchDone ch record buffer) := fun _ _ hb => absurd hb List.not_mem_nil
theorem responseWrite (ch : Fin 4) : Statement (.responseWrite ch) := fun _ _ hb => absurd hb List.not_mem_nil
theorem responseWriteDone (ch : Fin 4) : Statement (.responseWriteDone ch) := fun _ _ hb => absurd hb List.not_mem_nil
theorem interruptDelayExpiry (ch : Fin 4) : Statement (.interruptDelayExpiry ch) := fun _ _ hb => absurd hb List.not_mem_nil
theorem hostAccessFailure (ch : Fin 4) (access : HostAccess) : Statement (.hostAccessFailure ch access) := fun _ _ hb => absurd hb List.not_mem_nil
theorem bufferWriteDone (ch : Fin 4) : Statement (.bufferWriteDone ch) := fun _ _ hb => absurd hb List.not_mem_nil
theorem abandonBatch (ch : Fin 4) : Statement (.abandonBatch ch) := fun _ _ hb => absurd hb List.not_mem_nil
theorem abandonFile (ch : Fin 4) : Statement (.abandonFile ch) := fun _ _ hb => absurd hb List.not_mem_nil
theorem amend (ch : Fin 4) : Statement (.amend ch) := fun _ _ hb => absurd hb List.not_mem_nil
theorem amendClose (ch : Fin 4) : Statement (.amendClose ch) := fun _ _ hb => absurd hb List.not_mem_nil
theorem archiveReset (ch : Fin 4) : Statement (.archiveReset ch) := fun _ _ hb => absurd hb List.not_mem_nil
theorem auditDay (ch : Fin 4) : Statement (.auditDay ch) := fun _ _ hb => absurd hb List.not_mem_nil
theorem closeCursor (ch : Fin 4) : Statement (.closeCursor ch) := fun _ _ hb => absurd hb List.not_mem_nil
theorem closeDay (ch : Fin 4) : Statement (.closeDay ch) := fun _ _ hb => absurd hb List.not_mem_nil
theorem closeFile (ch : Fin 4) : Statement (.closeFile ch) := fun _ _ hb => absurd hb List.not_mem_nil
theorem configure (ch : Fin 4) : Statement (.configure ch) := fun _ _ hb => absurd hb List.not_mem_nil
theorem dayRoll (ch : Fin 4) : Statement (.dayRoll ch) := fun _ _ hb => absurd hb List.not_mem_nil
theorem dayState (ch : Fin 4) : Statement (.dayState ch) := fun _ _ hb => absurd hb List.not_mem_nil
theorem fileState (ch : Fin 4) : Statement (.fileState ch) := fun _ _ hb => absurd hb List.not_mem_nil
theorem forgetFile (ch : Fin 4) : Statement (.forgetFile ch) := fun _ _ hb => absurd hb List.not_mem_nil
theorem holdState (ch : Fin 4) : Statement (.holdState ch) := fun _ _ hb => absurd hb List.not_mem_nil
theorem ingestParcel (ch : Fin 4) : Statement (.ingestParcel ch) := fun _ _ hb => absurd hb List.not_mem_nil
theorem lookupCall (ch : Fin 4) : Statement (.lookupCall ch) := fun _ _ hb => absurd hb List.not_mem_nil
theorem openCursor (ch : Fin 4) : Statement (.openCursor ch) := fun _ _ hb => absurd hb List.not_mem_nil
theorem openFile (ch : Fin 4) : Statement (.openFile ch) := fun _ _ hb => absurd hb List.not_mem_nil
theorem placeHold (ch : Fin 4) : Statement (.placeHold ch) := fun _ _ hb => absurd hb List.not_mem_nil
theorem forward (ch : Fin 4) : Statement (.forward ch) := fun _ _ hb => absurd hb List.not_mem_nil
theorem skipForward (ch : Fin 4) : Statement (.skipForward ch) := fun _ _ hb => absurd hb List.not_mem_nil
theorem backward (ch : Fin 4) : Statement (.backward ch) := fun _ _ hb => absurd hb List.not_mem_nil
theorem peek (ch : Fin 4) : Statement (.peek ch) := fun _ _ hb => absurd hb List.not_mem_nil
theorem releaseHold (ch : Fin 4) : Statement (.releaseHold ch) := fun _ _ hb => absurd hb List.not_mem_nil
theorem setClassTable (ch : Fin 4) : Statement (.setClassTable ch) := fun _ _ hb => absurd hb List.not_mem_nil
theorem setPolicy (ch : Fin 4) : Statement (.setPolicy ch) := fun _ _ hb => absurd hb List.not_mem_nil
theorem status (ch : Fin 4) : Statement (.status ch) := fun _ _ hb => absurd hb List.not_mem_nil
theorem sweep (ch : Fin 4) : Statement (.sweep ch) := fun _ _ hb => absurd hb List.not_mem_nil
theorem tune (ch : Fin 4) : Statement (.tune ch) := fun _ _ hb => absurd hb List.not_mem_nil
theorem recordIntakeEvent (fileSlot : Nat) : Statement (.recordIntakeEvent fileSlot) := fun _ _ hb => absurd hb List.not_mem_nil
theorem restoreRecordIntake (fileSlot : Nat) : Statement (.restoreRecordIntake fileSlot) := fun _ _ hb => absurd hb List.not_mem_nil
theorem stallLimit (fileSlot : Nat) : Statement (.stallLimit fileSlot) := fun _ _ hb => absurd hb List.not_mem_nil
theorem packing (day : Nat) : Statement (.packing day) := fun _ _ hb => absurd hb List.not_mem_nil
theorem mergeDelayExpiry (day cls : Nat) : Statement (.mergeDelayExpiry day cls) := fun _ _ hb => absurd hb List.not_mem_nil
theorem programDone (mc : Fin 4) (result : ProgramEnd) : Statement (.programDone mc result) := by
  intro h b hb
  cases result with
  | passed => cases hb
  | failed c =>
    simp only [images, Option.mem_toList] at hb
    simp only [Instr.wf, ProgramEnd.wf, Cell.wf] at h
    simpa [hb] using h
theorem mediaReadDone (mc : Fin 4) (result : ReadEnd) : Statement (.mediaReadDone mc result) := by
  intro h b hb
  cases result with
  | asStored => cases hb
  | altered image =>
    obtain rfl := List.mem_singleton.mp hb
    simpa [Instr.wf, ReadEnd.wf] using h
  | statusFailed => cases hb
theorem voidMarkDone (mc : Fin 4) (result : MarkEnd) : Statement (.voidMarkDone mc result) := fun _ _ hb => absurd hb List.not_mem_nil
theorem clearDone (mc : Fin 4) (result : ClearEnd) : Statement (.clearDone mc result) := by
  intro h b hb
  cases result with
  | passed => cases hb
  | failed found => exact found_fits found h b hb
theorem retireMarkDone (mc : Fin 4) (result : MarkEnd) : Statement (.retireMarkDone mc result) := fun _ _ hb => absurd hb List.not_mem_nil
theorem readyTimeout (mc : Fin 4) (torn : Torn) : Statement (.readyTimeout mc torn) := fun h b hb => found_fits torn.found h b hb
theorem probe (mc : Fin 4) : Statement (.probe mc) := fun _ _ hb => absurd hb List.not_mem_nil
theorem probeReady (mc : Fin 4) : Statement (.probeReady mc) := fun _ _ hb => absurd hb List.not_mem_nil
theorem probeFailed (mc : Fin 4) : Statement (.probeFailed mc) := fun _ _ hb => absurd hb List.not_mem_nil
theorem relocationWalk (mc : Fin 4) : Statement (.relocationWalk mc) := fun _ _ hb => absurd hb List.not_mem_nil
theorem readStep (cursor : Fin 16) : Statement (.readStep cursor) := fun _ _ hb => absurd hb List.not_mem_nil
theorem waitLimit (waiter : Waiter) : Statement (.waitLimit waiter) := fun _ _ hb => absurd hb List.not_mem_nil
theorem holdWindowExpiry (cursor : Fin 16) : Statement (.holdWindowExpiry cursor) := fun _ _ hb => absurd hb List.not_mem_nil
theorem idleExpiry (cursor : Fin 16) : Statement (.idleExpiry cursor) := fun _ _ hb => absurd hb List.not_mem_nil
theorem sweepWalk : Statement .sweepWalk := fun _ _ hb => absurd hb List.not_mem_nil
theorem auditWalk : Statement .auditWalk := fun _ _ hb => absurd hb List.not_mem_nil
theorem scrubTimerExpiry : Statement .scrubTimerExpiry := fun _ _ hb => absurd hb List.not_mem_nil
theorem rebuildScan : Statement .rebuildScan := fun _ _ hb => absurd hb List.not_mem_nil
theorem vectorMask (ch : Fin 4) : Statement (.vectorMask ch) := fun _ _ hb => absurd hb List.not_mem_nil

end Sys2Proof.Laws.Operands
end

