-- ==== Sys2Proof/Tests/Slice0.lean ====
section
/-!
SUPPORT. Tests. First the ill-formed operands that `Instr.wf` refuses, one per check; then the manual's own worked figures; then one step
of some commands on small states; then, for every statement that has hypotheses, a concrete state and operands that meet them, clause by
clause. Expected values come from the manual's text, named at each test.
-/

namespace Sys2Proof.Tests

open Sys2Proof Sys2Proof.Machine

/-! ## Ill-formed operands -/

theorem test_wf_power_on_twice : (Instr.powerOn [(0, ⟨[], false⟩), (0, ⟨[], false⟩)]).wf = false := by decide
theorem test_wf_power_on_slot : (Instr.powerOn [(0, ⟨[(64, ⟨none, false⟩)], false⟩)]).wf = false := by decide
theorem test_wf_fetch_record : (Instr.fetchDone 0 (List.replicate 63 0) []).wf = false := by decide
theorem test_wf_file_slot : (Instr.recordIntakeEvent 1024).wf = false := by decide
theorem test_wf_restore_slot : (Instr.restoreRecordIntake 1024).wf = false := by decide
theorem test_wf_stall_slot : (Instr.stallLimit 1024).wf = false := by decide
theorem test_wf_packing_day : (Instr.packing 49711).wf = false := by decide
theorem test_wf_merge_day : (Instr.mergeDelayExpiry 49711 0).wf = false := by decide
theorem test_wf_merge_class : (Instr.mergeDelayExpiry 0 8).wf = false := by decide
theorem test_wf_program_image (b : Bytes) (h : b.length = 4097) : (Instr.programDone 0 (.failed ⟨some b, false⟩)).wf = false := by
  simp [Instr.wf, ProgramEnd.wf, Cell.wf, h]
theorem test_wf_read_image (b : Bytes) (h : b.length = 4097) : (Instr.mediaReadDone 0 (.altered b)).wf = false := by
  simp [Instr.wf, ReadEnd.wf, h]
theorem test_wf_clear_slot : (Instr.clearDone 0 (.failed [(64, ⟨none, false⟩)])).wf = false := by decide
theorem test_wf_timeout_slot : (Instr.readyTimeout 0 ⟨[(64, ⟨none, false⟩)], false⟩).wf = false := by decide
theorem test_wf_accepts : (Instr.fetchDone 3 (List.replicate 64 0) []).wf = true := by decide

/-- The opcode table gives no command any bits, so no word spells one. -/
theorem test_no_word_spells_a_command : decodeTableWord 0 0 = none ∧ decodeTableWord 32 7 = none := ⟨rfl, rfl⟩

/-! ## The manual's worked figures -/

/-- Section 2.1: 3725 is coded as 141 and 29, and 90 001 as 145, 191 and 5. -/
theorem test_varint_worked : varint 3725 = [141, 29] ∧ varint 90001 = [145, 191, 5] := by decide

/-- Section 2.1: the table of coded lengths at each boundary. -/
theorem test_varLen_boundaries : varLen 127 = 1 ∧ varLen 128 = 2 ∧ varLen 16383 = 2 ∧ varLen 16384 = 3 ∧ varLen (2 ^ 49) = 8 := by
  decide

/-- Section 2.2: 447911223344 and 12345 as an other party. -/
theorem test_digits_worked :
    pairDigits [4, 4, 7, 9, 1, 1, 2, 2, 3, 3, 4, 4] = [68, 121, 17, 34, 51, 68] ∧ pairDigits [1, 2, 3, 4, 5] = [18, 52, 95] := by decide

/-- Section 9.2: the three horizons of the table, day 0 being 2000-01-01. -/
theorem test_horizons_worked :
    horizonOf ⟨2000, 1, 1⟩ 8643 18 7 = 9197 ∧ horizonOf ⟨2000, 1, 1⟩ 9000 18 7 = 9556 ∧ horizonOf ⟨2000, 1, 1⟩ 8643 6 0 = 8825 := by
  decide

/-- Section 9.1: a lower-numbered entry carves a span out of a wider one. -/
theorem test_class_carved_out :
    classOf [⟨true, 447700000000000, 9, 3⟩, ⟨true, 447000000000000, 12, 2⟩] 447700123456000 = 3 ∧
      classOf [⟨true, 447700000000000, 9, 3⟩, ⟨true, 447000000000000, 12, 2⟩] 447100000000000 = 2 ∧
      classOf [⟨true, 447700000000000, 12, 3⟩] 446999999999999 = 0 := by decide

/-- R166: 16 entries are valid, 24 are not a power of two, 8192 pass the limit. -/
theorem test_ring_entries : entriesValid 16 = true ∧ entriesValid 24 = false ∧ entriesValid 8192 = false := by decide

/-! ## Small states -/

/-- An ACTIVE request channel with rings of 16. -/
def win : Window := ⟨.active, 0, 16, 0, 16, 0, 0, 0, 0, false, false⟩

/-- A media channel that is ONLINE with nothing to do. -/
def chan0 : MediaChan := { MediaChan.initial with online := true }

/-- The units of a RUNNING part that holds nothing. -/
def idle : Works :=
  { Works.initial with
    part := .running
    array := { ArrayCtl.initial with chans := .all chan0 }
    retention := { Retention.initial with ranges := [wholeRange] } }

/-- A configuration: day 9000, four media channels of four extents, every policy of 18 months and 7 days. -/
def cfg0 : Cfg :=
  { Cfg.initial with
    today := some 9000
    settings := { Settings.initial with epoch := ⟨2000, 1, 1⟩, media := .all { MediaCfg.initial with extents := 4 } }
    policies := List.replicate 8 ⟨18, 7, false⟩ }

/-- The part with units `w`, its channels ACTIVE. -/
def has (w : Works) : State := { State.reset with cfg := cfg0, windows := .all win, works := w }

/-- A request of channel 0 with tag 7 and a buffer of 4096 bytes, handed to its unit. -/
def ask (q : Request) : Req := ⟨0, 0, 7, q, 4096, 4096, 0, .handed, false⟩

/-- The part with units `w` and that request handed. -/
def asks (w : Works) (q : Request) : State := has { w with port := { w.port with reqs := [ask q] } }

/-- The same request with another buffer. -/
def askAt (q : Request) (addr length : Nat) : Req := { ask q with addr := addr, length := length }

/-- The part with that request handed. -/
def asksAt (w : Works) (q : Request) (addr length : Nat) : State := has { w with port := { w.port with reqs := [askAt q addr length] } }

theorem off (w : Works) (q : Request) (h : (w.port.out.get 0).length < 64) : (asks w q).offers 0 q.owner (ask q) := by
  refine ⟨?_, ?_, rfl, rfl, h⟩ <;> simp [asks, has, ask, Works.handed, Works.req]

theorem offAt (w : Works) (q : Request) (a n : Nat) (h : (w.port.out.get 0).length < 64) :
    (asksAt w q a n).offers 0 q.owner (askAt q a n) := by
  refine ⟨?_, ?_, rfl, rfl, h⟩ <;> simp [asksAt, has, askAt, ask, Works.handed, Works.req]

/-- A 64-byte request record (section 13.3). -/
def record (code flags tag addr length second : Nat) (params : Bytes) : Bytes :=
  le 2 code ++ le 2 flags ++ le 4 tag ++ le 8 addr ++ le 4 length ++ le 8 second ++ padTo 36 params

/-- The units with a day. -/
def withDay (d : Nat) (e : DayEntry) : Works := { idle with days := [(d, e)] }

/-- The units with a file in slot 0. -/
def withFile (f : File) : Works := { idle with intake := { Intake.initial with files := [(0, f)] } }

/-- A file in a state, from source 5, file 77. -/
def file0 (st : FileState) : File := ⟨5, 77, st, none, 0, 0, none, none, ⟨0, 0, 0⟩, false, List.replicate 11 0, 0, []⟩

/-- A record presented for day 9000. -/
def plain0 (account : Nat) : Plain := ⟨account, 3, 12, 777600100, 60, 5, 0, 0, 1, 0, 0, 0, 0, 0, false, false, 0, []⟩

/-- The call it makes. -/
def call0 (account : Nat) : Rec := (plain0 account).held 0

/-- A parcel of records of request 1 with a refusal list. -/
def parcel0 (l : List Plain) (list : Nat) : Parcel := ⟨1, 0, 9, l, 0, List.replicate 11 0, 0, list, none⟩

/-- Another request of channel 0, taken by its unit. -/
def taken1 : Req := ⟨1, 0, 9, .sweep, 4096, 4096, 0, .taken, false⟩

/-- The units with another request in progress. -/
def withReq (w : Works) : Works := { w with port := { w.port with reqs := [taken1] } }

/-- Keys of day 9000. -/
def key0 (account : Nat) : Key := ⟨account, 777600100, 12, 3⟩

/-- An index entry of accounts 10 to 20 in slot 5 of media channel 0, of group 1. -/
def entry0 : Entry := ⟨key0 10, key0 20, ⟨2, 120, 10⟩, 40, ⟨0, 5⟩, 1, false, none, false⟩

/-- A day with one run of class 0 with one entry. -/
def day0 (st : DayState) (e : Entry) : DayEntry := { DayEntry.new st with runs := [⟨0, .live, [e]⟩] }

/-- The units with an operation in progress on media channel 0. -/
def busyWith (k : OpKind) (stray : Bool) : Works :=
  { idle with array := { idle.array with chans := idle.array.chans.set 0 { chan0 with busy := some ⟨0, true, k, stray⟩ } } }

/-- The units with media channel 0 as given. -/
def withChan (c : MediaChan) : Works := { idle with array := { idle.array with chans := idle.array.chans.set 0 c } }

/-! ## Witnesses: the whole part and the port -/

theorem witness_StepTakesTheFrontCommand : State.reset.pending = [] := rfl

/-- 64 responses queued, 7 requests in progress with a fetch under way, and a full work queue: every bound of the units reached. -/
def brim : State :=
  { has { idle with
      serial := 7
      port := { Port.initial with
        out := .all (List.replicate 64 (responseTo 7 .done none .empty false))
        reqs := (List.range 7).map fun n => { ask .sweep with id := n } } } with
    windows := .all { win with fetching := true } }

theorem witness_EveryCommandEndsInANextState : brim.bounded := by
  unfold State.bounded
  refine ⟨by decide, by decide, by decide, by decide, by decide, rfl⟩

theorem witness_OnlyTheNamedCommandsChangeEachPart : exec .sweepWalk (has idle) = .next (has idle) ∧ changesCfg .sweepWalk = false ∧
    changesMedia .sweepWalk = false ∧ changesHost .sweepWalk = false ∧ changesWindows .sweepWalk = false ∧
    changesVectors .sweepWalk = false ∧ changesClock .sweepWalk = false :=
  ⟨State.settled_quiet (has idle) idle rfl, rfl, rfl, rfl, rfl, rfl, rfl⟩

theorem witness_SoundStatesStaySound : State.reset.sound = true ∧ ∃ t, step State.reset = .next t := ⟨by decide, _, rfl⟩

theorem witness_PowerOnKeepsOnlyTheMediaAndHostMemory :
    ((has idle).works.chan 0).busy = none ∧ (0 : Fin 4) ∉ ([] : List (Fin 4 × Torn)).map (·.1) ∧
      ∀ k : OpKind, k = .program 0 5 [] ∨ k = .copy 5 [] 6 ∨ k = .voidMark 5 [] false ∨ k = .clear 1 ∨ k = .retireMark 1 false ∨
        k = .read 5 [] false → ∃ o, ((has (busyWith k false)).works.chan 0).busy = some o ∧ o.kind = k :=
  ⟨rfl, by decide, fun _ _ => ⟨_, rfl, rfl⟩⟩

theorem witness_PortResetEmptiesThePort : (has idle).quiet ∧ ((has idle).works.batch 0).state ≠ .collecting ∧
    ∃ s : State, s.quiet ∧ (s.works.batch 0).state = .collecting ∧ s.works.port.reqs ≠ [] :=
  ⟨rfl, by decide,
    asks { idle with amend := { Amend.initial with batches := .all { Batch.empty with state := .collecting } } } .sweep, rfl, rfl, by decide⟩

theorem witness_SetupEventActivatesAValidChannel :
    ((has idle).quiet ∧ ((has idle).windows.get 0).state ≠ .unset) ∧
    (State.reset.quiet ∧ (State.reset.windows.get 0).state = .unset ∧
      { State.reset.windows.get 0 with responseEntries := 16 }.valid = false) ∧
    ∃ s : State, s.quiet ∧ (s.windows.get 0).state = .unset ∧ { s.windows.get 0 with responseEntries := 16 }.valid = true ∧
      s.works.port.out.get 0 = [] :=
  ⟨⟨rfl, by decide⟩, ⟨rfl, rfl, by decide⟩, { State.reset with windows := .all { Window.initial with requestEntries := 16 } }, rfl, rfl,
    by decide, rfl⟩

theorem witness_WindowWritesAreTakenOnlyInTheirStates :
    (win.state = .active ∧ ((16 : BitVec 32) - win.requestConsume).toNat ≤ win.requestEntries.toNat ∧
      win.requestEntries.toNat < ((17 : BitVec 32) - win.requestConsume).toNat) ∧
    (∃ v : Window, v.state = .active ∧ ((3 : BitVec 32) - v.responseConsume).toNat ≤ (v.responseFill - v.responseConsume).toNat ∧
      (v.responseFill - v.responseConsume).toNat < ((4 : BitVec 32) - v.responseConsume).toNat) ∧
    win.state ≠ .unset ∧ (State.reset.windows.get 0).state = .unset :=
  ⟨by decide, ⟨{ win with responseFill := 3 }, by decide⟩, by decide, rfl⟩

theorem witness_VectorsFireByMaskAndMeasure :
    (∃ s : State, (s.windows.get 0).state = .active ∧ (s.vectors.get 0).measuring = true ∧ 0 < (s.vectors.get 0).unsignalled) ∧
      (State.reset.windows.get 0).state ≠ .active ∧ (State.reset.vectors.get 0).measuring = false :=
  ⟨⟨{ has idle with vectors := .all ⟨1, true, false, false, 0⟩ }, rfl, rfl, by decide⟩, by decide, rfl⟩

theorem witness_FetchesAndResponseWritesBeginWhenTheRingsAllow :
    (∃ s : State, let v := s.windows.get 0
      v.state = .active ∧ v.fetching = false ∧ 0 < (v.requestFill - v.requestConsume).toNat ∧
        s.works.port.reqs.countP (fun r => decide (r.ch = 0)) < 8) ∧
    (∃ s : State, let v := s.windows.get 0
      v.state = .active ∧ v.writing = false ∧ s.works.port.out.get 0 ≠ [] ∧
        (v.responseFill - v.responseConsume).toNat < v.responseEntries.toNat) ∧
    (State.reset.windows.get 0).state ≠ .active :=
  ⟨⟨{ has idle with windows := .all { win with requestFill := 1 } }, rfl, rfl, by decide, by decide⟩,
    ⟨{ has { idle with port := { Port.initial with out := .all [responseTo 7 .done none .empty false] } } with
        windows := .all { win with responseFill := 15 } }, rfl, rfl, by decide, by decide⟩, by decide⟩

theorem witness_FetchedRequestIsHandedToItsUnit :
    let s := { has idle with windows := .all { win with fetching := true } }
    s.quiet ∧ (s.windows.get 0).state = .active ∧ (s.windows.get 0).fetching = true ∧
      inputPasses (record 10 0 7 0 0 0 (le 2 9001)) = true ∧ recordTag (record 10 0 7 0 0 0 (le 2 9001)) ≠ 0 ∧
      Request.ofBytes (record 10 0 7 0 0 0 (le 2 9001)) [] = some (.dayRoll 9001) ∧ s.works.part = .running ∧
      Request.ofBytes (record 24 0 7 64 1152 0 []) [] = some .status ∧ State.reset.works.part = .starting :=
  ⟨rfl, rfl, rfl, by decide, by decide, by decide, rfl, by decide, rfl⟩

theorem witness_FetchedRequestIsRefusedAtThePort :
    (∃ s : State, s.quiet ∧ (s.windows.get 0).fetching = false) ∧
    (∃ (s : State) (r : Bytes), s.quiet ∧ (s.windows.get 0).state = .active ∧ (s.windows.get 0).fetching = true ∧
      (s.works.port.out.get 0).length < 64 ∧ (∀ q ∈ s.works.port.reqs, q.id < s.works.serial) ∧ recordTag r = 0) ∧
    (∃ (s : State) (r : Bytes), s.quiet ∧ (s.windows.get 0).state = .active ∧ (s.windows.get 0).fetching = true ∧
      (s.works.port.out.get 0).length = 64 ∧ (∀ q ∈ s.works.port.reqs, q.id < s.works.serial) ∧ recordTag r = 0) ∧
    ∃ (s : State) (r : Bytes), s.quiet ∧ (s.windows.get 0).state = .active ∧ (s.windows.get 0).fetching = true ∧
      (s.works.port.out.get 0).length < 64 ∧ (∀ q ∈ s.works.port.reqs, q.id < s.works.serial) ∧ inputPasses r = true ∧
      recordTag r ≠ 0 ∧ ∃ q, Request.ofBytes r [] = some q ∧ q ≠ .status ∧ s.works.part = .starting ∧ ∀ b, q ≠ .configure b :=
  ⟨⟨has idle, rfl, rfl⟩,
    ⟨{ has idle with windows := .all { win with fetching := true } }, record 25 0 0 0 0 0 [], rfl, rfl, rfl, by decide, by decide,
      by decide⟩,
    ⟨brim, record 25 0 0 0 0 0 [], rfl, rfl, rfl, by decide, by decide, by decide⟩,
    { has Works.initial with windows := .all { win with fetching := true } }, record 25 0 7 0 0 0 [], rfl, rfl, rfl, by decide,
    by decide, by decide, by decide, .sweep, by decide, by decide, rfl, by intro b; exact Request.noConfusion⟩

/-- A channel writing its one response, with a notice or a waiting owner behind it. -/
def writing0 (notices : List (Option PendingNotice)) (waits : List (Nat × Response)) : State :=
  { has { idle with port := { Port.initial with
      out := .all [responseTo 7 .done none .empty false], waiting := .all waits, notices := notices } } with
    windows := .all { win with writing := true } }

theorem witness_ResponseWrittenAdvancesAndGivesItsPlace :
    ((has idle).quiet ∧ ((has idle).windows.get 0).writing = false) ∧
    (∃ s : State, s.quiet ∧ (s.windows.get 0).state = .active ∧ (s.windows.get 0).writing = true ∧
      s.works.port.out.get 0 = [responseTo 7 .done none .empty false] ∧
      s.works.port.notices.getD (NoticeKind.sweepDone).index none = some ⟨.empty, false⟩ ∧
      s.cfg.settings.routes.getD (NoticeKind.sweepDone).index 0 = 0 ∧
      ∀ j : NoticeKind, j.index < (NoticeKind.sweepDone).index → ¬ s.pendingOn 0 j) ∧
    (∃ s : State, s.quiet ∧ (s.windows.get 0).state = .active ∧ (s.windows.get 0).writing = true ∧
      (∀ k : NoticeKind, ¬ s.pendingOn 0 k) ∧ s.works.port.waiting.get 0 = [(3, responseTo 8 .done none .empty false)]) ∧
    ∃ s : State, s.quiet ∧ (s.windows.get 0).writing = true ∧ (∀ k : NoticeKind, ¬ s.pendingOn 0 k) ∧
      s.works.port.waiting.get 0 = [] := by
  refine ⟨⟨rfl, rfl⟩, ⟨writing0 ((List.replicate 8 none).set (NoticeKind.sweepDone).index (some ⟨.empty, false⟩)) [], rfl, rfl, rfl, rfl,
    by decide, by decide, ?_⟩, ⟨writing0 (List.replicate 8 none) [(3, responseTo 8 .done none .empty false)], rfl, rfl, rfl, ?_, rfl⟩,
    writing0 (List.replicate 8 none) [], rfl, rfl, ?_, rfl⟩
  · intro j h; cases j <;> first | (exact absurd h (by decide)) | (intro hp; exact absurd hp.1 (by decide))
  · intro k hp; cases k <;> exact absurd hp.1 (by decide)
  · intro k hp; cases k <;> exact absurd hp.1 (by decide)

theorem witness_HostAccessFailureStopsItsChannelAlone :
    (has idle).quiet ∧ ((has idle).windows.get 0).state = .active ∧ ((has idle).windows.get 0).fetching = false ∧
      (State.reset.windows.get 0).state ≠ .active ∧
    ∃ s : State, s.quiet ∧ (s.windows.get 0).state = .active ∧ ∃ r ∈ s.works.port.reqs, r.ch = 0 ∧ r.phase ≠ .ended ∧
      ∃ b ∈ s.works.port.writes, b.ch = 0 ∧ b.req = r.id :=
  ⟨rfl, rfl, rfl, by decide,
    has { idle with port := { Port.initial with reqs := [taken1], writes := [⟨1, 0, 4096, [1], .empty⟩] } }, rfl, rfl, _,
    List.mem_singleton.mpr rfl, rfl, by decide, _, List.mem_singleton.mpr rfl, rfl, rfl⟩

/-! ## Witnesses: reports, settings and start-up -/

theorem witness_ReportStandsInItsBufferBeforeTheAnswer :
    ((has idle).quiet ∧ ∀ b ∈ (has idle).works.port.writes, b.ch ≠ 0) ∧
    ∃ (s : State) (b : BufWrite) (r : Req), s.quiet ∧ s.works.port.writes.find? (fun b => decide (b.ch = 0)) = some b ∧
      s.works.req b.req = some r ∧ r.discarded = false ∧ (s.works.port.out.get r.ch).length < 64 :=
  ⟨⟨rfl, by decide⟩,
    has { idle with port := { Port.initial with reqs := [taken1], writes := [⟨1, 0, 4096, [1, 2], .empty⟩] } },
    ⟨1, 0, 4096, [1, 2], .empty⟩, taken1, rfl, by decide, by decide, rfl, by decide⟩

theorem witness_ReportsAreWrittenWholeOrRefused :
    (∃ (s : State) (r : Req), s.quiet ∧ s.offers 0 .port r ∧ r.request = .status ∧ r.addr ≠ 0 ∧ r.length = 1152) ∧
    (∃ (s : State) (r : Req), s.quiet ∧ s.offers 0 .port r ∧ r.request = .status ∧ r.length < 1152) ∧
    (∃ (s : State) (r : Req) (e : DayEntry), s.quiet ∧ s.offers 0 .catalogue r ∧ r.request = .dayState 9000 ∧ r.addr ≠ 0 ∧ r.length = 760 ∧ s.works.day 9000 = some e) ∧
    (∃ (s : State) (r : Req), s.quiet ∧ s.offers 0 .catalogue r ∧ r.request = .dayState 9000 ∧ r.addr ≠ 0 ∧ 760 ≤ r.length ∧ s.works.day 9000 = none) ∧
    (∃ (s : State) (r : Req), s.quiet ∧ s.offers 0 .catalogue r ∧ r.request = .dayState 9000 ∧ r.addr = 0) ∧
    (∃ (s : State) (r : Req) (p : Nat × File), s.quiet ∧ s.offers 0 .intake r ∧ r.request = .fileState 5 77 ∧ r.addr ≠ 0 ∧ r.length = 248 ∧
      s.works.intake.find 5 77 = some p) ∧
    (∃ (s : State) (r : Req), s.quiet ∧ s.offers 0 .intake r ∧ r.request = .fileState 5 77 ∧ r.addr ≠ 0 ∧ 248 ≤ r.length ∧
      s.works.intake.find 5 77 = none) ∧
    ∃ (s : State) (r : Req), s.quiet ∧ s.offers 0 .intake r ∧ r.request = .fileState 5 77 ∧ r.length < 248 :=
  ⟨⟨asksAt idle .status 64 1152, _, rfl, offAt idle .status 64 1152 (by decide), rfl, by decide, rfl⟩,
    ⟨asksAt idle .status 64 1151, _, rfl, offAt idle .status 64 1151 (by decide), rfl, by decide⟩,
    ⟨asksAt (withDay 9000 (.new .opened)) (.dayState 9000) 64 760, _, _, rfl,
      offAt (withDay 9000 (.new .opened)) (.dayState 9000) 64 760 (by decide), rfl, by decide, rfl, rfl⟩,
    ⟨asksAt idle (.dayState 9000) 64 760, _, rfl, offAt idle (.dayState 9000) 64 760 (by decide), rfl, by decide, by decide, rfl⟩,
    ⟨asksAt idle (.dayState 9000) 0 760, _, rfl, offAt idle (.dayState 9000) 0 760 (by decide), rfl, rfl⟩,
    ⟨asksAt (withFile (file0 .receiving)) (.fileState 5 77) 64 248, _, (0, file0 .receiving), rfl,
      offAt (withFile (file0 .receiving)) (.fileState 5 77) 64 248 (by decide), rfl, by decide, rfl, by decide⟩,
    ⟨asksAt idle (.fileState 5 77) 64 248, _, rfl, offAt idle (.fileState 5 77) 64 248 (by decide), rfl, by decide, by decide, rfl⟩,
    asksAt idle (.fileState 5 77) 64 247, _, rfl, offAt idle (.fileState 5 77) 64 247 (by decide), rfl, by decide⟩

/-- A media channel of a settings block. -/
def rawMedia : RawMedia := ⟨4, 0, 10, 20, 600, 90, 4000⟩

/-- A settings block with every row in range. -/
def block0 : RawSettings :=
  { epoch := ⟨2000, 1, 1⟩, today := 9000, closeLag := 2, preference := 0, media := .all rawMedia, stall := 30, merge := 60, hold := 2,
    idle := 300, scrub := 50, routes := List.replicate 8 0, watermarks := .all 8,
    classes := List.replicate 16 ⟨0, 0, 1, 0⟩, policies := List.replicate 8 ⟨18, 7, 0⟩ }

theorem witness_TuneChangesOnlyTheRowsPresent :
    (∃ (s : State) (r : Req), s.offers 0 .port r ∧ r.request = .tune 511 block0 ∧ s.quiet ∧
      ∀ i < 9, tunes 511 i = true → block0.rowValid i = true) ∧
    (∃ (s : State) (r : Req), s.offers 0 .port r ∧ r.request = .tune 16 block0 ∧ s.quiet ∧ (∀ i < 9, tunes 16 i = true → block0.rowValid i = true) ∧
      ∀ i < 9, tunes 16 i = true → i = 4 ∨ i = 8) ∧
    ∃ (s : State) (r : Req), s.offers 0 .port r ∧ r.request = .tune 1 { block0 with stall := 256 } ∧ s.quiet ∧ tunes 1 0 = true ∧
      ({ block0 with stall := 256 } : RawSettings).rowValid 0 = false ∧
      ∀ j < 0, tunes 1 j = true → ({ block0 with stall := 256 } : RawSettings).rowValid j = true :=
  ⟨⟨asks idle (.tune 511 block0), _, off idle (.tune 511 block0) (by decide), rfl, rfl, by decide⟩,
    ⟨asks idle (.tune 16 block0), _, off idle (.tune 16 block0) (by decide), rfl, rfl, by decide, by decide⟩,
    asks idle (.tune 1 { block0 with stall := 256 }), _, off idle (.tune 1 { block0 with stall := 256 }) (by decide), rfl, rfl, by decide,
    by decide, by intro j h; exact absurd h (Nat.not_lt_zero j)⟩

theorem witness_ConfigureStartsTheRebuild :
    (∃ (s : State) (r : Req), s.offers 0 .startUp r ∧ r.request = .configure block0 ∧ s.quiet ∧ s.works.part ≠ .starting) ∧
    (∃ (s : State) (r : Req), s.offers 0 .startUp r ∧ r.request = .configure { block0 with closeLag := 8 } ∧ s.quiet ∧ s.works.part = .starting ∧
      ∃ i < 8, ({ block0 with closeLag := 8 } : RawSettings).configureRow i = false) ∧
    ∃ (s : State) (r : Req), s.offers 0 .startUp r ∧ r.request = .configure block0 ∧ s.quiet ∧ s.works.part = .starting ∧
      ∀ i < 8, block0.configureRow i = true :=
  ⟨⟨asks idle (.configure block0), _, off idle (.configure block0) (by decide), rfl, rfl, by decide⟩,
    ⟨asks Works.initial (.configure { block0 with closeLag := 8 }), _,
      off Works.initial (.configure { block0 with closeLag := 8 }) (by decide), rfl, rfl, rfl, by decide⟩,
    asks Works.initial (.configure block0), _, off Works.initial (.configure block0) (by decide), rfl, rfl, rfl, by decide⟩

/-- An ARCHIVE RESET of channel 0 handed to its unit, with requests of channels 0 and 3 in progress and one place left on each. -/
def resetAmong : State :=
  has { busyWith (.clear 1) false with port := { Port.initial with
    reqs := [taken1, { taken1 with id := 2, ch := 3 }, { taken1 with id := 3, discarded := true }, ask .archiveReset,
      { taken1 with id := 4, ch := 3, phase := .handed }]
    out := .all (List.replicate 63 (responseTo 7 .done none .empty false)) } }

theorem witness_ArchiveResetBeginsTheRebuildAnew :
    ∃ (s : State) (r : Req), s.offers 0 .startUp r ∧ r.request = .archiveReset ∧ s.quiet ∧
      s.works.port.reqs.Pairwise (fun a b => a.id ≠ b.id) ∧ (∀ c : Fin 4, (s.works.port.out.get c).length = 63) ∧
      (s.works.chan 0).busy.isSome :=
  ⟨resetAmong, ask .archiveReset, ⟨by decide, by decide, rfl, rfl, by decide⟩, rfl, rfl, by decide, by decide, rfl⟩

theorem witness_RebuildScanReadsTheNextSlotOfEachChannel :
    (has idle).works.part ≠ .rebuilding ∧
    ∃ s : State, s.works.part = .rebuilding ∧ s.works.rebuild.resolved = false ∧ (s.works.rebuild.scans.get 0).reading = false ∧
      (s.works.rebuild.scans.get 0).next < 64 * (s.cfg.settings.media.get 0).extents ∧ (s.works.chan 0).online = true ∧
      (s.works.chan 0).queue.length < 512 :=
  ⟨by decide, has { idle with part := .rebuilding }, rfl, rfl, rfl, by decide, rfl, by decide⟩

/-! ## Witnesses: files and parcels -/

/-- OPEN FILE of source 5, file 77. -/
def open0 : Request := .openFile 5 77 0 0 0 .zero

/-- A File Table with no slot free, of ABANDONED files of source 6. -/
def fullFiles : Tbl File := (List.range 1024).map fun n => (n, ⟨6, n, .abandoned, none, 0, 0, none, none, ⟨0, 0, 0⟩, false, [], 0, []⟩)

theorem full_get (k : Nat) (l : List Nat) (f : Nat → File) (h : k ∈ l) : (tblGet k (l.map fun n => (n, f n))).isSome := by
  induction l with
  | nil => cases h
  | cons a l ih =>
    simp only [List.map_cons, tblGet]
    split
    · rfl
    · rename_i hne
      rcases List.mem_cons.mp h with h | h
      · exact absurd h.symm hne
      · exact ih h

theorem full_find (l : List Nat) (g : Nat → File) (h : ∀ n, (g n).source = 6) :
    ({ Intake.initial with files := l.map fun n => (n, g n) } : Intake).find 5 77 = none := by
  simp [Intake.find, h]

/-- The part with a File Table and one entry of day 9000, an OPEN FILE handed behind another request. -/
def opening (t : Tbl File) (quarantined : Bool) (q : Request) : State :=
  has { withDay 9000 (day0 .closed { entry0 with quarantined := quarantined }) with
    intake := { Intake.initial with files := t }, port := { Port.initial with reqs := [taken1, ask q] } }

/-- The premises that every OPEN FILE shares. -/
def Opens (q : Request) (s : State) : Prop := ∃ r, s.offers 0 .intake r ∧ r.request = q ∧ s.quiet ∧ taken1.id ≠ r.id

theorem opens (t : Tbl File) (quarantined : Bool) (q : Request) (h : q.owner = .intake) : Opens q (opening t quarantined q) := by
  refine ⟨ask q, ⟨?_, ?_, rfl, rfl, show (0 : Nat) < 64 by decide⟩, rfl, rfl, by simp [taken1, ask]⟩ <;>
    simp [opening, has, ask, taken1, Works.handed, Works.req, h]

/-- OPEN FILE of source 5, file 77, as a RESTORE of the sheet at key 10 of day 9000. -/
def restore0 : Request := .openFile 5 77 1 0 9000 (key0 10)

/-- The target that request names, as the file records it. -/
def target0 : Target := ⟨9000, 0, key0 10, key0 20, ⟨2, 120, 10⟩⟩

/-- Another file of source 5. -/
def other0 (st : FileState) (t : Option Target) : File := { file0 st with fileId := 78, target := t }

theorem full_opens (t : Tbl File) (h : ({ Intake.initial with files := t } : Intake).find 5 77 = none)
    (hf : ∀ k < 1024, (tblGet k t).isSome) : ∃ s : State, Opens open0 s ∧ s.works.intake.find 5 77 = none ∧
      ∀ k < 1024, (tblGet k s.works.intake.files).isSome :=
  ⟨opening t true open0, opens t true open0 rfl, h, hf⟩

theorem witness_NewFileOpensInTheLowestFreeSlot :
    (∃ s, Opens (.openFile 5 77 2 0 0 .zero) s) ∧ (∃ s, Opens (.openFile 4096 77 0 0 0 .zero) s) ∧
    (∃ s : State, Opens open0 s ∧ s.works.intake.find 5 77 = none ∧ tblGet 0 s.works.intake.files = none ∧
      ∀ p ∈ s.works.intake.files, p.1 ≠ 0 → p.2.source = 5 → p.2.state ≠ .receiving) ∧
    (∃ s : State, Opens open0 s ∧ s.works.intake.find 5 77 = none ∧ ∀ k < 1024, (tblGet k s.works.intake.files).isSome) ∧
    (∃ s : State, Opens (.openFile 5 77 1 0 9000 (key0 11)) s ∧ s.works.intake.find 5 77 = none ∧
      s.works.entryAt 9000 0 (key0 11) = none) ∧
    (∀ quarantined : Bool, ∃ (s : State) (e : Entry), Opens restore0 s ∧ s.works.intake.find 5 77 = none ∧
      s.works.entryAt 9000 0 (key0 10) = some e ∧ e.quarantined = quarantined ∧ target0.last = e.last ∧ target0.totals = e.totals) ∧
    (∀ st : FileState, st = .receiving ∨ st = .settling → ∃ s : State, Opens restore0 s ∧ s.works.intake.find 5 77 = none ∧
      ∃ p ∈ s.works.intake.files, p.2.state = st ∧ p.2.target = some target0) ∧
    (∀ (q : Request) (p : Option Parcel), q = open0 ∨ q = restore0 → ∃ (s : State) (g : File), Opens q s ∧
      s.works.intake.find 5 77 = none ∧ tblGet 0 s.works.intake.files = none ∧ tblGet 3 s.works.intake.files = some g ∧
      g.source = 5 ∧ g.state = .receiving ∧ g.parcel = p ∧ s.works.req 1 = some taken1 ∧ taken1.ch = 0 ∧ taken1.discarded = false ∧
      (s.works.port.out.get 0).length < 63 ∧
      ∀ p ∈ s.works.intake.files, p.1 ≠ 0 → p.2.source = 5 → p.2.state = .receiving → p.1 = 3) ∧
    (∀ (q : Request) (st : FileState) (t : Option Target) (p : Option Parcel) (n : Nat), q = open0 ∨ q = restore0 → ∃ (s : State) (f : File),
      Opens q s ∧ s.works.intake.find 5 77 = some (2, f) ∧ f.state = st ∧ f.target = t ∧ f.parcel = p ∧ f.outstanding = n ∧
      (∃ e, s.works.entryAt 9000 0 (key0 10) = some e ∧ e.quarantined = true) ∧
      ∀ p ∈ s.works.intake.files, p.1 ≠ 2 → p.2.source = f.source → p.2.state ≠ .receiving) ∧
    ∃ p : Parcel, p.req = 1 :=
  ⟨⟨_, opens [] true _ rfl⟩, ⟨_, opens [] true _ rfl⟩, ⟨_, opens [] true _ rfl, rfl, rfl, by decide⟩,
    full_opens fullFiles (full_find _ _ fun _ => rfl) fun k h => full_get k _ _ (List.mem_range.mpr h),
    ⟨_, opens [] true _ rfl, rfl, by decide⟩,
    fun quarantined => ⟨_, { entry0 with quarantined := quarantined }, opens [] quarantined _ rfl, rfl, rfl, rfl, rfl, rfl⟩,
    fun st _ => ⟨_, opens [(3, other0 st (some target0))] true _ rfl, rfl, _, List.mem_singleton.mpr rfl, rfl, rfl⟩,
    fun q p h => ⟨opening [(3, { other0 .receiving none with parcel := p })] true q, _, opens _ _ q (by rcases h with rfl | rfl <;> rfl),
      rfl, rfl, rfl, rfl, rfl, rfl, by simp [opening, has, Works.req, taken1], rfl, rfl, show (0 : Nat) < 63 by decide,
      by simp [opening, has]⟩,
    fun q st t p n h => ⟨opening [(2, { file0 st with target := t, parcel := p, outstanding := n })] true q, _,
      opens _ _ q (by rcases h with rfl | rfl <;> rfl), rfl, rfl, rfl, rfl, rfl, ⟨_, rfl, rfl⟩, by simp [opening, has]⟩,
    parcel0 [] 0, rfl⟩

/-- INGEST PARCEL number `n` of one record. -/
def ingest (n : Nat) : Request := .ingestParcel 5 77 n 0 4 [plain0 10]

theorem witness_ParcelIsTakenOnlyInOrder :
    (∃ (s : State) (r : Req), s.offers 0 .intake r ∧ r.request = ingest 0 ∧ s.quiet ∧ 1 ≤ [plain0 10].length ∧ r.listAddr = 0 ∧
      s.works.intake.find 5 77 = none) ∧
    (∃ (s : State) (r : Req) (f : File), s.offers 0 .intake r ∧ r.request = ingest 0 ∧ s.quiet ∧ s.works.intake.find 5 77 = some (0, f) ∧ f.state ≠ .receiving) ∧
    (∃ (s : State) (r : Req) (f : File), s.offers 0 .intake r ∧ r.request = ingest 0 ∧ s.quiet ∧ s.works.intake.find 5 77 = some (0, f) ∧ f.state = .receiving ∧
      f.parcel.isSome) ∧
    (∃ (s : State) (r : Req) (f : File), s.offers 0 .intake r ∧ r.request = ingest 1 ∧ s.quiet ∧ s.works.intake.find 5 77 = some (0, f) ∧ f.state = .receiving ∧
      f.parcel = none ∧ 1 ≠ f.nextSeq) ∧
    ∃ (s : State) (r : Req) (f : File), s.offers 0 .intake r ∧ r.request = ingest 0 ∧ s.quiet ∧ s.works.intake.find 5 77 = some (0, f) ∧ f.state = .receiving ∧
      f.parcel = none ∧ 0 = f.nextSeq ∧ 0 = f.resume :=
  ⟨⟨asks idle (ingest 0), _, off idle (ingest 0) (by decide), rfl, rfl, by decide, rfl, rfl⟩,
    ⟨asks (withFile (file0 .settling)) (ingest 0), _, _, off (withFile (file0 .settling)) (ingest 0) (by decide), rfl, rfl, rfl,
      by decide⟩,
    ⟨asks (withFile { file0 .receiving with parcel := some (parcel0 [] 0) }) (ingest 0), _, _,
      off (withFile { file0 .receiving with parcel := some (parcel0 [] 0) }) (ingest 0) (by decide), rfl, rfl, rfl, rfl, rfl⟩,
    ⟨asks (withFile (file0 .receiving)) (ingest 1), _, _, off (withFile (file0 .receiving)) (ingest 1) (by decide), rfl, rfl, rfl, rfl, rfl,
      by decide⟩,
    asks (withFile (file0 .receiving)) (ingest 0), _, _, off (withFile (file0 .receiving)) (ingest 0) (by decide), rfl, rfl, rfl, rfl, rfl,
    rfl, rfl⟩

/-- CLOSE FILE that declares no records. -/
def close0 : Request := .closeFile 5 77 ⟨0, 0, 0⟩

theorem witness_CloseFileComparesTheTotals :
    (∃ (s : State) (r : Req), s.offers 0 .intake r ∧ r.request = close0 ∧ s.quiet ∧ (s.works.port.out.get 0).length < 63 ∧
      s.works.intake.find 5 77 = none) ∧
    (∃ (s : State) (r : Req) (f : File), s.offers 0 .intake r ∧ r.request = close0 ∧ s.quiet ∧ s.works.intake.find 5 77 = some (0, f) ∧ f.state ≠ .receiving) ∧
    (∃ (s : State) (r : Req) (f : File), s.offers 0 .intake r ∧ r.request = close0 ∧ s.quiet ∧ s.works.intake.find 5 77 = some (0, f) ∧ f.state = .receiving ∧
      f.parcel.isSome) ∧
    (∃ (s : State) (r : Req) (f : File), s.offers 0 .intake r ∧ r.request = close0 ∧ s.quiet ∧ s.works.intake.find 5 77 = some (0, f) ∧ f.state = .receiving ∧
      f.parcel = none ∧ f.target = none ∧ f.saturated = false ∧ f.presented = ⟨0, 0, 0⟩ ∧ f.outstanding = 0 ∧
      s.cfg.settings.routes.getD 4 0 = 0 ∧ (s.windows.get 0).state = .active) ∧
    (∃ (s : State) (r : Req) (f : File), s.offers 0 .intake r ∧ r.request = close0 ∧ s.quiet ∧ s.works.intake.find 5 77 = some (0, f) ∧ f.state = .receiving ∧
      f.parcel = none ∧ f.target = none ∧ f.saturated = true) ∧
    (∃ (s : State) (r : Req) (f : File), s.offers 0 .intake r ∧ r.request = close0 ∧ s.quiet ∧ s.works.intake.find 5 77 = some (0, f) ∧ f.state = .receiving ∧
      f.parcel = none ∧ f.target = none ∧ f.saturated = false ∧ f.presented = ⟨0, 0, 0⟩ ∧ 0 < f.outstanding) ∧
    ∀ (quarantined : Bool) (l : List Rec), ∃ (s : State) (r : Req) (f : File) (t : Target) (e : Entry), s.offers 0 .intake r ∧
      r.request = close0 ∧ s.quiet ∧ (s.works.port.out.get 0).length < 63 ∧ s.works.intake.find 5 77 = some (0, f) ∧
      f.state = .receiving ∧ f.parcel = none ∧ f.target = some t ∧ f.saturated = false ∧ f.presented = ⟨0, 0, 0⟩ ∧
      s.works.entryAt t.day t.cls t.first = some e ∧ e.quarantined = quarantined ∧ f.restoreSet = l ∧
      (l = [call0 10, call0 20] → recTotals l = t.totals) ∧ (l = [] → recTotals l ≠ t.totals) :=
  ⟨⟨asks idle close0, _, off idle close0 (by decide), rfl, rfl, by decide, rfl⟩,
    ⟨asks (withFile (file0 .settling)) close0, _, _, off (withFile (file0 .settling)) close0 (by decide), rfl, rfl, rfl, by decide⟩,
    ⟨asks (withFile { file0 .receiving with parcel := some (parcel0 [] 0) }) close0, _, _,
      off (withFile { file0 .receiving with parcel := some (parcel0 [] 0) }) close0 (by decide), rfl, rfl, rfl, rfl, rfl⟩,
    ⟨asks (withFile (file0 .receiving)) close0, _, _, off (withFile (file0 .receiving)) close0 (by decide), rfl, rfl, rfl, rfl, rfl, rfl,
      rfl, rfl, rfl, rfl, rfl⟩,
    ⟨asks (withFile { file0 .receiving with saturated := true }) close0, _, _,
      off (withFile { file0 .receiving with saturated := true }) close0 (by decide), rfl, rfl, rfl, rfl, rfl, rfl, rfl⟩,
    ⟨asks (withFile { file0 .receiving with outstanding := 1 }) close0, _, _,
      off (withFile { file0 .receiving with outstanding := 1 }) close0 (by decide), rfl, rfl, rfl, rfl, rfl, rfl, rfl, rfl, by decide⟩,
    fun quarantined l =>
      let w : Works := { withFile { file0 .receiving with target := some target0, restoreSet := l, outstanding := l.length } with
        days := [(9000, day0 .closed { entry0 with quarantined := quarantined })] }
      ⟨asks w close0, _, _, target0, _, off w close0 (show (0 : Nat) < 64 by decide), rfl, rfl, show (0 : Nat) < 63 by decide, rfl, rfl, rfl,
        rfl, rfl, rfl, rfl, rfl, rfl, by rintro rfl; decide, by rintro rfl; decide⟩⟩

/-- ABANDON FILE of source 5, file 77. -/
def abandon0 : Request := .abandonFile 5 77

/-- A RECEIVING file whose parcel belongs to another request, with an ABANDON FILE handed. -/
def abandonParcel : State :=
  has { withFile { file0 .receiving with parcel := some (parcel0 [plain0 10] 0) } with
    port := { Port.initial with reqs := [taken1, ask abandon0] } }

theorem witness_AbandonFileEndsAReceivingFile :
    (∃ (s : State) (r : Req), s.offers 0 .intake r ∧ r.request = abandon0 ∧ s.quiet ∧ s.works.intake.find 5 77 = none) ∧
    (∃ (s : State) (r : Req) (f : File), s.offers 0 .intake r ∧ r.request = abandon0 ∧ s.quiet ∧ s.works.intake.find 5 77 = some (0, f) ∧ f.state = .settling) ∧
    (∃ (s : State) (r : Req) (f : File), s.offers 0 .intake r ∧ r.request = abandon0 ∧ s.quiet ∧ s.works.intake.find 5 77 = some (0, f) ∧ f.state = .abandoned) ∧
    (∃ (s : State) (r : Req) (f : File), s.offers 0 .intake r ∧ r.request = abandon0 ∧ s.quiet ∧ s.works.intake.find 5 77 = some (0, f) ∧ f.state = .receiving ∧
      tblGet 0 s.works.intake.files = some f ∧ f.parcel = none) ∧
    ∃ (s : State) (r : Req) (f : File) (p : Parcel) (q : Req), s.offers 0 .intake r ∧ r.request = abandon0 ∧ s.quiet ∧ s.works.intake.find 5 77 = some (0, f) ∧
      f.state = .receiving ∧ tblGet 0 s.works.intake.files = some f ∧ f.parcel = some p ∧ s.works.req p.req = some q ∧ q.id ≠ r.id ∧
      q.ch = 0 ∧ q.discarded = false ∧ (s.works.port.out.get 0).length < 63 :=
  ⟨⟨asks idle abandon0, _, off idle abandon0 (by decide), rfl, rfl, rfl⟩,
    ⟨asks (withFile (file0 .settling)) abandon0, _, _, off (withFile (file0 .settling)) abandon0 (by decide), rfl, rfl, rfl, rfl⟩,
    ⟨asks (withFile (file0 .abandoned)) abandon0, _, _, off (withFile (file0 .abandoned)) abandon0 (by decide), rfl, rfl, rfl, rfl⟩,
    ⟨asks (withFile (file0 .receiving)) abandon0, _, _, off (withFile (file0 .receiving)) abandon0 (by decide), rfl, rfl, rfl, rfl, rfl,
      rfl⟩,
    abandonParcel, ask abandon0, _, _, taken1, ⟨by decide, by decide, rfl, rfl, by decide⟩, rfl, rfl, rfl, rfl, rfl, rfl, by decide,
    by decide, rfl, rfl, by decide⟩

/-- FORGET FILE of source 5, file 77. -/
def forget0 : Request := .forgetFile 5 77

theorem witness_ForgetFileFreesTheSlot :
    (∃ (s : State) (r : Req), s.offers 0 .intake r ∧ r.request = forget0 ∧ s.quiet ∧ s.works.intake.find 5 77 = none) ∧
    (∃ (s : State) (r : Req) (f : File), s.offers 0 .intake r ∧ r.request = forget0 ∧ s.quiet ∧ s.works.intake.find 5 77 = some (0, f) ∧ f.state = .settling) ∧
    ∃ (s : State) (r : Req) (f : File), s.offers 0 .intake r ∧ r.request = forget0 ∧ s.quiet ∧ s.works.intake.find 5 77 = some (0, f) ∧ f.state ≠ .receiving ∧
      f.state ≠ .settling ∧ f.outstanding = 0 ∧
      ∀ p ∈ s.works.intake.files, p.2.source = 5 → p.2.fileId = 77 → p.1 = 0 :=
  ⟨⟨asks idle forget0, _, off idle forget0 (by decide), rfl, rfl, rfl⟩,
    ⟨asks (withFile (file0 .settling)) forget0, _, _, off (withFile (file0 .settling)) forget0 (by decide), rfl, rfl, rfl, rfl⟩,
    asks (withFile (file0 .reconciled)) forget0, _, _, off (withFile (file0 .reconciled)) forget0 (by decide), rfl, rfl, rfl, by decide,
    by decide, rfl, by decide⟩

/-! ## Witnesses: record intake -/

/-- The file of slot 0 with a parcel of request 1 in flight, and that request. -/
def intakeOf (w : Works) (f : File) : State :=
  has { w with intake := { w.intake with files := [(0, f)] }, port := { Port.initial with reqs := [taken1] } }

/-- A RECEIVING file whose parcel still holds some records. -/
def fileOf (l : List Plain) : File := { file0 .receiving with parcel := some (parcel0 l 4096) }

/-- The premises that every refused record shares. -/
def Refusable (s : State) (rec : Plain) : Prop :=
  ∃ (f : File) (p : Parcel) (q : Req), s.quiet ∧ s.cfg.today = some 9000 ∧ tblGet 0 s.works.intake.files = some f ∧ f.target = none ∧
    f.parcel = some p ∧ p.rest = [rec] ∧ s.works.intake.gateClosed = false ∧
    (∀ e, s.works.day (dayOf rec.start) = some e → e.going = false) ∧ s.works.req p.req = some q ∧ q.discarded = false ∧
    p.listAddr ≠ 0 ∧ (s.works.port.out.get q.ch).length < 64

theorem refusable (w : Works) (rec : Plain) (hq : w.tasks = []) (hg : w.intake.gateClosed = false)
    (hd : ∀ e, tblGet (dayOf rec.start) w.days = some e → e.going = false) : Refusable (intakeOf w (fileOf [rec])) rec :=
  ⟨fileOf [rec], parcel0 [rec] 4096, taken1, hq, rfl, rfl, rfl, rfl, rfl, hg, hd, by simp [intakeOf, has, Works.req, taken1, parcel0], rfl,
    by simp [parcel0], show (0 : Nat) < 64 by decide⟩

/-- A Day Table full of days other than 9000. -/
def fullDays : Tbl DayEntry := (List.range 4096).map fun n => (n, DayEntry.new .closed)

theorem full_days_length : fullDays.length = 4096 := by simp [fullDays]

theorem full_days_get : tblGet 9000 fullDays = none := by
  have h : ∀ l : List Nat, (∀ n ∈ l, n < 4096) → tblGet 9000 (l.map fun n => (n, DayEntry.new .closed)) = none := by
    intro l
    induction l with
    | nil => intro _; rfl
    | cons a l ih =>
      intro h
      have ha : a ≠ 9000 := by have := h a (by simp); omega
      simp only [List.map_cons, tblGet, ha, if_false]
      exact ih fun n hn => h n (by simp [hn])
  exact h _ fun n hn => List.mem_range.mp hn

theorem full_refusable (t : Tbl DayEntry) (h : tblGet 9000 t = none) (hl : 4096 ≤ t.length) :
    ∃ (s : State) (rec : Plain), Refusable s rec ∧ rec.malformed = false ∧ dayOf rec.start ≤ 9000 + 1 ∧
      due s.cfg.settings.epoch s.cfg.policies 9000 (dayOf rec.start) (classOf s.cfg.classes rec.account) = false ∧
      s.works.day (dayOf rec.start) = none ∧ 4096 ≤ s.works.days.length :=
  ⟨_, plain0 10, refusable { idle with days := t } _ rfl rfl
      (by intro e he; rw [show tblGet (dayOf (plain0 10).start) t = none from h] at he; cases he),
    by decide, by decide, show due cfg0.settings.epoch cfg0.policies 9000 9000 0 = false by decide, h, hl⟩

/-- Units that stage `call0 10` on an OPEN day. -/
def staged (e : DayEntry) : Works :=
  { withDay 9000 e with intake := { Intake.initial with staging := [(72000, [⟨call0 10, 0⟩])] } }

theorem witness_RecordIntakeRefusesByTheFirstFailingStep :
    (∃ (s : State) (rec : Plain), Refusable s rec ∧ rec.malformed = true) ∧
    (∃ (s : State) (rec : Plain), Refusable s rec ∧ rec.malformed = false ∧ 9000 + 1 < dayOf rec.start) ∧
    (∃ (s : State) (rec : Plain), Refusable s rec ∧ rec.malformed = false ∧ dayOf rec.start ≤ 9000 + 1 ∧
      due s.cfg.settings.epoch s.cfg.policies 9000 (dayOf rec.start) (classOf s.cfg.classes rec.account) = true ∧
      tblGet rec.account s.works.retention.holds = none) ∧
    (∃ (s : State) (rec : Plain), Refusable s rec ∧ rec.malformed = false ∧ dayOf rec.start ≤ 9000 + 1 ∧
      due s.cfg.settings.epoch s.cfg.policies 9000 (dayOf rec.start) (classOf s.cfg.classes rec.account) = false ∧
      s.works.day (dayOf rec.start) = none ∧ 4096 ≤ s.works.days.length) ∧
    (∃ (s : State) (rec : Plain) (twin : Rec) (e : DayEntry), Refusable s rec ∧ s.works.day (dayOf rec.start) = some e ∧
      s.works.intake.twin (rec.held 0) = some twin ∧ rec.malformed = false ∧ dayOf rec.start ≤ 9000 + 1 ∧
      classOf s.cfg.classes rec.account = 0 ∧
      due s.cfg.settings.epoch s.cfg.policies 9000 (dayOf rec.start) 0 = false ∧ sameCall twin (rec.held 0) = true) ∧
    (∃ (s : State) (rec : Plain) (twin : Rec) (e : DayEntry), Refusable s rec ∧ s.works.day (dayOf rec.start) = some e ∧
      s.works.intake.twin (rec.held 0) = some twin ∧ rec.malformed = false ∧ dayOf rec.start ≤ 9000 + 1 ∧
      classOf s.cfg.classes rec.account = 0 ∧
      due s.cfg.settings.epoch s.cfg.policies 9000 (dayOf rec.start) 0 = false ∧ sameCall twin (rec.held 0) = false) ∧
    ∀ (list : Nat) (discarded : Bool) (rest : List Plain), ∃ (s : State) (f : File) (p : Parcel) (q : Req), s.quiet ∧
      s.cfg.today = some 9000 ∧ tblGet 0 s.works.intake.files = some f ∧ f.target = none ∧ f.parcel = some p ∧
      p.rest = plain0 0 :: rest ∧ p.listAddr = list ∧ s.works.intake.gateClosed = false ∧ s.works.days = [] ∧
      s.works.req p.req = some q ∧ q.discarded = discarded ∧ (s.works.port.out.get q.ch).length < 64 ∧
      f.resume + (p.consumed + 1) < 2 ^ 32 :=
  ⟨⟨_, plain0 0, refusable idle _ rfl rfl (by intro e h; cases h), by decide⟩,
    ⟨_, { plain0 10 with start := 777772800 }, refusable idle _ rfl rfl (by intro e h; cases h), by decide, by decide⟩,
    ⟨_, { plain0 10 with start := 725760000 }, refusable idle _ rfl rfl (by intro e h; cases h), by decide, by decide, by decide, rfl⟩,
    full_refusable fullDays full_days_get full_days_length.ge,
    ⟨_, plain0 10, call0 10, .new .opened, refusable (staged (.new .opened)) _ rfl rfl (by intro e h; cases h; rfl), rfl, by decide, by decide,
      by decide, by decide, by decide, by decide⟩,
    ⟨_, { plain0 10 with dur := 61 }, call0 10, .new .opened, refusable (staged (.new .opened)) _ rfl rfl (by intro e h; cases h; rfl), rfl,
      by decide, by decide, by decide, by decide, by decide, by decide⟩,
    fun list discarded rest =>
      ⟨has { idle with
          intake := { Intake.initial with files := [(0, { file0 .receiving with parcel := some (parcel0 (plain0 0 :: rest) list) })] }
          port := { Port.initial with reqs := [{ taken1 with discarded := discarded }] } },
        _, parcel0 (plain0 0 :: rest) list, { taken1 with discarded := discarded }, rfl, rfl, rfl, rfl, rfl, rfl, rfl, rfl, rfl,
        by simp [has, Works.req, taken1, parcel0], rfl, show (0 : Nat) < 64 by decide, show 0 + (0 + 1) < 2 ^ 32 by decide⟩⟩

/-- A record of day 8990. -/
def plainOld : Plain := { plain0 10 with start := 776736100 }

theorem timely0 : due cfg0.settings.epoch cfg0.policies 9000 (dayOf (plain0 10).start) 0 = false ∧
    classOf cfg0.classes (plain0 10).account = 0 := by decide

theorem witness_AcceptedRecordIsStagedOrLate :
    (∀ (w : Works) (rest : List Plain), w = withDay 9000 (.new .opened) ∨ w = idle ∨ w = withDay 9000 (.new .closed) →
    let s := intakeOf w (fileOf (plain0 10 :: rest))
    s.quiet ∧ s.cfg.today = some 9000 ∧ tblGet 0 s.works.intake.files = some (fileOf (plain0 10 :: rest)) ∧
      (fileOf (plain0 10 :: rest)).target = none ∧ s.works.intake.gateClosed = false ∧ (plain0 10).malformed = false ∧
      dayOf (plain0 10).start ≤ 9000 + 1 ∧ due s.cfg.settings.epoch s.cfg.policies 9000 (dayOf (plain0 10).start) 0 = false ∧
      classOf s.cfg.classes (plain0 10).account = 0 ∧ s.works.intake.twin (call0 10) = none ∧
      (w = withDay 9000 (.new .opened) → s.works.day (dayOf (plain0 10).start) = some (.new .opened)) ∧
      (w = idle → s.works.day (dayOf (plain0 10).start) = none ∧ s.works.days.length < 4096 ∧
        9000 ≤ dayOf (plain0 10).start + s.cfg.settings.closeLag) ∧
      (w = withDay 9000 (.new .closed) → s.works.day (dayOf (plain0 10).start) = some (.new .closed))) ∧
    ∀ discarded : Bool, ∃ (s : State) (f : File) (p : Parcel) (q : Req), s.quiet ∧ s.cfg.today = some 9000 ∧
      tblGet 0 s.works.intake.files = some f ∧ f.target = none ∧ f.parcel = some p ∧ p.rest = [plainOld] ∧
      s.works.intake.gateClosed = false ∧ plainOld.malformed = false ∧ dayOf plainOld.start = 8990 ∧
      due s.cfg.settings.epoch s.cfg.policies 9000 8990 (classOf s.cfg.classes plainOld.account) = false ∧
      s.works.intake.twin (plainOld.held (classOf s.cfg.classes plainOld.account)) = none ∧ s.works.day 8990 = none ∧
      s.works.days.length < 4096 ∧ 8990 + s.cfg.settings.closeLag < 9000 ∧ s.works.req p.req = some q ∧ q.discarded = discarded ∧
      (s.works.port.out.get q.ch).length < 64 ∧ f.resume + (p.consumed + 1) < 2 ^ 32 := by
  refine ⟨?_, fun discarded =>
    ⟨has { idle with
        intake := { Intake.initial with files := [(0, fileOf [plainOld])] }
        port := { Port.initial with reqs := [{ taken1 with discarded := discarded }] } },
      _, parcel0 [plainOld] 4096, { taken1 with discarded := discarded }, rfl, rfl, rfl, rfl, rfl, rfl, rfl, by decide, by decide,
      show due cfg0.settings.epoch cfg0.policies 9000 8990 0 = false by decide, rfl, rfl, show (0 : Nat) < 4096 by decide,
      show 8990 + cfg0.settings.closeLag < 9000 by decide, by simp [has, Works.req, taken1, parcel0], rfl, show (0 : Nat) < 64 by decide,
      show 0 + (0 + 1) < 2 ^ 32 by decide⟩⟩
  rintro w rest (rfl | rfl | rfl)
  · exact ⟨rfl, rfl, rfl, rfl, rfl, by decide, by decide, timely0.1, timely0.2, rfl, fun _ => rfl, fun h => (by cases h), fun h => (by cases h)⟩
  · exact ⟨rfl, rfl, rfl, rfl, rfl, by decide, by decide, timely0.1, timely0.2, rfl, fun h => (by cases h),
      fun _ => ⟨rfl, show (0 : Nat) < 4096 by decide, show 9000 ≤ 9000 + cfg0.settings.closeLag by decide⟩, fun h => (by cases h)⟩
  · exact ⟨rfl, rfl, rfl, rfl, rfl, by decide, by decide, timely0.1, timely0.2, rfl, fun h => (by cases h), fun h => (by cases h), fun _ => rfl⟩

theorem witness_ParcelHeldBackWaitsFromItsFirstHindrance :
    (∃ (s : State) (f : File) (p : Parcel), s.quiet ∧ tblGet 0 s.works.intake.files = some f ∧ f.target = none ∧ f.parcel = some p ∧
      p.rest = [plain0 10] ∧ s.works.intake.gateClosed = true) ∧
    (∃ (s : State) (f : File) (p : Parcel) (e : DayEntry), s.quiet ∧ tblGet 0 s.works.intake.files = some f ∧ f.target = none ∧
      f.parcel = some p ∧ p.rest = [plain0 10] ∧ s.works.intake.gateClosed = false ∧
      s.works.day (dayOf (plain0 10).start) = some e ∧ e.going = true) ∧
    ((has idle).quiet ∧ tblGet 0 (has idle).works.intake.files = none) ∧
    ∃ (s : State) (f : File) (p : Parcel) (q : Req), s.quiet ∧ tblGet 0 s.works.intake.files = some f ∧ f.parcel = some p ∧
      p.wait = some (0, .gate) ∧ s.works.req p.req = some q ∧ q.discarded = false ∧ (s.works.port.out.get q.ch).length < 64 ∧
      f.resume + p.consumed < 2 ^ 32 :=
  ⟨⟨intakeOf { idle with intake := { Intake.initial with lateFull := true } } (fileOf [plain0 10]), _, _, rfl, rfl, rfl, rfl, rfl, rfl⟩,
    ⟨intakeOf (withDay 9000 { DayEntry.new .closed with going := true }) (fileOf [plain0 10]), _, _, _, rfl, rfl, rfl, rfl, rfl, rfl, rfl,
      rfl⟩,
    ⟨rfl, rfl⟩,
    intakeOf idle { file0 .receiving with parcel := some { parcel0 [plain0 10] 0 with wait := some (0, .gate) } }, _, _, taken1, rfl, rfl,
    rfl, rfl, by decide, rfl, by decide, by decide⟩

/-- A RESTORE file of accounts 10 to 20 of day 9000. -/
def restoring (l : List Plain) : File :=
  { file0 .receiving with target := some ⟨9000, 0, key0 10, key0 20, ⟨2, 120, 10⟩⟩, parcel := some (parcel0 l 0) }

theorem witness_RestoredRecordJoinsTheRestoreSet :
    ∀ (rest : List Plain) (discarded : Bool), (∃ (s : State) (f : File) (g : Target) (p : Parcel) (q : Req), s.quiet ∧
      tblGet 0 s.works.intake.files = some f ∧ f.target = some g ∧
      f.parcel = some p ∧ p.rest = plain0 10 :: rest ∧ p.listAddr = 0 ∧ (plain0 10).malformed = false ∧
      dayOf (plain0 10).start = g.day ∧ ((plain0 10).held g.cls).key.lt g.first = false ∧
      g.last.lt ((plain0 10).held g.cls).key = false ∧ f.restoreSet.length < 512 ∧
      (∀ r ∈ f.restoreSet, r.identity ≠ ((plain0 10).held g.cls).identity) ∧ s.works.req p.req = some q ∧ q.discarded = discarded ∧
      (s.works.port.out.get q.ch).length < 64 ∧ f.resume + (p.consumed + 1) < 2 ^ 32) ∧
    ∃ (s : State) (f : File) (g : Target) (p : Parcel), s.quiet ∧ tblGet 0 s.works.intake.files = some f ∧ f.target = some g ∧
      f.parcel = some p ∧ p.rest = plain0 21 :: rest ∧ p.listAddr = 0 ∧ (plain0 21).malformed = false ∧
      g.last.lt ((plain0 21).held g.cls).key = true :=
  fun rest discarded =>
  ⟨⟨has { idle with
        intake := { Intake.initial with files := [(0, restoring (plain0 10 :: rest))] }
        port := { Port.initial with reqs := [{ taken1 with discarded := discarded }] } },
      _, _, parcel0 (plain0 10 :: rest) 0, { taken1 with discarded := discarded }, rfl, rfl, rfl, rfl, rfl, rfl, by decide, by decide,
      by decide, by decide, show (0 : Nat) < 512 by decide, fun r h => (by cases h), by simp [has, Works.req, taken1, parcel0], rfl,
      show (0 : Nat) < 64 by decide, show 0 + (0 + 1) < 2 ^ 32 by decide⟩,
    intakeOf idle (restoring (plain0 21 :: rest)), _, _, _, rfl, rfl, rfl, rfl, rfl, rfl, by decide, by decide⟩

/-! ## Witnesses: the catalogue and the Packer -/

theorem witness_CloseDayBeginsClosing :
    (∃ (s : State) (r : Req), s.offers 0 .catalogue r ∧ r.request = .closeDay 9000 ∧ s.quiet ∧ s.works.day 9000 = none) ∧
    (∃ (s : State) (r : Req) (e : DayEntry), s.offers 0 .catalogue r ∧ r.request = .closeDay 9000 ∧ s.quiet ∧
      s.works.day 9000 = some e ∧ e.state ≠ .opened) ∧
    (∃ (s : State) (r : Req) (e : DayEntry), s.offers 0 .catalogue r ∧ r.request = .closeDay 9000 ∧ s.quiet ∧
      s.works.day 9000 = some e ∧ e.state = .opened ∧
      (List.range 8).filter (fun c => decide (s.works.intake.set 9000 c ≠ [])) ≠ []) ∧
    ∃ (s : State) (r : Req) (e : DayEntry), s.offers 0 .catalogue r ∧ r.request = .closeDay 9000 ∧ s.quiet ∧
      s.works.day 9000 = some e ∧ e.state = .opened ∧
      (List.range 8).filter (fun c => decide (s.works.intake.set 9000 c ≠ [])) = [] :=
  ⟨⟨asks idle (.closeDay 9000), _, off idle (.closeDay 9000) (by decide), rfl, rfl, rfl⟩,
    ⟨asks (withDay 9000 (.new .closed)) (.closeDay 9000), _, _, off (withDay 9000 (.new .closed)) (.closeDay 9000) (by decide), rfl, rfl,
      rfl, by decide⟩,
    ⟨asks (staged (.new .opened)) (.closeDay 9000), _, _, off (staged (.new .opened)) (.closeDay 9000) (by decide), rfl, rfl, rfl, rfl,
      by decide⟩,
    asks (withDay 9000 (.new .opened)) (.closeDay 9000), _, _, off (withDay 9000 (.new .opened)) (.closeDay 9000) (by decide), rfl, rfl, rfl,
    rfl, by decide⟩

/-- The units with an OPEN day 8990 and holds on accounts 10 (one dispute, regulatory to 9001), 11 (to 9031) and 12 (to 9032). -/
def held0 : Works :=
  { withDay 8990 (.new .opened) with
    retention := { idle.retention with
      holds := [(10, ⟨1, some ⟨8000, some 9001⟩⟩), (11, ⟨0, some ⟨8000, some 9031⟩⟩), (12, ⟨0, some ⟨8000, some 9032⟩⟩)] } }

theorem witness_DayRollMovesTodayAndTheTables :
    (∃ (s : State) (r : Req), s.offers 0 .catalogue r ∧ r.request = .dayRoll 9000 ∧ s.quiet ∧ s.cfg.today = some 9000) ∧
    (∃ (s : State) (r : Req), s.offers 0 .catalogue r ∧ r.request = .dayRoll 9032 ∧ s.quiet ∧ s.cfg.today = some 9000 ∧
      9000 + 31 < 9032) ∧
    (∃ (s : State) (r : Req) (e f g : HoldEntry), s.offers 0 .catalogue r ∧ r.request = .dayRoll 9031 ∧ s.quiet ∧
      s.cfg.today = some 9000 ∧ 9000 < 9031 ∧ 9031 ≤ 9000 + 31 ∧
      (s.works.days.filter fun p => decide (p.2.state = .opened) && decide (p.1 + s.cfg.settings.closeLag < 9031)) ≠ [] ∧
      tblGet 10 s.works.retention.holds = some e ∧ e.expired 9031 = true ∧ 0 < e.disputes ∧
      tblGet 11 s.works.retention.holds = some f ∧ f.expired 9031 = true ∧ f.disputes = 0 ∧
      tblGet 12 s.works.retention.holds = some g ∧ g.expired 9031 = false ∧ s.works.retention.sweep = none) ∧
    ∃ (s : State) (r : Req) (v : Sweep), s.offers 0 .catalogue r ∧ r.request = .dayRoll 9031 ∧ s.quiet ∧ s.cfg.today = some 9000 ∧
      s.works.retention.sweep = some v :=
  ⟨⟨asks idle (.dayRoll 9000), _, off idle (.dayRoll 9000) (by decide), rfl, rfl, rfl⟩,
    ⟨asks idle (.dayRoll 9032), _, off idle (.dayRoll 9032) (by decide), rfl, rfl, rfl, by decide⟩,
    ⟨asks held0 (.dayRoll 9031), _, _, _, _, off held0 (.dayRoll 9031) (by decide), rfl, rfl, rfl, by decide, by decide, by decide, rfl,
      by decide, by decide, rfl, by decide, rfl, rfl, by decide, rfl⟩,
    asks { idle with retention := { idle.retention with sweep := some (.start 9000 []) } } (.dayRoll 9031), _, _,
    off { idle with retention := { idle.retention with sweep := some (.start 9000 []) } } (.dayRoll 9031) (by decide), rfl, rfl, rfl, rfl⟩

/-- A group of item 3 on day 9000 whose reads are answered. -/
def group0 : Group :=
  { id := 4, item := 3, day := 9000, number := 1, phase := .packing, claimed := [], reads := [], merging := [], heldBack := 0, todo := [],
    current := none, coalescing := none, packed := [], outputs := [], posted := 0, retiring := [], ranges := [], amounts := .zero }

/-- The units in which that group carries out some work. -/
def packing0 (k : Work) : Works :=
  { withDay 9000 (.new .closed) with
    intake := { Intake.initial with files := [(0, restoring [])] }
    packer := { Packer.initial with queue := [⟨3, 9000, k, [], true, none⟩], groups := [group0] } }

theorem witness_PackingFormsTheRecordSequences :
    ((has idle).quiet ∧ (has idle).works.packingGroup 9000 = none) ∧
    ∀ k : Work, k = .closeRun 0 ∨ k = .merge 0 ∨ k = .apply 0 [] ∨ k = .trim ⟨9000, 0, key0 10, 1⟩ [10] ∨ k = .retire [] ∨
        k = .restore 0 0 (key0 10) →
      ∃ (s : State) (e : DayEntry) (i : Item) (f : File), s.quiet ∧ s.works.packingGroup 9000 = some group0 ∧
        s.works.group group0.id = some group0 ∧ s.works.day 9000 = some e ∧ s.works.item group0.item = some i ∧ i.work = k ∧
        s.works.file 0 = some f := by
  refine ⟨⟨rfl, rfl⟩, ?_⟩
  rintro k (rfl | rfl | rfl | rfl | rfl | rfl) <;>
    exact ⟨has (packing0 _), _, ⟨3, 9000, _, [], true, none⟩, _, rfl, by decide, by decide, rfl, rfl, rfl, rfl⟩

/-- The units of a CLOSED day with one late record that arrived at time 0. -/
def late0 : Works :=
  { withDay 9000 (.new .closed) with intake := { Intake.initial with late := [⟨(call0 10).asLate, 0, 0⟩] } }

/-- The units with one item WAITING for a day of one entry, and pending entries. -/
def queued0 (k : Work) (pending : List PendingEntry) (x : Entry) : Works :=
  { withDay 9000 (day0 .closed x) with
    packer := { Packer.initial with queue := [⟨3, 9000, k, [], false, none⟩] }, amend := ⟨.all .empty, pending⟩ }

/-- A void of account 20's record of day 9000. -/
def apply0 : ApplyEntry := ⟨⟨9000, 20, 12, 3⟩, .void, 0, key0 20, 1, 0⟩

/-- A pending entry of the same record. -/
def pendingOf0 : PendingEntry := ⟨⟨9000, 20, 12, 3⟩, 1, 0, .void, 0, key0 20⟩

theorem witness_MergeDelayQueuesADueMerge :
    ((has idle).quiet ∧ (has idle).works.mergeExpiry (has idle).ctx 9000 0 = none) ∧
    (∃ (s : State) (t : Nat) (e : DayEntry), s.quiet ∧ s.works.mergeExpiry s.ctx 9000 0 = some t ∧ s.works.day 9000 = some e ∧
      e.state = .closed ∧ s.works.intake.lateOf 9000 0 ≠ [] ∧ s.works.packer.waitingMerge 9000 0 = none ∧
      s.works.packer.queue.length < 1024) ∧
    (∀ (inGroup : Bool) (groups : List Group) (wait : Option (Fin 4)), ∃ (w : Works) (i : Item), w.item 3 = some i ∧
      i.inGroup = inGroup ∧ w.packer.groups = groups ∧ i.channelWait = wait) ∧
    (∀ (k : Work) (pending : List PendingEntry) (x : Entry), ∃ (w : Works) (i : Item) (e : DayEntry), w.item 3 = some i ∧ i.inGroup = false ∧
      w.packer.groups = [] ∧ i.channelWait = none ∧ i.work = k ∧ i.day = 9000 ∧ w.day 9000 = some e ∧ e.inProgress = none ∧ e.owed = 0 ∧
      e.underAudit = false ∧ e.going = false ∧ w.amend.pending = pending ∧ e.runs = [⟨0, .live, [x]⟩] ∧
      (w.mergeable 9000 0).1 = []) ∧
    (queued0 (.apply 0 [apply0]) [] { entry0 with quarantined := true }).applyQuarantined 9000 0 [apply0] = some 0 ∧
    (queued0 (.trim (entry0.ref 9000 0) [10]) [pendingOf0] entry0).current (entry0.ref 9000 0) = some entry0 ∧
    (queued0 (.trim (entry0.ref 9000 0) [10]) [pendingOf0] entry0).pendingIn 9000 entry0.first entry0.last = true ∧
    (queued0 (.trim (entry0.ref 9000 0) [10]) [] { entry0 with busy := some .audit }).current (entry0.ref 9000 0) =
      some { entry0 with busy := some .audit } ∧
    (queued0 (.trim (entry0.ref 9000 0) [10]) [] entry0).pendingIn 9000 entry0.first entry0.last = false :=
  ⟨⟨rfl, by decide⟩, ⟨has late0, 60000, _, rfl, by decide, rfl, rfl, by decide, by decide, by decide⟩,
    fun inGroup groups wait => ⟨{ idle with packer := { Packer.initial with
      queue := [⟨3, 9000, .closeRun 0, [], inGroup, wait⟩], groups := groups } }, _, rfl, rfl, rfl, rfl⟩,
    fun k pending x => ⟨queued0 k pending x, _, _, rfl, rfl, rfl, rfl, rfl, rfl, rfl, rfl, rfl, rfl, rfl, rfl, rfl, rfl⟩,
    by decide, by decide, by decide, by decide, by decide⟩

/-! ## Witnesses: the archive array -/

/-- An image in the posting queue that writes slot 5 of channel 0. -/
def post0 : Post := ⟨2, [1, 2, 3], .data, .output 4 0, some ⟨0, 5⟩, false⟩

/-- The units while that image is programmed. -/
def posting0 (stray : Bool) : Works :=
  { busyWith (.program 2 5 [1, 2, 3]) stray with
    array := { (busyWith (.program 2 5 [1, 2, 3]) stray).array with posting := [post0] } }

theorem witness_ProgramEndMakesTheSlotLiveOrStale :
    (∃ (s : State) (o : Op), s.quiet ∧ (s.works.chan 0).busy = some o ∧ o.kind = .program 2 5 [1, 2, 3] ∧ o.stray = true) ∧
    (∃ (s : State) (o : Op) (p : Post), s.quiet ∧ (s.works.chan 0).busy = some o ∧ o.kind = .program 2 5 [1, 2, 3] ∧ o.stray = false ∧
      s.works.array.posting.find? (fun q => decide (q.id = 2)) = some p ∧ p.orphan = false ∧ s.works.array.offered = []) ∧
    ∀ k : Work, k = .closeRun 0 ∨ k = .merge 0 → ∃ (w : Works) (g : Group) (d : DayEntry) (i : Item), w.group 4 = some g ∧
      w.day g.day = some d ∧ w.item g.item = some i ∧ i.work = k ∧ d.conserved ∧
      indexTotals (d.reindex g).entries =
        (((((indexTotals d.entries).add g.amounts.packed).add g.amounts.inserted).add g.amounts.corr).sub g.amounts.voided).sub
          g.amounts.retired := by
  refine ⟨⟨has (posting0 true), _, rfl, rfl, rfl, rfl⟩, ⟨has (posting0 false), _, post0, rfl, rfl, rfl, rfl, by decide, rfl, rfl⟩, ?_⟩
  rintro k (rfl | rfl) <;>
    exact ⟨packing0 _, group0, .new .closed, ⟨3, 9000, _, [], true, none⟩, by decide, rfl, rfl, rfl, rfl, rfl⟩

/-- A relocation of media channel 1 whose copy of slot 70 programs slot 5 of channel 0, with the days given. -/
def copying (kind : SheetKind) (days : Tbl DayEntry) : Works :=
  let w := busyWith (.copy 5 [1, 2, 3] 1) false
  let c : MediaChan := { chan0 with
    relocation := some ⟨1, 6, [], some ⟨70, kind, some ⟨0, 5⟩, some [1, 2, 3]⟩, false⟩
    exts := [(1, ⟨.relocating, 0⟩)]
    slots := [(70, ⟨.live, kind⟩)] }
  { w with days := days, array := { w.array with chans := w.array.chans.set 1 c } }

/-- An entry whose sheet stands in slot 70 of media channel 1, claimed by its relocation. -/
def claimed0 : Entry := { entry0 with slot := ⟨1, 70⟩, busy := some .relocation }

theorem witness_ProgramEndMovesACopiedSheet :
    (∀ p : Bool, ∃ (s : State) (o : Op) (q : Post), s.quiet ∧ (s.works.chan 0).busy = some o ∧ o.kind = .program 2 5 [1, 2, 3] ∧
      o.stray = false ∧ s.works.array.posting.find? (fun q => decide (q.id = 2)) = some q ∧ s.works.array.offered = [] ∧ q.orphan = p) ∧
    ∀ (kind : SheetKind) (days : Tbl DayEntry),
      (days = [] ∨ days = [(9000, day0 .closed claimed0)] ∨ days = [(9000, { DayEntry.new .closed with summary := some ⟨1, 70⟩ })]) →
      ∃ (s : State) (o : Op) (r : Relocation) (cp : Copy), s.quiet ∧ (s.works.chan 0).busy = some o ∧ o.kind = .copy 5 [1, 2, 3] 1 ∧
        o.stray = false ∧ (s.works.chan 1).relocation = some r ∧ r.copy = some cp ∧ cp.new = some ⟨0, 5⟩ ∧ cp.old = 70 ∧ cp.kind = kind ∧
        s.works.entryOfSlot ⟨0, 5⟩ = none ∧ (s.works.slot ⟨1, 70⟩).map (fun i => i.state) = some .live ∧
        (days = [] → s.works.entryOfSlot ⟨1, 70⟩ = none ∧ s.works.named ⟨1, 70⟩ = false) ∧
        (days = [(9000, day0 .closed claimed0)] → s.works.entryOfSlot ⟨1, 70⟩ = some (9000, 0, claimed0) ∧
          s.works.entryAt 9000 0 claimed0.first = some claimed0 ∧ claimed0.busy = some .relocation) ∧
        (days = [(9000, { DayEntry.new .closed with summary := some ⟨1, 70⟩ })] → s.works.named ⟨1, 70⟩ = true) := by
  refine ⟨fun p => ⟨has { posting0 false with array := { (posting0 false).array with posting := [{ post0 with orphan := p }] } }, _, _, rfl,
    rfl, rfl, rfl, rfl, rfl, rfl⟩, ?_⟩
  intro kind days h
  refine ⟨has (copying kind days), _, _, _, rfl, rfl, rfl, rfl, rfl, rfl, rfl, rfl, rfl, ?_, rfl, ?_, ?_, ?_⟩
  · rcases h with rfl | rfl | rfl <;> rfl
  · rintro rfl; exact ⟨rfl, rfl⟩
  · rintro rfl; exact ⟨rfl, rfl, rfl⟩
  · rintro rfl; exact (by decide : ([(9000, { DayEntry.new .closed with summary := some ⟨1, 70⟩ })] : Tbl DayEntry).any (fun p =>
      decide (p.2.summary = some (⟨1, 70⟩ : SlotAddr)) || decide (p.2.goneSlot = some (⟨1, 70⟩ : SlotAddr))) = true) ▸ rfl

/-- A hold sheet of one entry, as its slot holds it. -/
def image0 : Bytes := holdImage ⟨1, 999, [(10, ⟨1, none⟩)]⟩ 1

theorem image0_reads : (readSheet image0).isSome := by decide

/-- A read of slot 5 of channel 0 in progress, with the slot holding what is given. -/
def readingSlot (who : List (Requester × Bool)) (again : Bool) (c : Cell) : State :=
  { has { busyWith (.read 5 who again) false with days := [(9000, day0 .closed entry0)] } with
    media := (State.reset.media).set 0 ⟨[(5, c)], []⟩ }

/-- Media channel 0 with a FOREGROUND read of slot 5 queued before others, and slot 5 as given. -/
def granting (others : List Op) (i : Option SlotInfo) : Works :=
  withChan { chan0 with queue := ⟨3, true, .read 5 [(.scrub, false)] false, false⟩ :: others, slots := (i.map fun v => (5, v)).toList }

theorem witness_MediaReadIsTestedAndRepeatedOnce :
    (∃ (s : State) (o : Op) (b : Bytes), s.quiet ∧ (s.works.chan 0).busy = some o ∧ o.kind = .read 5 [(.scrub, false)] false ∧
      o.stray = false ∧ readImage ((s.media.get 0).cell 5) .asStored = some b ∧ (readSheet b).isSome) ∧
    (∃ (s : State) (o : Op), s.quiet ∧ (s.works.chan 0).busy = some o ∧ o.kind = .read 5 [(.scrub, false)] false ∧ o.stray = false ∧
      readImage ((s.media.get 0).cell 5) .statusFailed = none) ∧
    (∃ (s : State) (o : Op) (e : Entry), s.quiet ∧ (s.works.chan 0).busy = some o ∧ o.kind = .read 5 [(.audit (entry0.ref 9000 0), false)] true ∧
      o.stray = false ∧ readImage ((s.media.get 0).cell 5) .statusFailed = none ∧ s.works.entryOfSlot ⟨0, 5⟩ = some (9000, 0, e) ∧
      s.works.current (e.ref 9000 0) = some e ∧ e.quarantined = false ∧ e.busy = none) ∧
    (∀ quarantined : Bool, ∃ (s : State) (o : Op), s.quiet ∧ (s.works.chan 0).busy = some o ∧ o.kind = .read 5 [(.scrub, false)] true ∧
      o.stray = false ∧ readImage ((s.media.get 0).cell 5) .statusFailed = none ∧
      (s.works.entryOfSlot ⟨0, 5⟩).any (fun t => t.2.2.quarantined) = quarantined) ∧
    (∃ (s : State) (o : Op), s.quiet ∧ (s.works.chan 0).busy = some o ∧ o.kind = .read 5 [(.rebuild, false)] false ∧ o.stray = false ∧
      (s.media.get 0).retired.contains (5 / 64) = false ∧ (s.media.get 0).cell 5 = ⟨none, false⟩) ∧
    (∃ (s : State) (o : Op), s.quiet ∧ (s.works.chan 0).busy = some o ∧ o.kind = .read 5 [(.rebuild, false)] false ∧ o.stray = false ∧
      (s.media.get 0).retired.contains (5 / 64) = false ∧ ((s.media.get 0).cell 5).voided = true) ∧
    (∃ (s : State) (o : Op), s.quiet ∧ (s.works.chan 0).busy = some o ∧ o.kind = .read 5 [(.rebuild, false)] false ∧ o.stray = false ∧
      (s.media.get 0).retired.contains (5 / 64) = false ∧ (s.media.get 0).cell 5 = ⟨some image0, false⟩ ∧ (readSheet image0).isSome) ∧
    (∃ (s : State) (o : Op), s.quiet ∧ (s.works.chan 0).busy = some o ∧ o.kind = .read 5 [(.rebuild, false)] false ∧ o.stray = false ∧
      (s.media.get 0).retired.contains (5 / 64) = true) ∧
    (∀ again : Bool, ∃ (s : State) (o : Op), s.quiet ∧ (s.works.chan 0).busy = some o ∧ o.kind = .read 5 [(.rebuild, false)] again ∧
      o.stray = false ∧ (s.media.get 0).retired.contains (5 / 64) = false ∧ (s.media.get 0).cell 5 = ⟨some [], false⟩ ∧
      readSheet [] = none) ∧
    (∀ others : List Op, others = [] ∨ others = [⟨4, false, .voidMark 8 [] false, false⟩] → ∃ (w : Works) (o : Op),
      (w.chan 0).online = true ∧ (w.chan 0).busy = none ∧ (w.chan 0).queue = o :: others ∧
      (w.chan 0).queue.Pairwise (fun a b => a.arrival ≠ b.arrival) ∧ o.foreground = true ∧
      (∀ p ∈ (w.chan 0).queue, p.foreground = true → p ≠ o → o.arrival < p.arrival) ∧ (w.chan 0).contest = 0) ∧
    ((granting [] none).chan 0).queue = [⟨3, true, .read 5 [(.scrub, false)] false, false⟩] ∧
    (∀ i, ((granting [] none).chan 0).slot 5 = some i → i.state ≠ .live ∧ i.state ≠ .writing) ∧
    ∃ i, ((granting [] (some ⟨.live, .data⟩)).chan 0).slot 5 = some i ∧ i.state = .live := by
  refine
  ⟨⟨readingSlot [(.scrub, false)] false ⟨some image0, false⟩, _, image0, rfl, rfl, rfl, rfl, rfl, image0_reads⟩,
    ⟨readingSlot [(.scrub, false)] false ⟨none, false⟩, _, rfl, rfl, rfl, rfl, rfl⟩,
    ⟨readingSlot [(.audit (entry0.ref 9000 0), false)] true ⟨none, false⟩, _, entry0, rfl, rfl, rfl, rfl, rfl, by decide, by decide, rfl,
      rfl⟩,
    fun quarantined => ⟨{ readingSlot [(.scrub, false)] true ⟨none, false⟩ with
        works := { busyWith (.read 5 [(.scrub, false)] true) false with
          days := [(9000, day0 .closed { entry0 with quarantined := quarantined })] } }, _, rfl, rfl, rfl, rfl, rfl, rfl⟩,
    ⟨readingSlot [(.rebuild, false)] false ⟨none, false⟩, _, rfl, rfl, rfl, rfl, rfl, rfl⟩,
    ⟨readingSlot [(.rebuild, false)] false ⟨none, true⟩, _, rfl, rfl, rfl, rfl, rfl, rfl⟩,
    ⟨readingSlot [(.rebuild, false)] false ⟨some image0, false⟩, _, rfl, rfl, rfl, rfl, rfl, rfl, image0_reads⟩,
    ⟨{ readingSlot [(.rebuild, false)] false ⟨none, false⟩ with media := (State.reset.media).set 0 ⟨[], [0]⟩ }, _, rfl, rfl, rfl, rfl, rfl⟩,
    fun again => ⟨readingSlot [(.rebuild, false)] again ⟨some [], false⟩, _, rfl, rfl, rfl, rfl, rfl, rfl, by decide⟩,
    ?_, rfl, by decide, _, rfl, rfl⟩
  rintro others (rfl | rfl) <;>
    exact ⟨granting _ none, ⟨3, true, .read 5 [(.scrub, false)] false, false⟩, rfl, rfl, rfl, by decide, rfl, by decide, rfl⟩

theorem witness_VoidMarkMakesTheSlotStale :
    (∀ again : Bool, ∃ (s : State) (o : Op), s.quiet ∧ (s.works.chan 0).busy = some o ∧ o.kind = .voidMark 5 [.day 9000] again ∧
      o.stray = false) ∧
    (∃ (w : Works) (i : SlotInfo), (w.chan 0).voidAsked 5 = false ∧ (w.chan 0).online = true ∧ w.slot ⟨0, 5⟩ = some i ∧ i.state = .live ∧
      (w.chan 0).queue.length < 512) ∧
    (∀ (summary gone : Option SlotAddr) (n : Nat), ∃ (w : Works) (e : DayEntry), w.day 9000 = some e ∧ e.summary = summary ∧
      e.goneSlot = gone ∧ e.owed = n) ∧
    ∃ (w : Works) (f : File) (p : Parcel), w.day 9000 = none ∧ w.intake.gateClosed = false ∧ tblGet 0 w.intake.files = some f ∧
      f.parcel = some p ∧ p.wait = some (0, .going 9000) ∧ p.rest = [plain0 10] ∧ dayOf (plain0 10).start = 9000 :=
  ⟨fun again => ⟨has (busyWith (.voidMark 5 [.day 9000] again) false), _, rfl, rfl, rfl, rfl⟩,
    ⟨granting [] (some ⟨.live, .data⟩), _, by decide, rfl, rfl, rfl, by decide⟩,
    fun summary gone n => ⟨withDay 9000 { DayEntry.new .closed with summary := summary, goneSlot := gone, owed := n }, _, rfl, rfl, rfl, rfl⟩,
    withFile { file0 .receiving with parcel := some { parcel0 [plain0 10] 0 with wait := some (0, .going 9000) } }, _, _, rfl, rfl, rfl, rfl,
    rfl, rfl, by decide⟩

theorem witness_ClearedExtentIsClearAndAFailedOneIsRetired :
    (∀ (r : Option Relocation) (queue : List Op), ∃ (s : State) (o : Op), s.quiet ∧ (s.works.chan 0).busy = some o ∧ o.stray = false ∧
      tblSorted (s.works.chan 0).exts = true ∧ o.kind = .clear 1 ∧ (s.works.chan 0).relocation = r ∧
      (s.works.chan 0).queue = queue) ∧
    ∀ again : Bool, ∃ (s : State) (o : Op), s.quiet ∧ (s.works.chan 0).busy = some o ∧ o.stray = false ∧
      tblSorted (s.works.chan 0).exts = true ∧ o.kind = .retireMark 1 again :=
  ⟨fun r queue => ⟨has (withChan { chan0 with busy := some ⟨0, true, .clear 1, false⟩, relocation := r, queue := queue }), _, rfl, rfl, rfl,
      rfl, rfl, rfl, rfl⟩,
    fun again => ⟨has (busyWith (.retireMark 1 again) false), _, rfl, rfl, rfl, rfl, rfl⟩⟩

theorem witness_ReadyTimeoutTakesTheChannelOffline :
    ((has idle).quiet ∧ ((has idle).works.chan 0).busy = none) ∧
    (∃ (s : State) (o : Op), s.quiet ∧ (s.works.chan 0).busy = some o ∧ (s.cfg.settings.media.get 0).sensing = .readyLine ∧
      (s.works.chan 0).slot 5 = some ⟨.writing, .data⟩ ∧ o.kind = .read 7 [(.scrub, false)] false ∧ o ∈ (s.works.chan 0).ops ∧
      o.stray = false) ∧
    ∃ (s : State) (o : Op) (g : Group) (d : DayEntry), s.quiet ∧ (s.works.chan 0).busy = some o ∧
      (s.cfg.settings.media.get 0).sensing = .readyLine ∧ post0 ∈ s.works.array.posting ∧ post0.slot = some ⟨0, 5⟩ ∧
      post0.orphan = false ∧ post0.poster.group = some 4 ∧ s.works.group 4 = some g ∧ s.works.day g.day = some d :=
  ⟨⟨rfl, rfl⟩,
    ⟨has (withChan { chan0 with busy := some ⟨0, true, .read 7 [(.scrub, false)] false, false⟩, slots := [(5, ⟨.writing, .data⟩)] }), _, rfl,
      rfl, rfl, rfl, rfl, by decide, rfl⟩,
    has { packing0 (.closeRun 0) with array := (posting0 false).array }, _, group0, .new .closed, rfl, rfl, rfl, by decide, rfl, rfl, rfl,
    by decide, rfl⟩

theorem witness_ProbesBringAChannelBack :
    ((has idle).quiet ∧ ((has idle).works.chan 0).online = true ∧ ((has idle).works.chan 0).probing = false) ∧
    (∃ s : State, s.quiet ∧ 0 < (s.cfg.settings.media.get 0).extents ∧ (s.works.chan 0).online = false ∧
      (s.works.chan 0).probing = false) ∧
    ∃ s : State, s.quiet ∧ (s.works.chan 0).probing = true ∧ (s.works.chan 0).queue = [] ∧
      (s.works.chan 0).owed.length + (s.works.chan 0).clearAgain.length + (s.works.chan 0).retireAgain.length = 3 :=
  ⟨⟨rfl, rfl, rfl⟩, ⟨has (withChan MediaChan.initial), rfl, by decide, rfl, rfl⟩,
    has (withChan { MediaChan.initial with probing := true, owed := [⟨5, [.day 9000], false⟩], clearAgain := [1], retireAgain := [2] }), rfl,
    rfl, rfl, rfl⟩

/-- Media channel 0 relocating extent 1 with one slot of it in some state. -/
def relocating (i : Option SlotInfo) : State :=
  has (withChan { chan0 with
    relocation := some ⟨1, 3, [], none, false⟩, exts := [(1, ⟨.relocating, 0⟩)], slots := (i.map fun v => (67, v)).toList })

/-- That relocation at a LIVE DATA slot that an entry of day 9000 names. -/
def moving (x : Entry) : State :=
  has { (relocating (some ⟨.live, .data⟩)).works with days := [(9000, day0 .closed { x with slot := ⟨0, 67⟩ })] }

theorem witness_RelocationWalkHandlesTheNextSlot :
    ((has idle).quiet ∧ ((has idle).works.chan 0).relocation = none) ∧
    (∃ (s : State) (r : Relocation), s.quiet ∧ (s.works.chan 0).relocation = some r ∧ r.copy = none ∧ r.paused = false ∧
      (s.works.chan 0).online = true ∧ r.next < 64 ∧ (s.works.chan 0).slot (64 * r.source + r.next) = none) ∧
    (∃ (s : State) (r : Relocation), s.quiet ∧ (s.works.chan 0).relocation = some r ∧ r.copy = none ∧ r.paused = false ∧
      (s.works.chan 0).online = true ∧ r.next < 64 ∧ (s.works.chan 0).slot (64 * r.source + r.next) = some ⟨.stale, .data⟩) ∧
    (∃ (s : State) (r : Relocation), s.quiet ∧ (s.works.chan 0).relocation = some r ∧ r.copy = none ∧ r.paused = false ∧
      (s.works.chan 0).online = true ∧ r.next < 64 ∧ (s.works.chan 0).slot (64 * r.source + r.next) = some ⟨.writing, .data⟩ ∧
      64 * r.source + r.next ∉ r.revisit) ∧
    (∃ (s : State) (r : Relocation), s.quiet ∧ (s.works.chan 0).relocation = some r ∧ r.copy = none ∧ r.paused = false ∧
      (s.works.chan 0).online = true ∧ r.next < 64 ∧ (s.works.chan 0).slot (64 * r.source + r.next) = some ⟨.live, .hold⟩ ∧
      (s.works.takeSlot s.ctx .hold).isSome) ∧
    (∃ (s : State) (r : Relocation), s.quiet ∧ (s.works.chan 0).relocation = some r ∧ r.copy = none ∧ r.paused = false ∧
      (s.works.chan 0).online = true ∧ r.next < 64 ∧ (s.works.chan 0).slot (64 * r.source + r.next) = some ⟨.live, .hold⟩ ∧
      s.works.takeSlot s.ctx .hold = none ∧ s.works.entryOfSlot ⟨0, 67⟩ = none) ∧
    (∃ (s : State) (r : Relocation), s.quiet ∧ (s.works.chan 0).relocation = some r ∧ r.copy = none ∧ r.paused = false ∧
      (s.works.chan 0).online = true ∧ r.next < 64 ∧ (s.works.chan 0).slot (64 * r.source + r.next) = some ⟨.live, .data⟩ ∧
      s.works.entryOfSlot ⟨0, 67⟩ = none) ∧
    (∀ (quarantined : Bool) (busy : Option Holder), ∃ (s : State) (r : Relocation) (e : Entry), s.quiet ∧
      (s.works.chan 0).relocation = some r ∧ r.copy = none ∧ r.paused = false ∧ (s.works.chan 0).online = true ∧ r.next < 64 ∧
      (s.works.chan 0).slot (64 * r.source + r.next) = some ⟨.live, .data⟩ ∧ s.works.entryOfSlot ⟨0, 67⟩ = some (9000, 0, e) ∧
      e.quarantined = quarantined ∧ e.busy = busy ∧ s.works.entryAt 9000 0 e.first = some e) ∧
    ((moving entry0).works.mapEntry 9000 0 entry0.first fun e => { e with busy := some .relocation }).takeSlot (moving entry0).ctx .data ≠
      none ∧
    ((moving entry0).works.mapEntry 9000 0 entry0.first fun e => { e with busy := some .relocation }).takeSlot
      ({ moving entry0 with cfg := Cfg.initial } : State).ctx .data = none ∧
    (0 < (has idle).works.clearTotal (has idle).ctx ∧ 256 < (has idle).works.clearTotal (has idle).ctx ∧
      ((has idle).works.takeSlot (has idle).ctx .data).isSome ∧ post0.slot.isSome ∧ { post0 with slot := none }.kind = .data ∧
      Works.initial.clearTotal (has idle).ctx ≤ 256) :=
  ⟨⟨rfl, rfl⟩, ⟨relocating none, _, rfl, rfl, rfl, rfl, rfl, by decide, rfl⟩,
    ⟨relocating (some ⟨.stale, .data⟩), _, rfl, rfl, rfl, rfl, rfl, by decide, rfl⟩,
    ⟨relocating (some ⟨.writing, .data⟩), _, rfl, rfl, rfl, rfl, rfl, by decide, rfl, by decide⟩,
    ⟨relocating (some ⟨.live, .hold⟩), _, rfl, rfl, rfl, rfl, rfl, by decide, rfl, by decide⟩,
    ⟨{ relocating (some ⟨.live, .hold⟩) with cfg := Cfg.initial }, _, rfl, rfl, rfl, rfl, rfl, by decide, rfl, by decide, rfl⟩,
    ⟨relocating (some ⟨.live, .data⟩), _, rfl, rfl, rfl, rfl, rfl, by decide, rfl, rfl⟩,
    fun quarantined busy => ⟨moving { entry0 with quarantined := quarantined, busy := busy }, _,
      { entry0 with quarantined := quarantined, busy := busy, slot := ⟨0, 67⟩ }, rfl, rfl, rfl, rfl, rfl, by decide, rfl, rfl, rfl, rfl, rfl⟩,
    by decide, by decide, by decide⟩

/-! ## Witnesses: enquiries and amendments -/

/-- The units with sixteen cursors as given. -/
def withCursors (w : Works) (c : Cursor) : Works := { w with enquiry := ⟨List.replicate 16 c, []⟩ }

/-- An OPEN cursor of generation 1 on account 10, day 9000. -/
def cursor0 : Cursor := { Cursor.free with opened := true, generation := 1, account := 10, fromDay := 9000, toDay := 9000 }

/-- A read of request 1 that asks for two items and has used none. -/
def read0 (mode : ReadMode) (wait : EnquiryWait) : Reading :=
  { req := 1, mode := mode, n := 2, used := 0, images := [], failed := [], gaps := [], search := ⟨.beforeFirst, false⟩, skip := false,
    advancing := false, heldPlace := none, wait := wait }

/-- OPEN CURSOR on account 10, day 9000. -/
def openCursor0 (vis : Nat) : Request := .openCursor 10 9000 9000 none vis

/-- LOOKUP CALL of a record of day 9000. -/
def lookup0 (vis : Nat) : Request := .lookupCall ⟨9000, 10, 12, 3⟩ vis

theorem witness_CursorsOpenAndLookupsBegin :
    (∃ (s : State) (r : Req), s.offers 0 .enquiry r ∧ s.quiet ∧ r.request = openCursor0 2) ∧
    (∃ (s : State) (r : Req), s.offers 0 .enquiry r ∧ s.quiet ∧ r.request = openCursor0 1 ∧ ∀ k < 16, (s.works.cursor k).opened = true) ∧
    (∃ (s : State) (r : Req), s.offers 0 .enquiry r ∧ s.quiet ∧ r.request = openCursor0 1 ∧ (s.works.cursor 0).opened = false ∧
      ∀ k < 0, (s.works.cursor k).opened = true) ∧
    (∃ (s : State) (r : Req), s.offers 0 .enquiry r ∧ s.quiet ∧ r.request = lookup0 0 ∧ r.addr ≠ 0 ∧ r.length = 64) ∧
    ∃ (s : State) (r : Req), s.offers 0 .enquiry r ∧ s.quiet ∧ r.request = lookup0 0 ∧ r.length = 63 :=
  ⟨⟨asks idle (openCursor0 2), _, off idle (openCursor0 2) (by decide), rfl, rfl⟩,
    ⟨asks (withCursors idle cursor0) (openCursor0 1), _, off (withCursors idle cursor0) (openCursor0 1) (by decide), rfl, rfl, by decide⟩,
    ⟨asks idle (openCursor0 1), _, off idle (openCursor0 1) (by decide), rfl, rfl, rfl, by decide⟩,
    ⟨asksAt idle (lookup0 0) 64 64, _, offAt idle (lookup0 0) 64 64 (by decide), rfl, rfl, by decide, rfl⟩,
    asksAt idle (lookup0 0) 64 63, _, offAt idle (lookup0 0) 64 63 (by decide), rfl, rfl, rfl⟩

theorem witness_ClosedAndIdleCursorsAreFree :
    (∃ (s : State) (r : Req), s.quiet ∧ s.offers 0 .enquiry r ∧ r.request = .closeCursor 16 1) ∧
    (∃ (s : State) (r : Req), s.quiet ∧ s.offers 0 .enquiry r ∧ r.request = .closeCursor 15 1 ∧ (s.works.cursor 15).opened = false) ∧
    (∃ (s : State) (r : Req), s.quiet ∧ s.offers 0 .enquiry r ∧ r.request = .closeCursor 15 1 ∧ (s.works.cursor 15).opened = true ∧
      (s.works.cursor 15).generation = 1 ∧ (s.works.cursor 15).reading.isSome) ∧
    (∃ (s : State) (r : Req), s.quiet ∧ s.offers 0 .enquiry r ∧ r.request = .closeCursor 15 1 ∧ (s.works.cursor 15).opened = true ∧
      (s.works.cursor 15).generation = 1 ∧ (s.works.cursor 15).reading = none ∧
      (s.works.cursor 15).prefetch = .ready (entry0.ref 9000 0) 6 0) ∧
    ((has idle).quiet ∧ ((has idle).works.cursor 15).opened = false) ∧
    ∃ s : State, s.quiet ∧ (s.works.cursor 15).opened = true ∧ (s.works.cursor 15).reading = none :=
  ⟨⟨asks idle (.closeCursor 16 1), _, rfl, off idle (.closeCursor 16 1) (by decide), rfl⟩,
    ⟨asks idle (.closeCursor 15 1), _, rfl, off idle (.closeCursor 15 1) (by decide), rfl, rfl⟩,
    ⟨asks (withCursors idle { cursor0 with reading := some (read0 .forward .none) }) (.closeCursor 15 1), _, rfl,
      off (withCursors idle { cursor0 with reading := some (read0 .forward .none) }) (.closeCursor 15 1) (by decide), rfl, rfl, rfl, rfl⟩,
    ⟨asks (withCursors idle { cursor0 with prefetch := .ready (entry0.ref 9000 0) 6 0 }) (.closeCursor 15 1), _, rfl,
      off (withCursors idle { cursor0 with prefetch := .ready (entry0.ref 9000 0) 6 0 }) (.closeCursor 15 1) (by decide), rfl, rfl, rfl, rfl,
      rfl⟩,
    ⟨rfl, rfl⟩, has (withCursors idle cursor0), rfl, rfl, rfl⟩

/-- READ CURSOR of cursor 15 for one item. -/
def readAsk (code : Nat) : Request := .readCursor 15 1 code 1 (-1)

theorem witness_ReadCursorIsTakenInItsMode :
    (∃ (s : State) (r : Req), s.offers 0 .enquiry r ∧ r.request = readAsk 4 ∧ s.quiet) ∧
    ∀ code ≤ 3,
      (∃ (s : State) (r : Req), s.offers 0 .enquiry r ∧ r.request = readAsk code ∧ s.quiet ∧ r.length < 64) ∧
      (∃ (s : State) (r : Req), s.offers 0 .enquiry r ∧ r.request = readAsk code ∧ s.quiet ∧ r.addr ≠ 0 ∧ r.length = 64 ∧
        (s.works.cursor 15).opened = false) ∧
      (∃ (s : State) (r : Req), s.offers 0 .enquiry r ∧ r.request = readAsk code ∧ s.quiet ∧ r.addr ≠ 0 ∧ r.length = 64 ∧
        (s.works.cursor 15).opened = true ∧ (s.works.cursor 15).generation = 1 ∧ (s.works.cursor 15).reading.isSome) ∧
      ∃ (s : State) (r : Req), s.offers 0 .enquiry r ∧ r.request = readAsk code ∧ s.quiet ∧ r.addr ≠ 0 ∧ r.length = 64 ∧
        (s.works.cursor 15).opened = true ∧ (s.works.cursor 15).generation = 1 ∧ (s.works.cursor 15).reading = none :=
  ⟨⟨asks idle (readAsk 4), _, off idle (readAsk 4) (by decide), rfl, rfl⟩, fun code _ =>
    ⟨⟨asksAt idle (readAsk code) 64 63, _, offAt idle (readAsk code) 64 63 (show (0 : Nat) < 64 by decide), rfl, rfl,
        show (63 : Nat) < 64 by decide⟩,
      ⟨asksAt idle (readAsk code) 64 64, _, offAt idle (readAsk code) 64 64 (show (0 : Nat) < 64 by decide), rfl, rfl,
        show (64 : Nat) ≠ 0 by decide, rfl, rfl⟩,
      ⟨asksAt (withCursors idle { cursor0 with reading := some (read0 .forward .none) }) (readAsk code) 64 64, _,
        offAt (withCursors idle { cursor0 with reading := some (read0 .forward .none) }) (readAsk code) 64 64
          (show (0 : Nat) < 64 by decide), rfl, rfl, show (64 : Nat) ≠ 0 by decide, rfl, rfl, rfl, rfl⟩,
      asksAt (withCursors idle cursor0) (readAsk code) 64 64, _,
      offAt (withCursors idle cursor0) (readAsk code) 64 64 (show (0 : Nat) < 64 by decide), rfl, rfl, show (64 : Nat) ≠ 0 by decide, rfl,
      rfl, rfl, rfl⟩⟩

/-- The part in which every cursor reads as given, with request 1 in progress. -/
def reads (w : Works) (rd : Reading) : State := has (withReq (withCursors w { cursor0 with reading := some rd }))

/-- The place of account 10's call of day 9000. -/
def place0 : Place := ⟨9000, key0 10, false, 0⟩

/-- The premises that every step shares. -/
def Steps (s : State) (rd : Reading) (q : Req) : Prop :=
  s.quiet ∧ (s.works.cursor 15).reading = some rd ∧ rd.wait = .none ∧ s.works.req rd.req = some q ∧ q.discarded = false ∧
    s.works.enquiry.cursors.length = 16 ∧ (s.works.port.out.get q.ch).length < 64

theorem steps (w : Works) (c : Cursor) (rd : Reading) (h : w.tasks = []) (ho : (w.port.out.get 0).length < 64) (hr : rd.req = 1)
    (hw : rd.wait = .none) : Steps (has (withReq (withCursors w { c with reading := some rd }))) rd taken1 :=
  ⟨h, rfl, hw, by simp [has, withReq, withCursors, Works.req, hr, taken1], rfl, rfl, ho⟩

theorem witness_ReadStepWritesAdvancesAndEnds :
    ((has idle).quiet ∧ ((has idle).works.cursor 15).reading = none) ∧
    (∀ (w : Works) (c : Cursor) (rd : Reading), w.tasks = [] → (w.port.out.get 0).length < 64 → rd.req = 1 → rd.wait = .none →
      Steps (has (withReq (withCursors w { c with reading := some rd }))) rd taken1) ∧
    -- an item, in every mode, with and without a pending entry of its identity
    (∀ pending : List PendingEntry, pending = [] ∨ pending = [⟨⟨9000, 10, 12, 3⟩, 0, 0, .void, 0, key0 10⟩] →
      let w : Works := { staged (.new .opened) with amend := ⟨.all .empty, pending⟩ }
      w.find cursor0 (read0 .forward .none) true ⟨.beforeFirst, false⟩ = .item place0 (.record (call0 10) false) ∧
      w.find cursor0 (read0 .skipForward .none) true ⟨.beforeFirst, false⟩ = .item place0 (.record (call0 10) false) ∧
      w.find cursor0 (read0 .backward .none) false ⟨.afterLast, true⟩ = .item place0 (.record (call0 10) false) ∧
      w.findNth cursor0 true 0 (read0 (.peek 0) .none) ⟨.beforeFirst, false⟩ = .item place0 (.record (call0 10) false) ∧
      w.findNth cursor0 false 0 (read0 (.peek (-1)) .none) ⟨.afterLast, true⟩ = .item place0 (.record (call0 10) false) ∧
      (w.pendingOf (.record (call0 10) false)).isSome = !pending.isEmpty) ∧
    -- no item in any mode
    (idle.find cursor0 (read0 .forward .none) true ⟨.beforeFirst, false⟩ = .none ∧
      idle.find cursor0 (read0 .backward .none) false ⟨.beforeFirst, true⟩ = .none ∧
      (staged (.new .opened)).findNth cursor0 true 1 (read0 (.peek 1) .none) ⟨.beforeFirst, false⟩ = .none) ∧
    -- the advance at both ends of the count
    (({ read0 .forward .none with used := 1 } : Reading).used < (read0 .forward .none).n ∧
      (read0 .forward .none).n ≤ ({ read0 .forward .none with used := 2 } : Reading).used) ∧
    -- a needed sheet, with the prefetch that holds it and without
    (∀ p : Prefetch, p = .none ∨ p = .ready (entry0.ref 9000 0) 6 0 →
      (withDay 9000 (day0 .closed entry0)).find { cursor0 with prefetch := p } (read0 .forward .none) true ⟨.beforeFirst, false⟩ =
        .need (entry0.ref 9000 0) entry0 place0) := by
  refine ⟨⟨rfl, rfl⟩, steps, ?_, by decide, by decide, ?_⟩
  · rintro pending (rfl | rfl) <;> decide
  · rintro p (rfl | rfl) <;> decide

/-- A look for an earlier item that would need the sheet. -/
theorem witness_ReadStepEndsABackwardReadUnasked :
    (withDay 9000 (day0 .closed entry0)).find cursor0 { read0 .backward .none with used := 2, advancing := true } false ⟨.afterLast, true⟩ =
      .need (entry0.ref 9000 0) entry0 ⟨9000, accountHigh 10 9000, false, 0⟩ := by decide

/-- The worked example of R117, step 4: two items used backward, an earlier day's sheet unread: the read ends and the sheet is prefetched
(spec/07_enquiries.md, 'Worked example: a cursor across a merge and a quarantine'). -/
theorem test_backward_read_ends_and_prefetches_the_earlier_sheet :
    let c : Cursor := { cursor0 with
      toDay := 9001, position := .place ⟨9001, accountLow 10 9001, true, 3⟩
      reading := some { read0 .backward .none with
        used := 2, advancing := true, search := ⟨.place ⟨9001, accountLow 10 9001, true, 3⟩, true⟩ } }
    let w := withReq { withCursors (withDay 9000 (day0 .closed entry0)) c with
      days := [(9000, day0 .closed entry0), (9001, .new .closed)] }
    let t := (w.readStep (has idle).ctx 15).1.cursor 15
    t.reading = none ∧ t.position = c.position ∧ t.prefetch = .fetching (entry0.ref 9000 0) w.serial := by decide

/-- A sheet needed beyond its first record's key gives its next item at the key after it. -/
theorem witness_TheSheetNeededLiesAfterTheStart :
    findUp ⟨[], [(entry0.ref 9000 0, entry0)]⟩ [] 10 9000 (some (⟨9000, key0 10, false, 0⟩, true)) =
      .need (entry0.ref 9000 0) entry0 ⟨9000, { key0 10 with seq := 4 }, false, 0⟩ := by decide

theorem witness_TheItemFoundIsTheNextInResultOrder :
    findUp ((staged (.new .opened)).dayView cursor0 (read0 .forward .none) 9000) [] 10 9000
      (some (⟨9000, key0 9, false, 0⟩, true)) = .item ⟨9000, key0 10, false, 0⟩ (.record (call0 10) false) := by decide

theorem witness_EnquiryWaitsEndAtTheirLimits :
    ((has idle).quiet ∧ ((has idle).works.cursor 15).reading = none ∧ ((has idle).works.cursor 15).prefetch = .none) ∧
    (∀ mode : ReadMode,
      ∃ (s : State) (rd : Reading) (q : Req), s.quiet ∧ (s.works.cursor 15).reading = some rd ∧
        rd.wait = .pending ⟨9000, 10, 12, 3⟩ 0 ∧ rd.mode = mode ∧ rd.heldPlace = some place0 ∧ s.works.req rd.req = some q ∧ q.discarded = false ∧
        (s.works.port.out.get q.ch).length < 64 ∧ s.works.enquiry.cursors.length = 16) ∧
    (∃ s : State, s.quiet ∧ (s.works.cursor 15).prefetch = .ready (entry0.ref 9000 0) 6 0) ∧
    ∀ wait : EnquiryWait, wait = .none ∨ wait = .pending ⟨9000, 10, 12, 3⟩ 0 →
      ∃ (s : State) (l : Lookup) (q : Req), s.quiet ∧ s.works.enquiry.lookups.find? (fun l => decide (l.req = 1)) = some l ∧
        l.wait = wait ∧ s.works.req 1 = some q ∧ q.discarded = false ∧ (s.works.port.out.get q.ch).length < 64 := by
  refine ⟨⟨rfl, rfl, rfl⟩, fun mode => ?_, ⟨has (withCursors idle { cursor0 with prefetch := .ready (entry0.ref 9000 0) 6 0 }), rfl, rfl⟩,
    fun wait _ => ?_⟩
  · exact ⟨reads idle { read0 mode (.pending ⟨9000, 10, 12, 3⟩ 0) with heldPlace := some place0 }, _, taken1, rfl, rfl, rfl, rfl, rfl,
      rfl, rfl, show (0 : Nat) < 64 by decide, rfl⟩
  · exact ⟨has (withReq { idle with enquiry := ⟨[], [⟨1, ⟨9000, 10, 12, 3⟩, .wait, [], [], wait⟩]⟩ }), _, taken1, rfl, rfl, rfl, rfl,
      rfl, show (0 : Nat) < 64 by decide⟩

/-- An entry of a batch that corrects a record of day 9000. -/
def amend0 : AmendEntry := ⟨1, 9000, 12, 10, 3, 1, 61, 5⟩

/-- The units with every batch as given. -/
def withBatch (w : Works) (b : Batch) : Works := { w with amend := ⟨.all b, []⟩ }

/-- A batch that collects as many entries. -/
def batchOf (n : Nat) : Batch := { Batch.empty with state := .collecting, entries := List.replicate n ⟨amend0, none⟩ }

theorem batchOf_length (n : Nat) : (batchOf n).entries.length = n := List.length_replicate ..

theorem batch_asks (w : Works) (b : Batch) (q : Request) (hq : w.tasks = []) (ho : w.port.out.get 0 = []) (hu : q.owner = .amendment) :
    ∃ (s : State) (r : Req), s.offers 0 .amendment r ∧ r.request = q ∧ s.quiet ∧ s.works.batch 0 = b ∧ s.works.days = w.days :=
  ⟨asks (withBatch w b) q, _, hu ▸ off (withBatch w b) q (by show (w.port.out.get 0).length < 64; rw [ho]; decide), rfl, hq, rfl, rfl⟩

/-- The units with channel 0's batch finding its one entry on a day of one index entry. -/
def finding0 (x : Entry) (late : List LateRec) (hit : Option Found) : Works :=
  { withDay 9000 (day0 .closed x) with
    intake := { Intake.initial with late := late }
    amend := ⟨.all { Batch.empty with
      state := .checking, entries := [⟨amend0, none⟩], closing := some 1, day := some 9000, wait := .finding 0 none, hit := hit }, []⟩ }

/-- The units with that batch at its placement event, its entry found. -/
def placing0 (x : Entry) (net : Int) (pending : List PendingEntry) : Works :=
  { withDay 9000 (day0 .closed x) with
    amend := ⟨.all { Batch.empty with
      state := .checking, entries := [⟨amend0, some ⟨call0 10, entry0.ref 9000 0, 4⟩⟩], net := some net, closing := some 1,
      day := some 9000, wait := .placing }, pending⟩ }

theorem witness_AmendCollectsUpToItsLimits :
    (∃ (s : State) (r : Req), s.offers 0 .amendment r ∧ r.request = .amend false 0 [amend0] ∧ s.quiet ∧ (s.works.batch 0).state = .applying) ∧
    (∃ (s : State) (r : Req), s.offers 0 .amendment r ∧ r.request = .amend false 0 [amend0] ∧ s.quiet ∧
      (s.works.batch 0).state = .collecting ∧ 1024 < (s.works.batch 0).entries.length + [amend0].length) ∧
    (∃ (s : State) (r : Req), s.offers 0 .amendment r ∧ r.request = .amend false 0 [amend0] ∧ s.quiet ∧
      (s.works.batch 0).state = .collecting ∧ (s.works.batch 0).entries.length + [amend0].length = 1024) ∧
    (∃ (s : State) (r : Req), s.offers 0 .amendment r ∧ r.request = .amend true 0 [] ∧ s.quiet ∧
      (s.works.batch 0).state = .none ∧ (s.works.batch 0).entries = [] ∧ (s.works.batch 0).hit = none) ∧
    (∃ (s : State) (r : Req), s.offers 0 .amendment r ∧ r.request = .amend true 6 [amend0] ∧ s.quiet ∧
      (s.works.batch 0).state = .none ∧ s.works.closeTest 6 ((s.works.batch 0).entries.map (fun e => e.given) ++ [amend0]) = none) ∧
    -- the net change at and past its limits, and every close test failing at entry 1 alone, or on the day
    ((-(2 ^ 41) : Int) ≤ -(2 ^ 41) ∧ (2 ^ 41 : Int) < 2 ^ 41 + 1 ∧
      idle.closeTest (2 ^ 41 + 1) [amend0] = some (.malformed, 1) ∧
      idle.closeTest (-(2 ^ 41)) [amend0, { amend0 with kind := 3 }] = some (.malformed, 1) ∧
      idle.closeTest (2 ^ 41) [amend0, { amend0 with switch := 4096 }] = some (.malformed, 1) ∧
      idle.closeTest 0 [amend0, { amend0 with seq := 4, dur := 1048576 }] = some (.malformed, 1) ∧
      idle.closeTest 0 [amend0, { amend0 with day := 9001 }] = some (.malformed, 1) ∧
      idle.closeTest 0 [amend0, amend0] = some (.malformed, 1) ∧
      idle.closeTest 0 [amend0] = some (.notFound, 0) ∧ (withDay 9000 (.new .opened)).closeTest 0 [amend0] = some (.state, 0)) ∧
    -- a finding: no day, a late record, a sheet to read, a sheet QUARANTINED, nothing left, and a hit
    (∀ x : Entry, x = entry0 ∨ x = { entry0 with quarantined := true } →
      ((finding0 x [] none).batch 0).state = .checking ∧ ((finding0 x [] none).batch 0).wait = .finding 0 none ∧
      ((finding0 x [] none).batch 0).entries[0]? = some ⟨amend0, none⟩ ∧ ((finding0 x [] none).liveDay 9000).isSome ∧
      (finding0 x [] none).accountEntries 9000 10 = [(0, x)]) ∧
    idle.liveDay 9000 = none ∧
    (finding0 entry0 [⟨(call0 10).asLate, 0, 0⟩] none).intake.late.find? (fun l => decide (l.call.identity = ⟨9000, 10, 12, 3⟩)) =
      some ⟨(call0 10).asLate, 0, 0⟩ ∧
    ((finding0 entry0 [] (some ⟨call0 10, entry0.ref 9000 0, 4⟩)).batch 0).hit = some ⟨call0 10, entry0.ref 9000 0, 4⟩ ∧
    (finding0 entry0 [] none).current (entry0.ref 9000 0) = some entry0 ∧
    -- a placement: a find stale, an identity pending elsewhere, the net change not the declared one, and the declared one
    (∀ (x : Entry) (net : Int) (pending : List PendingEntry),
      ((placing0 x net pending).batch 0).state = .checking ∧ ((placing0 x net pending).batch 0).wait = .placing ∧
      ((placing0 x net pending).batch 0).entries = [⟨amend0, some ⟨call0 10, entry0.ref 9000 0, 4⟩⟩] ∧
      ((placing0 x net pending).batch 0).net = some net) ∧
    (placing0 { entry0 with quarantined := true } 0 []).current (entry0.ref 9000 0) = some { entry0 with quarantined := true } ∧
    (placing0 entry0 0 []).current (entry0.ref 9000 0) = some entry0 ∧ ((placing0 entry0 0 []).batch 0).netChange = 0 ∧
    (placing0 entry0 0 [⟨⟨9000, 10, 12, 3⟩, 1, 0, .void, 0, key0 10⟩]).amend.pending.map (fun p => p.id) = [⟨9000, 10, 12, 3⟩] ∧
    -- the closing request of a batch
    ∃ (w : Works) (q : Req), (w.batch 0).closing = some q.id ∧ w.req q.id = some q ∧ q.discarded = false ∧
      (w.port.out.get q.ch).length < 64 := by
  refine ⟨?_, ?_, ?_, ?_, ⟨asks (withDay 9000 (day0 .closed entry0)) (.amend true 6 [amend0]), _,
    off (withDay 9000 (day0 .closed entry0)) (.amend true 6 [amend0]) (by decide), rfl, rfl, rfl, by decide⟩,
    by decide, ?_, rfl, by decide, rfl, by decide, fun _ _ _ => ⟨rfl, rfl, rfl, rfl⟩, by decide, by decide, by decide, rfl,
    withReq (placing0 entry0 0 []), taken1, rfl, by decide, rfl, by decide⟩
  · obtain ⟨s, r, ho, hr, hq, hb, -⟩ := batch_asks idle { Batch.empty with state := .applying } (.amend false 0 [amend0]) rfl rfl rfl
    exact ⟨s, r, ho, hr, hq, by rw [hb]⟩
  · obtain ⟨s, r, ho, hr, hq, hb, -⟩ := batch_asks idle (batchOf 1024) (.amend false 0 [amend0]) rfl rfl rfl
    exact ⟨s, r, ho, hr, hq, by rw [hb]; rfl, by rw [hb, batchOf_length]; decide⟩
  · obtain ⟨s, r, ho, hr, hq, hb, -⟩ := batch_asks idle (batchOf 1023) (.amend false 0 [amend0]) rfl rfl rfl
    exact ⟨s, r, ho, hr, hq, by rw [hb]; rfl, by rw [hb, batchOf_length]; decide⟩
  · obtain ⟨s, r, ho, hr, hq, hb, -⟩ := batch_asks idle Batch.empty (.amend true 0 []) rfl rfl rfl
    exact ⟨s, r, ho, hr, hq, by rw [hb]; rfl, by rw [hb]; rfl, by rw [hb]; rfl⟩
  · rintro x (rfl | rfl) <;> exact ⟨rfl, rfl, rfl, rfl, by decide⟩

/-- A batch told of its merge: its late record, of account 10, is held back by the QUARANTINED sheet of other accounts that covers its key,
or has left the Late List. In either case its finding begins afresh, and an ask for the record held back stays with the schedule. -/
theorem witness_ABatchToldOfItsMergeTakesItsFindingAgain :
    let x : Entry := { entry0 with first := key0 5, last := key0 7, quarantined := true }
    let told (late : List LateRec) : Works := { finding0 x late none with
      packer := { Packer.initial with sched := [⟨9000, 0, 1, none, [0]⟩] }
      amend := ⟨.all { Batch.empty with
        state := .checking, entries := [⟨amend0, none⟩], closing := some 1, day := some 9000, wait := .merge 0 9000 0 }, []⟩ }
    (∀ late, ((told late).batch 0).wait = .merge 0 9000 0 ∧ ((told late).batch 0).entries[0]? = some ⟨amend0, none⟩) ∧
    (told []).accountEntries 9000 10 = [] ∧ (call0 10).asLate.identity = ⟨9000, 10, 12, 3⟩ ∧
    (told []).holdsBack 9000 0 ⟨(call0 10).asLate, 0, 0⟩ = true ∧
    (let w := told [⟨(call0 10).asLate, 0, 0⟩]
     (w.mergeable 9000 0).1 = [] ∧ (w.intake.lateOf 9000 0).length ≤ (w.packer.schedOf 9000 0).held ∧
      w.mergeExpiry (has idle).ctx 9000 0 = none) := ⟨fun _ => ⟨rfl, rfl⟩, by decide, by decide, by decide, by decide⟩

theorem witness_AbandonBatchActsByTheBatchState :
    ∀ b : Batch, ∃ (s : State) (r : Req), s.offers 0 .amendment r ∧ r.request = .abandonBatch ∧ s.quiet ∧ s.works.batch 0 = b := fun b =>
  let ⟨s, r, ho, hr, hq, hb, _⟩ := batch_asks idle b .abandonBatch rfl rfl rfl
  ⟨s, r, ho, hr, hq, hb⟩

/-! ## Witnesses: retention -/

/-- A class entry of the span 447 700 000 000 000 to its end. -/
def rawClass0 : RawClass := ⟨1, 9, 3, 447700000000000⟩

theorem witness_TablesAreReplacedWholeOrRefused :
    (∃ (b buf : Bytes) (entries : List RawClass), Request.ofBytes b buf = some (.setClassTable entries)) ∧
    (∃ (b buf : Bytes) (policies : List RawPolicy), Request.ofBytes b buf = some (.setPolicy policies)) ∧
    (∃ (s : State) (r : Req) (entries : List RawClass), s.offers 0 .retention r ∧ s.quiet ∧ r.request = .setClassTable entries ∧
      entries.length = 16 ∧ ∀ c ∈ entries, c.enabled ≤ 1 ∧ c.base ≤ 999999999999999 ∧ c.exp ≤ 12 ∧ 1 ≤ c.cls ∧ c.cls ≤ 7 ∧
        c.base % 10 ^ c.exp = 0 ∧ c.base + 10 ^ c.exp - 1 ≤ 999999999999999) ∧
    (∃ (s : State) (r : Req) (before after : List RawClass) (c : RawClass), s.offers 0 .retention r ∧ s.quiet ∧
      r.request = .setClassTable (before ++ c :: after) ∧ before.length = 15 ∧ after = [] ∧
      (∀ a ∈ before, a = rawClass0) ∧ c = { rawClass0 with exp := 13 }) ∧
    (∃ (s : State) (r : Req) (policies : List RawPolicy), s.offers 0 .retention r ∧ s.quiet ∧ r.request = .setPolicy policies ∧
      policies.length = 8 ∧ ∀ p ∈ policies, 1 ≤ p.months ∧ p.months ≤ 120 ∧ p.grace ≤ 62 ∧ p.keep ≤ 1) ∧
    ∃ (s : State) (r : Req) (before after : List RawPolicy) (p : RawPolicy), s.offers 0 .retention r ∧ s.quiet ∧
      r.request = .setPolicy (before ++ p :: after) ∧ before = [] ∧ after.length = 7 ∧ p.months = 121 :=
  ⟨⟨record 22 0 7 0 256 0 [], List.replicate 256 0, List.replicate 16 ⟨0, 0, 0, 0⟩, by decide⟩,
    ⟨record 23 0 7 0 32 0 [], List.replicate 32 0, List.replicate 8 ⟨0, 0, 0⟩, by decide⟩,
    ⟨asks idle (.setClassTable (List.replicate 16 rawClass0)), _, _, off idle (.setClassTable (List.replicate 16 rawClass0)) (by decide), rfl,
      rfl, rfl, by decide⟩,
    ⟨asks idle (.setClassTable (List.replicate 15 rawClass0 ++ [{ rawClass0 with exp := 13 }])), _, List.replicate 15 rawClass0, [], _,
      off idle (.setClassTable (List.replicate 15 rawClass0 ++ [{ rawClass0 with exp := 13 }])) (by decide), rfl, rfl, rfl, rfl, by decide,
      rfl⟩,
    ⟨asks idle (.setPolicy (List.replicate 8 ⟨120, 62, 1⟩)), _, _, off idle (.setPolicy (List.replicate 8 ⟨120, 62, 1⟩)) (by decide), rfl,
      rfl, rfl, by decide⟩,
    asks idle (.setPolicy (⟨121, 0, 0⟩ :: List.replicate 7 ⟨18, 7, 0⟩)), _, [], List.replicate 7 ⟨18, 7, 0⟩, ⟨121, 0, 0⟩,
    off idle (.setPolicy (⟨121, 0, 0⟩ :: List.replicate 7 ⟨18, 7, 0⟩)) (by decide), rfl, rfl, rfl, rfl, rfl⟩

/-- The units with a Hold Table. -/
def withHolds (t : Tbl HoldEntry) : Works := { idle with retention := { idle.retention with holds := t } }

/-- A request of the Retention Unit about account 70 000 while the Hold Table is as given. -/
theorem holds_asks (t : Tbl HoldEntry) (q : Request) (hu : q.owner = .retention) : ∃ (s : State) (r : Req), s.offers 0 .retention r ∧
    s.quiet ∧ r.request = q ∧ s.works.retention.holds = t ∧ s.works.retention.rangeOf 70000 = some wholeRange ∧
    s.cfg.today = some 9000 :=
  ⟨asks (withHolds t) q, _, hu ▸ off (withHolds t) q (show (0 : Nat) < 64 by decide), rfl, rfl, rfl, by
    simp [asks, has, withHolds, idle, Retention.rangeOf, wholeRange, HoldRange.has, Config.maxAccount], rfl⟩

/-- A Hold Table of 65 536 accounts from 1. -/
def fullHolds : Tbl HoldEntry := (List.range 65536).map fun n => (n + 1, ⟨1, none⟩)

theorem full_holds_length : fullHolds.length = 65536 := by simp [fullHolds]

theorem full_holds_get : tblGet 70000 fullHolds = none := by
  have h : ∀ l : List Nat, (∀ n ∈ l, n < 65536) → tblGet 70000 (l.map fun n => (n + 1, (⟨1, none⟩ : HoldEntry))) = none := by
    intro l
    induction l with
    | nil => intro _; rfl
    | cons a l ih =>
      intro h
      have ha : a + 1 ≠ 70000 := by have := h a (by simp); omega
      simp only [List.map_cons, tblGet, ha, if_false]
      exact ih fun n hn => h n (by simp [hn])
  exact h _ fun n hn => List.mem_range.mp hn

/-- An IDLE range with no sheet. -/
def range0 (lo hi : Nat) : HoldRange := ⟨lo, hi, none, [], false, none⟩

/-- The units with a rewrite of accounts 100 to 199 that took one request and left the sheets given. -/
def rewriting0 (holds : Tbl HoldEntry) (before after : List HoldRange) (sheets : List HoldSheet) : Works :=
  withReq { idle with
    retention := { Retention.initial with
      holds := holds
      ranges := before ++ ⟨100, 199, some (⟨0, 5⟩, 3), [⟨2, 160, .dispute, true⟩], false,
        some ⟨8, [⟨1, 150, .dispute, true⟩], [], none, sheets⟩⟩ :: after } }

theorem witness_HoldsJoinTheirRangeAndAreReported :
    (∃ (s : State) (r : Req), s.offers 0 .retention r ∧ s.quiet ∧ r.request = .placeHold 70000 1 9001) ∧
    (∃ (s : State) (r : Req), s.offers 0 .retention r ∧ s.quiet ∧ r.request = .placeHold 70000 2 65535 ∧
      tblGet 70000 s.works.retention.holds = none ∧ 65536 ≤ s.works.retention.holds.length) ∧
    (∃ (s : State) (r : Req), s.offers 0 .retention r ∧ s.quiet ∧ r.request = .placeHold 70000 1 65535 ∧
      tblGet 70000 s.works.retention.holds = some ⟨255, none⟩) ∧
    (∃ (s : State) (r : Req), s.offers 0 .retention r ∧ s.quiet ∧ r.request = .placeHold 70000 1 65535 ∧
      tblGet 70000 s.works.retention.holds = some ⟨254, none⟩ ∧ s.works.retention.rangeOf 70000 = some wholeRange) ∧
    (∃ (s : State) (r : Req), s.offers 0 .retention r ∧ s.quiet ∧ r.request = .placeHold 70000 2 9001 ∧ s.cfg.today = some 9000 ∧
      s.works.retention.holds.length < 65536 ∧ s.works.retention.rangeOf 70000 = some wholeRange) ∧
    (∃ (s : State) (r : Req), s.offers 0 .retention r ∧ s.quiet ∧ r.request = .releaseHold 70000 0) ∧
    (∃ (s : State) (r : Req), s.offers 0 .retention r ∧ s.quiet ∧ r.request = .releaseHold 70000 2 ∧
      s.works.retention.rangeOf 70000 = some wholeRange) ∧
    (∃ (s : State) (r : Req), s.offers 0 .retention r ∧ s.quiet ∧ r.request = .holdState 0) ∧
    (∃ (s : State) (r : Req), s.offers 0 .retention r ∧ s.quiet ∧ r.request = .holdState 70000 ∧
      s.works.retention.rangeOf 70000 = some wholeRange) ∧
    -- the end of a rewrite in the middle, the lowest and the only range, with no sheet and with two
    (∀ (holds : Tbl HoldEntry) (before after : List HoldRange) (sheets : List HoldSheet),
      (before = [range0 1 99] ∧ after = [range0 200 999]) ∨ (before = [] ∧ after = [range0 200 999]) ∨ (before = [] ∧ after = []) →
      ∃ (w : Works) (r : HoldRange) (v : Rewrite) (q : HoldReq) (p : Req), w.retention.rewriting 8 = some r ∧ r.rewrite = some v ∧
        w.retention.ranges = before ++ r :: after ∧ (∀ a ∈ before ++ after, a.lo ≠ r.lo) ∧ v.sheets = sheets ∧ v.taken = [q] ∧
        w.req q.req = some p ∧ p.id = q.req ∧ p.discarded = false ∧ (w.port.out.get p.ch).length < 64 ∧ r.sheet.isSome ∧
        -- no entry of the range stands in the table, or one does
        (holds = [] → ∀ a ∈ applyReleases w.retention.holds v.taken, ¬ (r.lo ≤ a.1 ∧ a.1 ≤ r.hi)) ∧
        (holds = [(150, ⟨1, none⟩)] → ∃ a ∈ applyReleases w.retention.holds v.taken, r.lo ≤ a.1 ∧ a.1 ≤ r.hi)) := by
  refine ⟨?_, ?_, ?_, ?_, ?_, ?_, ?_, ?_, ?_, ?_⟩
  · obtain ⟨s, r, h1, h2, h3, -⟩ := holds_asks [] (.placeHold 70000 1 9001) rfl; exact ⟨s, r, h1, h2, h3⟩
  · obtain ⟨s, r, h1, h2, h3, h4, -⟩ := holds_asks fullHolds (.placeHold 70000 2 65535) rfl
    exact ⟨s, r, h1, h2, h3, h4 ▸ full_holds_get, h4 ▸ full_holds_length.ge⟩
  · obtain ⟨s, r, h1, h2, h3, h4, -⟩ := holds_asks [(70000, ⟨255, none⟩)] (.placeHold 70000 1 65535) rfl
    exact ⟨s, r, h1, h2, h3, by rw [h4]; rfl⟩
  · obtain ⟨s, r, h1, h2, h3, h4, h5, -⟩ := holds_asks [(70000, ⟨254, none⟩)] (.placeHold 70000 1 65535) rfl
    exact ⟨s, r, h1, h2, h3, by rw [h4]; rfl, h5⟩
  · obtain ⟨s, r, h1, h2, h3, h4, h5, h6⟩ := holds_asks [] (.placeHold 70000 2 9001) rfl
    exact ⟨s, r, h1, h2, h3, h6, by rw [h4]; decide, h5⟩
  · obtain ⟨s, r, h1, h2, h3, -⟩ := holds_asks [] (.releaseHold 70000 0) rfl; exact ⟨s, r, h1, h2, h3⟩
  · obtain ⟨s, r, h1, h2, h3, -, h5, -⟩ := holds_asks [] (.releaseHold 70000 2) rfl; exact ⟨s, r, h1, h2, h3, h5⟩
  · obtain ⟨s, r, h1, h2, h3, -⟩ := holds_asks [] (.holdState 0) rfl; exact ⟨s, r, h1, h2, h3⟩
  · obtain ⟨s, r, h1, h2, h3, -, h5, -⟩ := holds_asks [] (.holdState 70000) rfl; exact ⟨s, r, h1, h2, h3, h5⟩
  · rintro holds before after sheets (⟨rfl, rfl⟩ | ⟨rfl, rfl⟩ | ⟨rfl, rfl⟩) <;>
      exact ⟨rewriting0 holds _ _ sheets, _, _, ⟨1, 150, .dispute, true⟩, taken1, rfl, rfl, rfl,
        by simp [range0], rfl, rfl, rfl, rfl, rfl, show (0 : Nat) < 64 by decide, rfl,
        (by rintro rfl a ha; cases ha), (by rintro rfl; exact ⟨_, List.mem_singleton.mpr rfl, (show (100 : Nat) ≤ 150 by decide), (show (150 : Nat) ≤ 199 by decide)⟩)⟩

/-- A sweep of day 9000 under policies of 18 months and 7 days. -/
def sweep0 : Sweep :=
  { today := 9000, policies := cfg0.policies, again := false, position := none, passed := false, openRetire := [], decided := [],
    revisit := [], visits := [], refusedItems := [], kept := [], counts := ⟨0, 0, 0, 0, 0, 0⟩ }

/-- The units with that sweep running. -/
def sweeping (w : Works) (sw : Sweep) : Works := { w with retention := { w.retention with sweep := some sw } }

/-- An index entry of day 8000. -/
def entry8 : Entry := { entry0 with first := ⟨10, 691200100, 12, 3⟩, last := ⟨20, 691200100, 12, 3⟩ }

theorem witness_SweepStartsOnceAndWalksTheDays :
    (∃ (s : State) (r : Req), s.quiet ∧ s.offers 0 .retention r ∧ r.request = .sweep ∧ s.works.retention.sweep = none) ∧
    (∃ (s : State) (r : Req) (sw : Sweep), s.quiet ∧ s.offers 0 .retention r ∧ r.request = .sweep ∧
      s.works.retention.sweep = some sw) ∧
    ((has idle).quiet ∧ (has idle).works.retention.sweep = none) ∧
    (∃ (s : State) (sw : Sweep), s.quiet ∧ s.works.retention.sweep = some sw ∧ sw.passed = true) ∧
    (∃ (s : State) (sw : Sweep), s.quiet ∧ s.works.retention.sweep = some sw ∧ sw.refusedItems = [] ∧ sw.passed = false ∧
      (∀ v ∈ sw.visits, v.walk = false) ∧ sw.position = none ∧ s.works.days = []) ∧
    (∃ (s : State) (sw : Sweep) (e : DayEntry), s.quiet ∧ s.works.retention.sweep = some sw ∧ sw.refusedItems = [] ∧
      sw.passed = false ∧ (∀ v ∈ sw.visits, v.walk = false) ∧ sw.position = none ∧ s.works.days = [(9000, e)] ∧ e.going = false ∧
      e.runs = []) ∧
    (∃ (s : State) (sw : Sweep) (e : DayEntry) (run : Run), s.quiet ∧ s.works.retention.sweep = some sw ∧ sw.refusedItems = [] ∧
      sw.passed = false ∧ (∀ v ∈ sw.visits, v.walk = false) ∧ sw.position = none ∧ s.works.days = [(9000, e)] ∧ e.going = false ∧
      e.runs = [run] ∧ due s.cfg.settings.epoch sw.policies sw.today 9000 run.cls = false) ∧
    (∀ (again passed : Bool) (out : List Response), ∃ (x : Ctx) (w : Works) (sw : Sweep), w.retention.sweep = some sw ∧ sw.again = again ∧
      sw.passed = passed ∧ sw.revisit = [] ∧ sw.decided = [] ∧ sw.visits = [] ∧ sw.openRetire = [] ∧ sw.refusedItems = [] ∧
      (x.windows.get (x.set.routes.getD 5 0)).state = .active ∧ w.port.out.get (x.set.routes.getD 5 0) = out) ∧
    ∀ audited : Bool, ∃ (s : State) (sw : Sweep) (e : DayEntry) (run : Run), s.quiet ∧ s.works.retention.sweep = some sw ∧
      sw.refusedItems = [] ∧ sw.passed = false ∧ (∀ v ∈ sw.visits, v.walk = false) ∧ sw.position = none ∧ s.works.days = [(8000, e)] ∧
      e.going = false ∧ e.runs = [run] ∧ due s.cfg.settings.epoch sw.policies sw.today 8000 run.cls = true ∧ e.underAudit = audited :=
  ⟨⟨asks idle .sweep, _, rfl, off idle .sweep (by decide), rfl, rfl⟩,
    ⟨asks (sweeping idle sweep0) .sweep, _, _, rfl, off (sweeping idle sweep0) .sweep (by decide), rfl, rfl⟩, ⟨rfl, rfl⟩,
    ⟨has (sweeping idle { sweep0 with passed := true }), _, rfl, rfl, rfl⟩,
    ⟨has (sweeping idle sweep0), sweep0, rfl, rfl, rfl, rfl, by decide, rfl, rfl⟩,
    ⟨has (sweeping (withDay 9000 (.new .closed)) sweep0), sweep0, _, rfl, rfl, rfl, rfl, by decide, rfl, rfl, rfl, rfl⟩,
    ⟨has (sweeping (withDay 9000 (day0 .closed entry0)) sweep0), sweep0, day0 .closed entry0, ⟨0, .live, [entry0]⟩, rfl, rfl, rfl, rfl,
      by decide, rfl, rfl, rfl, rfl, by decide⟩,
    fun again passed out => ⟨(has idle).ctx, { sweeping idle { sweep0 with again := again, passed := passed } with
      port := { Port.initial with out := .all out } }, _, rfl, rfl, rfl, rfl, rfl, rfl, rfl, rfl, rfl, rfl⟩,
    fun a => ⟨has (sweeping (withDay 8000 { day0 .closed entry8 with underAudit := a }) sweep0), sweep0, _, ⟨0, .live, [entry8]⟩, rfl, rfl,
      rfl, rfl, by decide, rfl, rfl, rfl, rfl, show due cfg0.settings.epoch sweep0.policies 9000 8000 0 = true by decide, rfl⟩⟩

/-- A trimmed sheet's run: the sweep has nothing left of it, or a visit of it is under way. -/
theorem witness_ATrimmedRunIsFinishedOrNot :
    ∀ visits : List Visit, visits = [] ∨ visits = [⟨8000, 0, none, none, false, false, []⟩] →
      ∃ (w : Works) (sw : Sweep) (e : DayEntry) (run : Run), w.retention.sweep = some sw ∧ w.day 8000 = some e ∧
        e.runs.find? (fun q => decide (q.cls = 0)) = some run ∧ run.state = .expiring ∧ sw.decided = [entry8.ref 8000 0] ∧
        sw.openRetire = [] ∧ sw.revisit = [] ∧ sw.visits = visits := fun visits _ =>
  ⟨sweeping (withDay 8000 { day0 .closed entry8 with runs := [⟨0, .expiring, [entry8]⟩] })
    { sweep0 with decided := [entry8.ref 8000 0], visits := visits }, _, _, _, rfl, rfl, rfl, rfl, rfl, rfl, rfl, rfl⟩

/-- Two runs whose revisits end in one event, the second run's kept sheets after the first's end is tested: both are RESIDUAL (R40). -/
theorem test_revisits_of_one_event_leave_no_run_expiring :
    let day : DayEntry := { day0 .closed entry8 with runs := [⟨0, .expiring, [entry8]⟩, ⟨1, .expiring, [entry8]⟩] }
    let visits : List Visit := [⟨8000, 0, some entry8.first, none, false, false, []⟩, ⟨8000, 1, some entry8.first, none, false, false, []⟩]
    let w : Works := { sweeping (withDay 8000 day) { sweep0 with passed := true, visits := visits } with
      tasks := [.visit 8000 0, .visit 8000 1] }
    let t := settle (has idle).ctx 8 w
    t.retention.sweep = none ∧ t.tasks = [] ∧ (t.day 8000).map (fun e => e.runs.map fun r => r.state) = some [.residual, .residual] := by
  decide

/-- The walk's visit to the run of class 0 of day 8000. -/
def visit0 : Visit := ⟨8000, 0, none, none, true, false, []⟩

/-- The sweep at that visit. -/
def deciding : Sweep := { sweep0 with position := some ⟨8000, some 0, false⟩, visits := [visit0] }

/-- The part deciding an entry of day 8000, with accounts held and pending entries. -/
def decides (sw : Sweep) (x : Entry) (audited : Bool) (holds : Tbl HoldEntry) (pending : List PendingEntry) : State :=
  has { sweeping { withDay 8000 { day0 .closed x with underAudit := audited } with amend := ⟨.all .empty, pending⟩ } sw with
    retention := { Retention.initial with holds := holds, sweep := some sw } }

/-- The premises that every decision shares. -/
def Decision (s : State) (sw : Sweep) (x : Entry) (audited : Bool) : Prop :=
  ∃ (v : Visit) (e : DayEntry) (run : Run), s.quiet ∧ s.works.retention.sweep = some sw ∧ sw.refusedItems = [] ∧ sw.passed = false ∧
    sw.visits.find? (fun u => u.walk) = some v ∧ v.reading = none ∧ tblGet v.day s.works.days = some e ∧ e.going = false ∧
    e.runs.find? (fun q => decide (q.cls = v.cls)) = some run ∧ run.entries = [] ++ x :: [] ∧ v.at_ = none ∧ e.underAudit = audited

theorem decides_at (sw : Sweep) (x : Entry) (audited : Bool) (holds : Tbl HoldEntry) (pending : List PendingEntry)
    (hs : sw = deciding ∨ sw = { deciding with decided := [x.ref 8000 0] }) :
    Decision (decides sw x audited holds pending) sw x audited := by
  rcases hs with rfl | rfl <;>
    exact ⟨visit0, { day0 .closed x with underAudit := audited }, ⟨0, .live, [x]⟩, rfl, rfl, rfl, rfl, rfl, rfl, rfl, rfl, rfl, rfl, rfl,
      rfl⟩

/-- A pending entry of account 15 of day 8000. -/
def pending0 : PendingEntry := ⟨⟨8000, 15, 12, 3⟩, 0, 0, .void, 0, ⟨15, 691200100, 12, 3⟩⟩

theorem witness_SweepDecidesByTheFirstCaseThatHolds :
    (∀ (sw : Sweep) (x : Entry) (audited : Bool) (holds : Tbl HoldEntry) (pending : List PendingEntry),
      sw = deciding ∨ sw = { deciding with decided := [x.ref 8000 0] } → Decision (decides sw x audited holds pending) sw x audited) ∧
    entry8.ref 8000 0 ∈ ({ deciding with decided := [entry8.ref 8000 0] } : Sweep).decided ∧
    (entry8.ref 8000 0 ∉ deciding.decided ∧ entry8.ref 8000 0 ∉ deciding.openRetire ∧ entry8.ref 8000 0 ∉ visit0.retire) ∧
    ({ entry8 with busy := some .audit } : Entry).busy.isSome ∧
    (∃ p ∈ (decides deciding entry8 false [] [pending0]).works.amend.pending,
      p.id.day = 8000 ∧ entry8.first.account ≤ p.id.account ∧ p.id.account ≤ entry8.last.account) ∧
    (∃ p ∈ (decides deciding entry8 false [(20, ⟨1, none⟩)] []).works.retention.holds,
      entry8.first.account ≤ p.1 ∧ p.1 ≤ entry8.last.account) ∧
    (¬ ∃ p ∈ (decides deciding entry8 false [(21, ⟨1, none⟩)] []).works.retention.holds,
      entry8.first.account ≤ p.1 ∧ p.1 ≤ entry8.last.account) ∧
    ({ entry8 with quarantined := true } : Entry).quarantined = true ∧ entry8.quarantined = false ∧ entry8.busy = none ∧
    (decides deciding entry8 false [] []).works.amend.pending = [] :=
  ⟨decides_at, by decide⟩

/-! ## Witnesses: audit and scrub -/

theorem witness_AuditDayMarksTheDayUnderAudit :
    (∃ (s : State) (r : Req), s.offers 0 .audit r ∧ r.request = .auditDay 9000 ∧ s.quiet ∧ r.length < 1328) ∧
    (∃ (s : State) (r : Req), s.offers 0 .audit r ∧ r.request = .auditDay 9000 ∧ s.quiet ∧ r.addr ≠ 0 ∧ r.length = 1328 ∧
      s.works.audit.isSome) ∧
    (∃ (s : State) (r : Req), s.offers 0 .audit r ∧ r.request = .auditDay 9000 ∧ s.quiet ∧ r.addr ≠ 0 ∧ r.length = 1328 ∧
      s.works.audit = none ∧ tblGet 9000 s.works.days = none) ∧
    ∃ (s : State) (r : Req) (e : DayEntry), s.offers 0 .audit r ∧ r.request = .auditDay 9000 ∧ s.quiet ∧ r.addr ≠ 0 ∧ r.length = 1328 ∧
      s.works.audit = none ∧ tblGet 9000 s.works.days = some e ∧ e.going = false :=
  ⟨⟨asksAt idle (.auditDay 9000) 64 1327, _, offAt idle (.auditDay 9000) 64 1327 (by decide), rfl, rfl, by decide⟩,
    ⟨asksAt { idle with audit := some ⟨false, 1, 8999, none, .none, ⟨0, 0, 0⟩, [], 0, 0, 0, 0, [], 0, false, false, []⟩ } (.auditDay 9000) 64
        1328, _,
      offAt { idle with audit := some ⟨false, 1, 8999, none, .none, ⟨0, 0, 0⟩, [], 0, 0, 0, 0, [], 0, false, false, []⟩ } (.auditDay 9000) 64
        1328 (by decide), rfl, rfl, by decide, rfl, rfl⟩,
    ⟨asksAt idle (.auditDay 9000) 64 1328, _, offAt idle (.auditDay 9000) 64 1328 (by decide), rfl, rfl, by decide, rfl, rfl, rfl⟩,
    asksAt (withDay 9000 (.new .closed)) (.auditDay 9000) 64 1328, _, _,
    offAt (withDay 9000 (.new .closed)) (.auditDay 9000) 64 1328 (by decide), rfl, rfl, by decide, rfl, rfl, rfl, rfl⟩

/-- An audit of day 9000 for request 1. -/
def audit0 (draining : Bool) (position : Option (Nat × Key)) (wait : AuditWait) : Audit :=
  ⟨draining, 1, 9000, position, wait, ⟨0, 0, 0⟩, [], 0, 0, 0, 0, [], 0, false, false, []⟩

/-- The part auditing a day of one entry. -/
def audits (a : Audit) (x : Entry) (offline : Bool) : State :=
  has (withReq { withDay 9000 { day0 .closed x with underAudit := true } with
    audit := some a, array := { idle.array with chans := .all { chan0 with online := !offline } } })

/-- Two calls of day 9000. -/
def pair0 : List Rec := [call0 10, call0 20]

/-- The entry of a sheet of those calls. -/
def entry1 : Entry := { entry0 with bodyLen := bodyLength pair0 }

/-- The sheet of those calls, read, agrees with an entry of day 9000 and class 0 (R161). -/
def agrees (e : Entry) : Prop :=
  readSheet (dataImage 9000 0 1 pair0) = some (.data ⟨.data, 0, 9000, 10, 20, 1, 2, bodyLength pair0⟩ pair0) ∧ e.group = 1 ∧
    (2 : Int) = e.totals.count ∧ bodyLength pair0 = e.bodyLen ∧ pair0.head?.map Rec.key = some e.first ∧
    pair0.getLast?.map Rec.key = some e.last ∧ recTotals pair0 = e.totals

theorem witness_AuditWalkTakesTheNextEntryOrStates :
    ((has idle).quiet ∧ (has idle).works.audit = none) ∧
    (∃ s : State, s.quiet ∧ s.works.audit = some (audit0 true none .none)) ∧
    (∃ s : State, s.quiet ∧ s.works.audit = some (audit0 false none (.reading (entry0.ref 9000 0)))) ∧
    (∀ (x : Entry) (offline : Bool),
      (x = { entry0 with quarantined := true } ∨ x = entry0 ∨ x = { entry0 with busy := some .relocation }) →
      ∃ (s : State) (e : DayEntry), s.quiet ∧ s.works.audit = some (audit0 false none .none) ∧ tblGet 9000 s.works.days = some e ∧
        e.going = false ∧ e.walk = [] ++ (0, x) :: [] ∧ (s.works.chan x.slot.ch).online = !offline) ∧
    (∃ (s : State) (e : DayEntry) (r : Req), s.quiet ∧ s.works.audit = some (audit0 false (some (0, entry0.first)) .none) ∧
      tblGet 9000 s.works.days = some e ∧ e.going = false ∧ e.walk = [(0, entry0)] ∧ entry0.first.lt entry0.first = false ∧
      s.works.req 1 = some r ∧ r.discarded = false) ∧
    (∃ (w : Works) (a : Audit), w.audit = some a ∧ a.wait = .reading (entry0.ref 9000 0) ∧
      w.entryAt 9000 0 entry0.first = some { entry0 with busy := some .audit }) ∧
    -- a sheet that agrees with its entry, and one change of the entry or the audit for each finding
    agrees entry1 ∧ ¬ agrees { entry1 with bodyLen := 0 } ∧ ¬ agrees { entry1 with totals := ⟨2, 120, 11⟩ } ∧
    (pair0.map Rec.identity).Nodup ∧ (∀ i ∈ pair0.map Rec.identity, i ∉ (audit0 false none .none).ids) := by
  refine ⟨⟨rfl, rfl⟩, ⟨audits (audit0 true none .none) entry0 false, rfl, rfl⟩,
    ⟨audits (audit0 false none (.reading (entry0.ref 9000 0))) entry0 false, rfl, rfl⟩, ?_,
    ⟨audits (audit0 false (some (0, entry0.first)) .none) entry0 false, _, taken1, rfl, rfl, rfl, rfl, rfl, by decide, rfl, rfl⟩,
    ⟨(audits (audit0 false none (.reading (entry0.ref 9000 0))) { entry0 with busy := some .audit } false).works, _, rfl, rfl, by decide⟩,
    by unfold agrees; decide, by unfold agrees; decide, by unfold agrees; decide, by decide, by decide⟩
  rintro x offline (rfl | rfl | rfl) <;> exact ⟨audits (audit0 false none .none) _ offline, _, rfl, rfl, rfl, rfl, rfl, rfl⟩

/-- The part with one entry and a scrub walk. -/
def scrubs (x : Entry) (b : Scrub) : State := has { withDay 9000 (day0 .closed x) with scrub := b }

theorem witness_ScrubTimerTakesTheNextEntry :
    (State.reset.quiet ∧ State.reset.works.part ≠ .running) ∧
    (∃ s : State, s.quiet ∧ s.works.part = .running ∧ 0 < s.cfg.settings.scrub ∧ s.works.scrub.outstanding.isSome) ∧
    (∃ s : State, s.quiet ∧ s.works.part = .running ∧ 0 < s.cfg.settings.scrub ∧ s.works.scrub.outstanding = none ∧
      s.works.catalogue = [] ++ (9000, 0, entry0) :: [] ∧ entry0.quarantined = false ∧ entry0.busy = none ∧
      (s.works.chan entry0.slot.ch).online = true ∧ s.works.scrub.position = none) ∧
    (∃ s : State, s.quiet ∧ s.works.part = .running ∧ 0 < s.cfg.settings.scrub ∧ s.works.scrub.outstanding = none ∧
      s.works.catalogue = [] ++ (9000, 0, entry0) :: [] ∧ entry0.quarantined = false ∧ entry0.busy = none ∧
      (s.works.chan entry0.slot.ch).online = true ∧ s.works.scrub.position = some (9000, 0, entry0.first) ∧
      entry0.first.lt entry0.first = false) ∧
    (∃ s : State, s.quiet ∧ s.works.part = .running ∧ 0 < s.cfg.settings.scrub ∧ s.works.scrub.outstanding = none ∧
      s.works.catalogue = [(9000, 0, { entry0 with quarantined := true })]) ∧
    (∀ (quarantined : Bool) (busy : Option Holder), ∃ w : Works,
      w.scrub.outstanding = some (entry1.ref 9000 0, entry1.slot) ∧
      w.current (entry1.ref 9000 0) = some { entry1 with quarantined := quarantined, busy := busy }) ∧
    (∃ w : Works, w.scrub.outstanding = some (entry1.ref 9000 0, entry1.slot) ∧ w.current (entry1.ref 9000 0) = none) ∧
    agrees entry1 ∧ ¬ agrees { entry1 with bodyLen := 0 } :=
  ⟨⟨rfl, by decide⟩, ⟨scrubs entry0 { Scrub.initial with outstanding := some (entry0.ref 9000 0, entry0.slot) }, rfl, rfl, by decide, rfl⟩,
    ⟨scrubs entry0 Scrub.initial, rfl, rfl, by decide, rfl, rfl, rfl, rfl, rfl, rfl⟩,
    ⟨scrubs entry0 { Scrub.initial with position := some (9000, 0, entry0.first) }, rfl, rfl, by decide, rfl, rfl, rfl, rfl, rfl, rfl,
      by decide⟩,
    ⟨scrubs { entry0 with quarantined := true } Scrub.initial, rfl, rfl, by decide, rfl, rfl⟩,
    fun quarantined busy =>
      ⟨(scrubs { entry1 with quarantined := quarantined, busy := busy }
        { Scrub.initial with outstanding := some (entry1.ref 9000 0, entry1.slot) }).works, rfl, rfl⟩,
    ⟨{ idle with scrub := { Scrub.initial with outstanding := some (entry1.ref 9000 0, entry1.slot) } }, rfl, rfl⟩,
    by unfold agrees; decide, by unfold agrees; decide⟩

/-! ## Witnesses: sheets and the rebuild -/

theorem witness_VariableLengthIntegersAreTheShortest :
    varLen (2 ^ 56 - 1) = 8 ∧ (varint (2 ^ 56 - 1)).length = 8 ∧ readVar (2 ^ 56) (varint (2 ^ 56 - 1) ++ [7]) = some (2 ^ 56 - 1, [7]) ∧
      readVar 100 [128, 0] = none ∧ (call0 10).valid = true := by decide

/-- Two calls of one account and one of another. -/
def calls0 : List Rec := [call0 10, { call0 10 with seq := 4 }, call0 20]

theorem witness_PackingIsTheGreedyFill :
    recsRising calls0 = true ∧ (∀ r ∈ calls0, r.valid = true ∧ dayOf r.start = 9000) ∧ packSheets calls0 = [calls0] := by decide

theorem witness_DataSheetsReadBackAsWritten : sheetable 9000 0 calls0 = true ∧ (1 : Nat) < 2 ^ 32 := by decide

/-- A DATA candidate of class 0. -/
def cand0 (idx lo hi group : Nat) : DataCand := ⟨⟨0, idx⟩, 0, key0 lo, key0 hi, ⟨1, 60, 5⟩, 40, group⟩

/-- Five candidates under a summary of group 3 that retired accounts 30 to 40: a newer sheet overlaps an older, the second of two copies
goes, one lies in the retired range, and one has a group above the summary's, which voids nothing of the kept one it overlaps. -/
theorem witness_RebuiltDaysStandWithoutOverlap :
    let l := [cand0 0 10 20 1, cand0 1 15 25 3, cand0 2 15 25 3, cand0 3 31 39 2, cand0 4 20 60 4]
    (∀ c ∈ l, c.cls < 8 ∧ c.first.atMost c.last = true) ∧ survivors 3 [⟨0, key0 30, key0 40⟩] l = [cand0 1 15 25 3] := by decide

/-! ## Witnesses: clauses over the units' own steps -/

/-- INGEST PARCEL past the last index, and with a refusal list too short for its record. -/
theorem witness_ParcelIsMalformed :
    (∃ (s : State) (r : Req), s.offers 0 .intake r ∧ r.request = .ingestParcel 5 77 0 (2 ^ 32) 4 [plain0 10] ∧ s.quiet ∧
      2 ^ 32 < 2 ^ 32 + [plain0 10].length) ∧
    ∃ (s : State) (r : Req), s.offers 0 .intake r ∧ r.request = .ingestParcel 5 77 0 0 3 [plain0 10] ∧ s.quiet ∧ r.listAddr ≠ 0 ∧
      3 < 4 * [plain0 10].length :=
  ⟨⟨asks idle (.ingestParcel 5 77 0 (2 ^ 32) 4 [plain0 10]), _, off idle (.ingestParcel 5 77 0 (2 ^ 32) 4 [plain0 10]) (by decide), rfl,
      rfl, by decide⟩,
    has { idle with port := { idle.port with reqs := [{ ask (.ingestParcel 5 77 0 0 3 [plain0 10]) with listAddr := 4096 }] } },
    { ask (.ingestParcel 5 77 0 0 3 [plain0 10]) with listAddr := 4096 },
    ⟨by simp [has, ask, Works.handed, Request.owner], by simp [has, ask, Works.req], rfl, rfl, show (0 : Nat) < 64 by decide⟩, rfl, rfl,
    by decide, by decide⟩

/-- A file that ends while the channel routed for its notice is not ACTIVE. -/
theorem witness_CloseFileKeepsItsNoticePending :
    ∃ (s : State) (r : Req) (f : File), s.offers 0 .intake r ∧ r.request = close0 ∧ s.quiet ∧ (s.works.port.out.get 0).length < 63 ∧
      s.works.intake.find 5 77 = some (0, f) ∧ f.state = .receiving ∧ f.parcel = none ∧ f.target = none ∧ f.saturated = true ∧
      (s.windows.get (s.cfg.settings.routes.getD 4 0)).state ≠ .active :=
  ⟨{ asks (withFile { file0 .receiving with saturated := true }) close0 with windows := .all .initial }, _, _,
    off (withFile { file0 .receiving with saturated := true }) close0 (by decide), rfl, rfl, by decide, rfl, rfl, rfl, rfl, rfl, by decide⟩

/-- The premises of a restored record, with a refusal list. -/
def Restored (s : State) (rec : Plain) (set : List Rec) : Prop :=
  ∃ (f : File) (g : Target) (p : Parcel) (q : Req), s.quiet ∧ tblGet 0 s.works.intake.files = some f ∧ f.target = some g ∧
    f.parcel = some p ∧ p.rest = [rec] ∧ s.works.req p.req = some q ∧ f.restoreSet = set ∧ p.listAddr ≠ 0 ∧ q.discarded = false ∧
    g = ⟨9000, 0, key0 10, key0 20, ⟨2, 120, 10⟩⟩

/-- One record for each outcome: MALFORMED, OUT_OF_RANGE, DUPLICATE, CONFLICT and ACCEPTED. -/
theorem witness_RestoredRecordHasItsFirstOutcome :
    (∀ (rec : Plain) (set : List Rec), ∃ s : State, Restored s rec set) ∧
    { plain0 10 with account := 0 }.malformed = true ∧ (plain0 21).malformed = false ∧
    (key0 20).lt ((plain0 21).held 0).key = true ∧ sameCall (call0 10) ((plain0 10).held 0) = true ∧
    sameCall (call0 10) (({ plain0 10 with dur := 61 } : Plain).held 0) = false ∧
    ([call0 10].find? fun r => decide (r.identity = (({ plain0 10 with dur := 61 } : Plain).held 0).identity)) = some (call0 10) ∧
    ((plain0 10).malformed = false ∧ dayOf (plain0 10).start = 9000 ∧ ((plain0 10).held 0).key.lt (key0 10) = false ∧
      (key0 20).lt ((plain0 10).held 0).key = false) :=
  ⟨fun rec set => ⟨intakeOf idle { restoring [rec] with parcel := some (parcel0 [rec] 4096), restoreSet := set }, _, _, parcel0 [rec] 4096,
      taken1, rfl, rfl, rfl, rfl, rfl, by simp [intakeOf, has, Works.req, taken1, parcel0], rfl, show (4096 : Nat) ≠ 0 by decide, rfl, rfl⟩,
    by decide⟩

/-- An ARCHIVE RESET while a READ CURSOR of request 1 has written one item. -/
theorem test_archive_reset_answers_a_read_with_its_items :
    let w := (withReq (withCursors idle { cursor0 with reading := some { read0 .forward .none with used := 1 } })).refuseReset 1
    w.port.out.get 0 = [⟨9, .refused, some .reset, none, false, false, .read 1 .beforeFirst⟩] ∧ w.port.reqs = [] := by decide

/-- A group of an APPLY of day 9000 in which a stretch is packed. -/
def packed0 (k : Work) (entries : List Entry) (g : Group) : Works :=
  { idle with
    days := [(9000, { DayEntry.new .closed with runs := [⟨0, .live, entries⟩] })]
    packer := { Packer.initial with queue := [⟨3, 9000, k, [], true, none⟩], groups := [g] } }

/-- The stretch of the first entry, packed into one small sheet. -/
def small0 : Packed := ⟨0, [entry0.first], [pair0]⟩

/-- The entry after it. -/
def next0 : Entry := { entry0 with first := key0 30, last := key0 40, slot := ⟨0, 6⟩ }

/-- An output of a group. -/
def output0 (slot : Option SlotAddr) : Output := ⟨0, key0 10, key0 20, ⟨2, 120, 10⟩, 40, [], slot⟩

/-- Each step of a group's packing and posting: a stretch to take, none left, a small last sheet with a next sheet of its run, that sheet
read, and an output admitted and LIVE. -/
theorem witness_PackingStepsFollow :
    (∀ g : Group, g.id = 4 → g.item = 3 → g.day = 9000 → ∀ (k : Work) (entries : List Entry), ∃ (w : Works) (e : DayEntry) (i : Item),
      w.group g.id = some g ∧ w.day g.day = some e ∧ w.item g.item = some i ∧ i.work = k ∧ e.runEntries 0 = entries) ∧
    (∃ g : Group, g.id = 4 ∧ g.item = 3 ∧ g.day = 9000 ∧ g.phase = .packing ∧ g.coalescing = none ∧ g.current = none ∧
      g.todo = [⟨0, [entry0.first], pair0⟩]) ∧
    (small0.sheets ≠ [] ∧ bodyLength ((small0.sheets.getLast?).getD []) < 1016 ∧ small0.olds.getLast? = some entry0.first ∧
      ([entry0, next0].find? fun m => entry0.first.lt m.first) = some next0 ∧ next0.quarantined = false ∧ next0.busy = none) ∧
    (bodyLength (pair0 ++ imageRecs (dataImage 9000 0 1 [call0 30])) ≤ 4064 ∧
      (pair0 ++ imageRecs (dataImage 9000 0 1 [call0 30])).length ≤ 512) ∧
    (∃ (w : Works) (n : Entry), w.entryAt 9000 0 next0.first = some n ∧ n.busy = some (.item 3)) ∧
    ([output0 none][0]? = some (output0 none) ∧ [output0 none][1]? = none) := by
  refine ⟨fun g hg hi hd k entries => ?_, ⟨{ group0 with todo := [⟨0, [entry0.first], pair0⟩] }, rfl, rfl, rfl, rfl, rfl, rfl, rfl⟩,
    by decide, by decide, ⟨packed0 (.apply 0 []) [{ next0 with busy := some (.item 3) }] group0, { next0 with busy := some (.item 3) },
      by decide, rfl⟩, rfl, rfl⟩
  refine ⟨packed0 k entries g, { DayEntry.new .closed with runs := [⟨0, .live, entries⟩] }, ⟨3, 9000, k, [], true, none⟩, ?_, ?_, ?_, rfl,
    rfl⟩
  · simp [packed0, Works.group]
  · rw [hd]; rfl
  · rw [hi]; rfl

/-- Items whose claims can be set, and an entry that is claimed already. -/
theorem witness_AScanTakesItsItems :
    ((queued0 (.merge 0) [] entry0).packer.groups = [] ∧
      (let w : Works := { queued0 (.merge 0) [] entry0 with intake := { Intake.initial with late := [⟨(call0 15).asLate, 0, 0⟩] } }
       (w.mergeable 9000 0).1 = [⟨(call0 15).asLate, 0, 0⟩])) ∧
    (let w := queued0 (.apply 0 [apply0]) [] entry0
     w.applyQuarantined 9000 0 [apply0] = none ∧ rangesFit (w.applyRanges 9000 [apply0]) = true ∧
      w.applyEntry 9000 apply0 = some entry0) ∧
    rangesFit (List.replicate 257 ⟨0, key0 10, key0 20⟩) = false ∧
    ((queued0 (.retire [entry0.ref 9000 0]) [] entry0).current (entry0.ref 9000 0) = some entry0 ∧
      (queued0 (.retire [entry0.ref 9000 0]) [pendingOf0] entry0).pendingIn 9000 entry0.first entry0.last = true) ∧
    (let w : Works := { queued0 (.restore 0 0 (key0 10)) [] { entry0 with quarantined := true } with
      intake := { Intake.initial with files := [(0, { restoring [] with restoreSet := pair0 })] } }
     w.entryAt 9000 0 (key0 10) = some { entry0 with quarantined := true } ∧ packSheets pair0 = [pair0] ∧
      pair0.head?.map (fun r => r.key) = some (key0 10) ∧ pair0.getLast?.map (fun r => r.key) = some (key0 20) ∧
      (w.file 0).map (fun f => f.restoreSet) = some pair0) ∧
    (∀ busy : Option Holder, busy = none ∨ busy = some .audit →
      ∃ e : Entry, e = { entry0 with busy := busy } ∧ e.busy = busy ∧ e.quarantined = false) :=
  ⟨by decide, by decide, by decide +kernel, by decide, by decide, fun busy _ => ⟨{ entry0 with busy := busy }, rfl, rfl, rfl⟩⟩

/-- The units with a lookup of account 10's call in progress for request 1. -/
def looking (w : Works) (images : List HeldImage) (wait : EnquiryWait) (vis : Visibility) : Works :=
  withReq { w with enquiry := ⟨[], [⟨1, ⟨9000, 10, 12, 3⟩, vis, images, [], wait⟩]⟩ }

/-- A lookup carried out: the day absent, a sheet to read, a record read, staged or late, a sheet QUARANTINED, and a sheet awaited. -/
theorem witness_ALookupIsCarriedOut :
    (∀ (days : Tbl DayEntry) (late : List LateRec) (images : List HeldImage) (wait : EnquiryWait) (vis : Visibility),
      ∃ (w : Works) (l : Lookup) (q : Req), w.days = days ∧ w.intake.late = late ∧
        w.enquiry.lookups.find? (fun k => decide (k.req = l.req)) = some l ∧ w.req l.req = some q ∧ q.discarded = false ∧
        (w.port.out.get q.ch).length < 64 ∧ l.images = images ∧ l.wait = wait ∧ l.visibility = vis) ∧
    (looking idle [] .none .wait).liveDay 9000 = none ∧
    (looking (withDay 9000 (day0 .closed entry0)) [] .none .wait).accountEntries 9000 10 = [(0, entry0)] ∧
    (heldImage [⟨entry0.ref 9000 0, pair0⟩] (entry0.ref 9000 0) = some pair0 ∧
      pair0.find? (fun r => decide (r.identity = ⟨9000, 10, 12, 3⟩)) = some (call0 10)) ∧
    (looking (withDay 9000 (day0 .closed { entry0 with quarantined := true })) [] .none .wait).accountEntries 9000 10 =
      [(0, { entry0 with quarantined := true })] ∧
    (call0 10).asLate.identity = ⟨9000, 10, 12, 3⟩ :=
  ⟨fun days late images wait vis =>
      ⟨looking { idle with days := days, intake := { Intake.initial with late := late } } images wait vis,
        ⟨1, ⟨9000, 10, 12, 3⟩, vis, images, [], wait⟩, taken1, rfl, rfl, rfl, rfl, rfl, show (0 : Nat) < 64 by decide, rfl, rfl, rfl⟩,
    rfl, by decide, by decide, by decide, by decide⟩

/-- The start of a rewrite of accounts 100 to 199 with two releases of one dispute, with an owed range and with no entry left; and an
image of a rewrite LIVE, with a part left and as the last. -/
theorem witness_ARewriteTakesItsRequests :
    (∀ (holds : Tbl HoldEntry) (wait : List HoldReq) (owed : Bool) (sheet : Option (SlotAddr × Nat)), ∃ (w : Works) (r : HoldRange),
      w.retention.ranges.find? (fun a => decide (a.lo = r.lo)) = some r ∧ r.rewrite = none ∧ r.wait = wait ∧ r.owed = owed ∧
      r.sheet = sheet ∧ r.lo = 100 ∧ r.hi = 199 ∧ w.retention.holds = holds ∧ w.req 1 = some taken1 ∧ taken1.discarded = false ∧
      (w.port.out.get taken1.ch).length < 64) ∧
    (∀ parts : List HoldPart, ∃ (w : Works) (r : HoldRange) (v : Rewrite), w.retention.rewriting 8 = some r ∧ r.rewrite = some v ∧
      v.posted = some (100, 199, 4) ∧ v.parts = parts) :=
  ⟨fun holds wait owed sheet =>
      ⟨withReq { idle with retention := { Retention.initial with holds := holds, ranges := [⟨100, 199, sheet, wait, owed, none⟩] } },
        ⟨100, 199, sheet, wait, owed, none⟩, rfl, rfl, rfl, rfl, rfl, rfl, rfl, rfl, rfl, rfl, show (0 : Nat) < 64 by decide⟩,
    fun parts =>
      ⟨{ idle with retention := { Retention.initial with ranges := [⟨100, 199, none, [], false, some ⟨8, [], parts, some (100, 199, 4), []⟩⟩] } },
        _, _, rfl, rfl, rfl, rfl⟩⟩

/-- R150: of two releases of an account's one dispute the first is taken and the second refused STATE. R148: 241 entries make three parts of
81, 80 and 80. -/
theorem test_a_rewrite_settles_and_divides :
    let q (id : Nat) : HoldReq := ⟨id, 150, .dispute, false⟩
    settleReleases [(150, ⟨1, none⟩)] [q 1, q 2] = ([q 1], [q 2]) ∧
      (holdParts 1 999 ((List.range 241).map fun n => (n + 1, ⟨1, none⟩))).map (fun p => (p.lo, p.hi, p.rows.length)) =
        [(1, 81, 81), (82, 161, 80), (162, 999, 80)] := by decide +kernel

/-- The sweep's read of an entry of day 8000 completed, by the walk and at a revisit. -/
theorem witness_ASweepReadCompletes :
    (∀ (walk : Bool) (x : Entry) (holds : Tbl HoldEntry) (pending : List PendingEntry), ∃ (w : Works) (sw : Sweep) (v : Visit),
      w.retention.sweep = some sw ∧
      sw.visits.find? (fun u => decide (u.day = (entry8.ref 8000 0).day) && decide (u.cls = (entry8.ref 8000 0).cls)) = some v ∧
      v.reading = some (entry8.ref 8000 0) ∧ v.walk = walk ∧ w.days = [(8000, day0 .closed x)] ∧ w.retention.holds = holds ∧
      w.amend.pending = pending ∧ sw.refusedItems = [] ∧ w.packer.queue.length < 1024) ∧
    (let b := dataImage 8000 0 1 pair0
     ((imageRecs b).map fun c => c.account).eraseDups = [10, 20] ∧
      ([10, 20].filter fun k => (tblGet k ([(15, ⟨1, none⟩)] : Tbl HoldEntry)).isSome) = [] ∧
      ([10, 20].filter fun k => (tblGet k ([(20, ⟨1, none⟩)] : Tbl HoldEntry)).isSome) = [20] ∧
      ([10, 20].filter fun k => (tblGet k ([(10, ⟨1, none⟩), (20, ⟨1, none⟩)] : Tbl HoldEntry)).isSome) = [10, 20]) :=
  ⟨fun walk x holds pending =>
      let v : Visit := { visit0 with reading := some (entry8.ref 8000 0), walk := walk }
      let sw : Sweep := { sweep0 with visits := [v] }
      ⟨{ withDay 8000 (day0 .closed x) with
          amend := ⟨.all .empty, pending⟩, retention := { Retention.initial with holds := holds, sweep := some sw } }, sw, v, rfl, rfl, rfl,
        rfl, rfl, rfl, rfl, rfl, show (0 : Nat) < 1024 by decide⟩,
    by decide⟩

/-- An audit that waits for the release of its entry. -/
theorem witness_AnAuditWaitsForARelease :
    (∀ (quarantined : Bool) (busy : Option Holder) (offline : Bool), ∃ s : State, s.quiet ∧
      s.works.audit = some (audit0 false (some (0, entry0.first)) (.release (entry0.ref 9000 0))) ∧
      s.works.entryAt 9000 0 entry0.first = some { entry0 with quarantined := quarantined, busy := busy } ∧ (∀ mc, (s.works.chan mc).relocation = none) ∧
      (s.works.chan 0).online = !offline) ∧
    (∃ s : State, s.quiet ∧ s.works.audit = some (audit0 false (some (0, entry0.first)) (.release (entry0.ref 9000 0))) ∧
      s.works.entryAt 9000 0 entry0.first = none) ∧
    ∃ (s : State) (r : Req), s.quiet ∧ s.works.audit = some (audit0 false (some (0, entry0.first)) .none) ∧
      (∃ e : DayEntry, tblGet 9000 s.works.days = some e ∧ e.going = false ∧ e.walk = [(0, entry0)]) ∧
      s.works.req 1 = some r ∧ r.discarded = true := by
  refine ⟨fun quarantined busy offline => ⟨audits (audit0 false (some (0, entry0.first)) (.release (entry0.ref 9000 0)))
      { entry0 with quarantined := quarantined, busy := busy } offline, rfl, rfl, rfl, ?_, rfl⟩,
    ⟨has { idle with audit := some (audit0 false (some (0, entry0.first)) (.release (entry0.ref 9000 0))) }, rfl, rfl, rfl⟩,
    has { (audits (audit0 false (some (0, entry0.first)) .none) entry0 false).works with
      port := { Port.initial with reqs := [{ taken1 with discarded := true }] } }, _, rfl, rfl, ⟨_, rfl, rfl, rfl⟩, rfl, rfl⟩
  · intro mc
    fin_cases mc <;> rfl

/-- A summary of day 9000. -/
def sum0 (gone : Bool) : Summary := ⟨gone, .zero, .zero, .zero, .zero, []⟩

/-- The candidates of day 9000: two summaries, the later day-gone or not, a sheet, and two hold sheets, the newer over part of the older. -/
def cands0 (gone : Bool) : List Cand :=
  [⟨⟨0, 0⟩, .summary 9000 1 (sum0 false)⟩, ⟨⟨0, 1⟩, .data 9000 0 (key0 10) (key0 20) ⟨2, 120, 10⟩ 40 1⟩,
    ⟨⟨0, 2⟩, .summary 9000 2 (sum0 gone)⟩, ⟨⟨0, 3⟩, .hold 1 100 1 [(10, ⟨1, none⟩), (60, ⟨2, none⟩)]⟩,
    ⟨⟨0, 4⟩, .hold 50 200 2 [(70, ⟨0, some ⟨8000, some 9000⟩⟩)]⟩]

/-- A resolution of those candidates, and the rebuild's last void mark and one before it. -/
theorem witness_ResolutionEndsTheRebuild :
    (∀ gone : Bool, ∃ w : Works, w.part = .rebuilding ∧ w.rebuild.resolved = false ∧ (cands0 gone).Perm w.rebuild.cands ∧
      (cands0 gone).Pairwise (fun a b => slotLt a.slot b.slot = true)) ∧
    ((∀ c ∈ cands0 false, ∀ lo hi g rows, c.content = .hold lo hi g rows →
      1 ≤ lo ∧ lo ≤ hi ∧ hi ≤ 999999999999999 ∧ tblSorted rows = true)) ∧
    ∀ marks : Nat, ∃ w : Works, w.part = .rebuilding ∧ w.rebuild.resolved = true ∧ w.port.notices.length = 8 ∧ w.rebuild.marks = marks := by
  refine ⟨fun gone => ⟨{ idle with part := .rebuilding, rebuild := { Rebuild.initial with cands := cands0 gone } }, rfl, rfl, .refl _, ?_⟩,
    ?_, fun marks => ⟨{ idle with part := .rebuilding, rebuild := { Rebuild.initial with resolved := true, marks := marks } }, rfl, rfl,
      rfl, rfl⟩⟩
  · cases gone <;> decide
  · intro c hc lo hi g rows h
    fin_cases hc <;> cases h <;> decide

/-- R179 and R181: a day-gone summary voids its day, else the lower summary alone goes; of two hold sheets the newer has its span, an entry
whose release day is today or before is not taken, and the quarantine that an audit asked for stands (notes/assumptions/62.md). -/
theorem test_resolution_of_days_and_holds :
    resolveDay [] 9000 (cands0 true) = (none, []) ∧ (resolveDay [] 9000 (cands0 false)).2 = [⟨0, 2⟩, ⟨0, 1⟩] ∧
      ((resolveDay [⟨9000, 0, key0 10, 1⟩] 9000 (cands0 false)).1.map fun e => e.entries.map fun x => x.quarantined) = some [true] ∧
      (let r := (rebuiltRetention 9000 (cands0 false)).1
       r.holds = [(10, ⟨1, none⟩)] ∧ r.lastGeneration = 2 ∧
        r.ranges.map (fun a => (a.lo, a.hi, a.sheet, a.owed)) =
          [(1, 49, some (⟨0, 3⟩, 1), true), (50, 200, some (⟨0, 4⟩, 2), true), (201, 999999999999999, none, false)]) := by decide

end Sys2Proof.Tests
end

section
/-!
SUPPORT. Variable-length integers (R15): the coded length as a logarithm, what each byte of a coding holds, that reading and coding
are inverse, and that every variable-length field of a held record lies within 8 bytes.
-/

namespace Sys2Proof.Machine

/-! ## The coding -/

theorem varintAux_of_lt {v : Nat} (n : Nat) (h : v < 128) : varintAux n v = [BitVec.ofNat 8 v] := by
  cases n with
  | zero => rfl
  | succ n => exact if_pos h

theorem varintAux_succ_of_le {v : Nat} (n : Nat) (h : 128 ≤ v) :
    varintAux (n + 1) v = BitVec.ofNat 8 (128 + v % 128) :: varintAux n (v / 128) :=
  if_neg (by omega)

/-- A value for `n + 2` bytes has, above its lowest group, a value for `n + 1`. -/
theorem div_lt_pow_of_lt {v n : Nat} (h : v < 128 ^ (n + 2)) : v / 128 < 128 ^ (n + 1) :=
  Nat.div_lt_of_lt_mul (by rwa [pow_succ'] at h)

theorem length_varintAux {v n : Nat} (h : v < 128 ^ (n + 1)) : (varintAux n v).length = Nat.log 128 v + 1 := by
  induction n generalizing v with
  | zero => simp [varintAux, Nat.log_of_lt (show v < 128 by simpa using h)]
  | succ n ih =>
    obtain hv | hv := Nat.lt_or_ge v 128
    · simp [varintAux_of_lt _ hv, Nat.log_of_lt hv]
    · rw [varintAux_succ_of_le n hv, List.length_cons, ih (div_lt_pow_of_lt h), Nat.log_of_one_lt_of_le (by decide) hv]

/-- The one byte of a value below 128 is its one group, with the top bit clear. -/
theorem getD_varintAux_of_lt {v n i : Nat} (hv : v < 128) (hi : i < (varintAux n v).length) :
    ((varintAux n v).getD i 0).toNat = v / 128 ^ i % 128 + if i + 1 < (varintAux n v).length then 128 else 0 := by
  rw [varintAux_of_lt n hv] at hi ⊢
  obtain rfl : i = 0 := by simpa using hi
  have hv8 : v % 256 = v % 128 := by omega
  simpa using hv8

/-- The byte at place `i` holds the `i`-th group of 7 bits, and the top bit in every byte but the last. -/
theorem getD_varintAux {v n : Nat} (h : v < 128 ^ (n + 1)) {i : Nat} (hi : i < (varintAux n v).length) :
    ((varintAux n v).getD i 0).toNat = v / 128 ^ i % 128 + if i + 1 < (varintAux n v).length then 128 else 0 := by
  induction n generalizing v i with
  | zero => exact getD_varintAux_of_lt (by simpa using h) hi
  | succ n ih =>
    obtain hv | hv := Nat.lt_or_ge v 128
    · exact getD_varintAux_of_lt hv hi
    · rw [varintAux_succ_of_le n hv] at hi ⊢
      cases i with
      | zero =>
        have hmore : 0 < (varintAux n (v / 128)).length := by simp [length_varintAux (div_lt_pow_of_lt h)]
        have hbyte : (128 + v % 128) % 256 = v % 128 + 128 := by omega
        simpa [hmore] using hbyte
      | succ i =>
        have hrest := ih (div_lt_pow_of_lt h) (i := i) (by simpa using hi)
        simpa [Nat.div_div_eq_div_mul, ← pow_succ'] using hrest

/-! ## The coded length -/

theorem varLen_eq_log {v : Nat} (h : v < 2 ^ 56) : varLen v = Nat.log 128 v + 1 := by
  have length_eq {k : Nat} (hlo : 128 ^ k ≤ v) (hhi : v < 128 ^ (k + 1)) : k + 1 = Nat.log 128 v + 1 := by
    rw [Nat.log_eq_of_pow_le_of_lt_pow hlo hhi]
  unfold varLen
  split_ifs with h1 h2 h3 h4 h5 h6 h7
  · rw [Nat.log_of_lt h1]
  all_goals exact length_eq (by omega) (by omega)

/-- The coded length is the smallest `n` of at least 1 with `v < 128 ^ n` (R15). -/
theorem varLen_le_iff {v : Nat} (h : v < 2 ^ 56) {n : Nat} (hn : 1 ≤ n) : varLen v ≤ n ↔ v < 128 ^ n := by
  rw [varLen_eq_log h, Nat.succ_le_iff]
  exact ⟨Nat.lt_pow_of_log_lt (by decide), Nat.log_lt_of_lt_pow' (by omega)⟩

theorem varLen_pos {v : Nat} (h : v < 2 ^ 56) : 1 ≤ varLen v := by simp [varLen_eq_log h]

theorem length_varint {v : Nat} (h : v < 2 ^ 56) : (varint v).length = varLen v := by
  rw [varLen_eq_log h]
  exact length_varintAux (n := 7) (by simpa using h)

theorem getD_varint {v : Nat} (h : v < 2 ^ 56) {i : Nat} (hi : i < varLen v) :
    ((varint v).getD i 0).toNat = v / 128 ^ i % 128 + if i + 1 < varLen v then 128 else 0 := by
  rw [← length_varint h] at hi ⊢
  exact getD_varintAux (n := 7) (by simpa using h) hi

/-! ## Reading -/

theorem readVarAux_cons_of_lt {b : Byte} (h : b.toNat < 128) (n : Nat) (l : Bytes) :
    readVarAux (n + 1) (b :: l) = some (b.toNat, l) :=
  if_pos h

/-- A byte with its top bit set is followed by a coding, not that of 0, of the groups above its own. -/
theorem readVarAux_cons_of_le {b : Byte} (h : 128 ≤ b.toNat) {n : Nat} {l rest : Bytes} {v : Nat} :
    readVarAux (n + 1) (b :: l) = some (v, rest) ↔
      ∃ w, w ≠ 0 ∧ readVarAux n l = some (w, rest) ∧ v = b.toNat - 128 + 128 * w := by
  rw [readVarAux, if_neg (by omega)]
  cases hr : readVarAux n l with
  | none => simp
  | some p =>
    obtain ⟨w, rest'⟩ := p
    by_cases hw : w = 0
    · simp [hw]
    · simp only [hw, ↓reduceIte, Option.some.injEq, Prod.mk.injEq]
      constructor
      · rintro ⟨rfl, rfl⟩
        exact ⟨w, hw, ⟨rfl, rfl⟩, rfl⟩
      · rintro ⟨_, _, ⟨rfl, rfl⟩, rfl⟩
        exact ⟨rfl, rfl⟩

theorem readVarAux_varintAux_of_lt {v : Nat} (n : Nat) (h : v < 128) (rest : Bytes) :
    readVarAux (n + 1) (varintAux n v ++ rest) = some (v, rest) := by
  have hb : (BitVec.ofNat 8 v).toNat = v := by rw [BitVec.toNat_ofNat]; omega
  rw [varintAux_of_lt n h, List.singleton_append, readVarAux_cons_of_lt (by omega), hb]

/-- A value for `n + 1` bytes is read back from its coding, and the bytes after it are left. -/
theorem readVarAux_varintAux {v n : Nat} (h : v < 128 ^ (n + 1)) (rest : Bytes) :
    readVarAux (n + 1) (varintAux n v ++ rest) = some (v, rest) := by
  induction n generalizing v with
  | zero => exact readVarAux_varintAux_of_lt 0 (by simpa using h) rest
  | succ n ih =>
    obtain hv | hv := Nat.lt_or_ge v 128
    · exact readVarAux_varintAux_of_lt (n + 1) hv rest
    · have hb : (BitVec.ofNat 8 (128 + v % 128)).toNat = 128 + v % 128 := by rw [BitVec.toNat_ofNat]; omega
      rw [varintAux_succ_of_le n hv, List.cons_append, readVarAux_cons_of_le (by omega)]
      exact ⟨v / 128, by omega, ih (div_lt_pow_of_lt h), by omega⟩

/-- What is read is a value for that many bytes, and the bytes begin with its coding. -/
theorem eq_varintAux_of_readVarAux {n v : Nat} {b rest : Bytes} (h : readVarAux (n + 1) b = some (v, rest)) :
    v < 128 ^ (n + 1) ∧ b = varintAux n v ++ rest := by
  induction n generalizing v b with
  | zero =>
    cases b with
    | nil => cases h
    | cons x l =>
      obtain hx | hx := Nat.lt_or_ge x.toNat 128
      · rw [readVarAux_cons_of_lt hx] at h
        cases h
        exact ⟨by simpa using hx, by simp [varintAux]⟩
      · obtain ⟨w, _, hr, _⟩ := (readVarAux_cons_of_le hx).mp h
        cases hr
  | succ n ih =>
    cases b with
    | nil => cases h
    | cons x l =>
      obtain hx | hx := Nat.lt_or_ge x.toNat 128
      · rw [readVarAux_cons_of_lt hx] at h
        cases h
        exact ⟨hx.trans_le (Nat.le_self_pow (by omega) 128), by simp [varintAux_of_lt _ hx]⟩
      · obtain ⟨w, hw, hr, rfl⟩ := (readVarAux_cons_of_le hx).mp h
        obtain ⟨hlt, rfl⟩ := ih hr
        have hx8 := x.isLt
        refine ⟨by rw [pow_succ']; omega, ?_⟩
        have hdiv : (x.toNat - 128 + 128 * w) / 128 = w := by omega
        have hmod : 128 + (x.toNat - 128 + 128 * w) % 128 = x.toNat := by omega
        rw [varintAux_succ_of_le n (by omega), hdiv, hmod]
        simp

/-- A limit refuses the values above it and nothing else. -/
theorem readVar_eq_some_iff_readVarAux {max v : Nat} {b rest : Bytes} :
    readVar max b = some (v, rest) ↔ v ≤ max ∧ readVarAux 8 b = some (v, rest) := by
  rw [readVar]
  cases readVarAux 8 b with
  | none => simp
  | some p =>
    obtain ⟨w, rest'⟩ := p
    simp only [Option.ite_none_right_eq_some, Option.some.injEq, Prod.mk.injEq]
    exact and_congr_left fun ⟨hw, _⟩ => by rw [hw]

/-- Reading accepts exactly the coding of a value within the limit (R15). -/
theorem readVar_eq_some_iff {max v : Nat} {b rest : Bytes} :
    readVar max b = some (v, rest) ↔ v ≤ max ∧ v < 2 ^ 56 ∧ b = varint v ++ rest := by
  rw [readVar_eq_some_iff_readVarAux]
  refine and_congr_right fun _ => ⟨fun h => ?_, fun ⟨hv, hb⟩ => ?_⟩
  · obtain ⟨hlt, hb⟩ := eq_varintAux_of_readVarAux h
    exact ⟨by simpa using hlt, hb⟩
  · rw [hb]
    exact readVarAux_varintAux (n := 7) (by simpa using hv) rest

/-! ## The fields of a held record -/

/-- The ranges of the fields that a coded record gives as variable-length integers (R1, R17). -/
theorem Rec.valid_ranges {r : Rec} (h : r.valid = true) :
    r.account ≤ Config.maxAccount ∧ r.switch ≤ 4095 ∧ r.seq < 2 ^ 48 ∧ r.start < 2 ^ 32 ∧ r.dur ≤ 1048575 ∧
      r.charge ≤ 2147483647 ∧ (∀ c, r.cell = some c → c ≤ 268435455) ∧ ∀ v, r.volume = some v → v ≤ 1099511627775 := by
  simp only [Rec.valid, accountValid, Bool.and_eq_true, decide_eq_true_eq, Option.all_eq_true, and_assoc] at h
  obtain ⟨-, haccount, hswitch, hseq, hstart, hdur, hcharge, -, -, hcell, hvolume, -, -⟩ := h
  exact ⟨haccount, hswitch, hseq, hstart, hdur, hcharge, hcell, hvolume⟩

theorem accountDelta_le (prev : Option Rec) (r : Rec) : accountDelta prev r ≤ r.account := by
  cases prev with
  | none => exact Nat.zero_le _
  | some p => exact Nat.sub_le _ _

theorem startField_le (prev : Option Rec) (r : Rec) : startField prev r ≤ r.start := by
  cases prev with
  | none => exact Nat.mod_le _ _
  | some p =>
    rw [startField]
    split
    · exact Nat.sub_le _ _
    · exact Nat.mod_le _ _

/-- Settles O57: the length is a logarithm, the bytes and the reading go by induction on the bytes left. -/
theorem variableLengthIntegersAreTheShortest : Obligations.VariableLengthIntegersAreTheShortest := by
  refine ⟨fun v hv => ?_, fun max v b rest => readVar_eq_some_iff, fun prev r hr => ?_, by decide⟩
  · exact ⟨varLen_pos hv, (varLen_le_iff hv (by decide)).mpr hv, (varLen_le_iff hv (varLen_pos hv)).mp le_rfl,
      fun n hn hlt => (varLen_le_iff hv hn).mpr hlt, length_varint hv, fun i hi => getD_varint hv hi⟩
  · obtain ⟨haccount, hswitch, hseq, hstart, hdur, hcharge, hcell, hvolume⟩ := Rec.valid_ranges hr
    have hdelta := accountDelta_le prev r
    have hoffset := startField_le prev r
    rw [Config.maxAccount] at haccount
    exact ⟨by omega, by omega, by omega, by omega, by omega, by omega,
      fun c hc => (hcell c hc).trans_lt (by decide), fun v hv => (hvolume v hv).trans_lt (by decide)⟩

end Sys2Proof.Machine
end

section
/-!
SUPPORT. FORGET_FILE (R70): what the lookup of a key finds once its slot is dropped, the three outcomes of the command at the units, and
the command as those outcomes without consequences.
-/

namespace Sys2Proof.Machine

/-! ## The File Table -/

theorem Intake.find_eq_none_iff (i : Intake) (source fileId : Nat) :
    i.find source fileId = none ↔ ∀ p ∈ i.files, p.2.source = source → p.2.fileId ≠ fileId := by
  simp [Intake.find]

/-- When every record of a key stands in one slot, the key is not found once that slot is dropped. -/
theorem Intake.find_tblDrop_eq_none (i : Intake) {source fileId slot : Nat}
    (hone : ∀ p ∈ i.files, p.2.source = source → p.2.fileId = fileId → p.1 = slot) :
    ({ i with files := tblDrop slot i.files } : Intake).find source fileId = none := by
  refine (Intake.find_eq_none_iff _ _ _).mpr fun p hp hsource hfile => ?_
  obtain ⟨hmem, hslot⟩ := mem_tblDrop slot i.files p hp
  exact hslot (hone p hmem hsource hfile)

/-! ## The three outcomes -/

theorem Works.forgetFile_of_absent {w : Works} {source fileId : Nat} (r : Req) (h : w.intake.find source fileId = none) :
    w.forgetFile r source fileId = w.refuse r.id .notFound := by
  simp [Works.forgetFile, h]

theorem Works.forgetFile_of_unsettled {w : Works} {source fileId slot : Nat} {f : File} (r : Req)
    (h : w.intake.find source fileId = some (slot, f)) (hlive : f.state = .receiving ∨ f.state = .settling ∨ 0 < f.outstanding) :
    w.forgetFile r source fileId = w.refuse r.id .state := by
  simp [Works.forgetFile, h, hlive]

theorem Works.forgetFile_of_settled {w : Works} {source fileId slot : Nat} {f : File} (r : Req)
    (h : w.intake.find source fileId = some (slot, f)) (hrec : f.state ≠ .receiving) (hset : f.state ≠ .settling)
    (hout : f.outstanding = 0) :
    w.forgetFile r source fileId =
      ({ w with intake := { w.intake with files := tblDrop slot w.intake.files } } : Works).done r.id .empty := by
  simp [Works.forgetFile, h, hrec, hset, hout]

/-! ## The command -/

/-- The command hands its request to the File Table. -/
theorem exec_forgetFile_of_offers {ch : Fin 4} {s : State} {r : Req} {source fileId : Nat} (ho : s.offers ch .intake r)
    (hr : r.request = .forgetFile source fileId) :
    exec (.forgetFile ch) s = s.settled (s.works.forgetFile r source fileId) :=
  State.serve_some s ch .intake _ r _ ho.1 (by simp only [hr])

/-- A unit that does no more than refuse an offered request leaves no consequence to settle. -/
theorem State.settled_refuse {ch : Fin 4} {o : Owner} {s : State} {r : Req} (ho : s.offers ch o r) (hq : s.quiet) (reason : Reason) :
    s.settled (s.works.refuse r.id reason) = .next (s.refusing r reason) := by
  rw [State.offers_refuse s ch o r reason ho]
  exact State.settled_quiet s _ hq

/-- A unit that has changed its own state alone and answers the offered request DONE leaves no consequence to settle. -/
theorem State.settled_done {ch : Fin 4} {o : Owner} {s : State} {r : Req} {w : Works} (ho : s.offers ch o r)
    (hport : w.port = s.works.port) (htasks : w.tasks = []) (res : Result) :
    s.settled (w.done r.id res) = .next { s with works := { w with port := s.works.port.answered r .done none res } } := by
  obtain ⟨_, hreq, rfl, hheard, hroom⟩ := ho
  rw [Works.req, ← hport] at hreq
  rw [← hport] at hroom ⊢
  rw [Works.done, Works.reply_answered w r _ _ _ hreq hheard hroom]
  exact State.settled_quiet s _ htasks

/-- A file neither RECEIVING nor SETTLING with nothing outstanding is dropped and the request answered DONE. -/
theorem exec_forgetFile_of_settled {ch : Fin 4} {s : State} {r : Req} {source fileId slot : Nat} {f : File}
    (ho : s.offers ch .intake r) (hr : r.request = .forgetFile source fileId) (hq : s.quiet)
    (hf : s.works.intake.find source fileId = some (slot, f)) (hrec : f.state ≠ .receiving) (hset : f.state ≠ .settling)
    (hout : f.outstanding = 0) :
    exec (.forgetFile ch) s = .next
      { s with
        works := { s.works with
          intake := { s.works.intake with files := tblDrop slot s.works.intake.files }
          port := s.works.port.answered r .done none .empty } } := by
  rw [exec_forgetFile_of_offers ho hr, Works.forgetFile_of_settled r hf hrec hset hout, State.settled_done ho]
  case hport => rfl
  case htasks => exact hq

/-- Settles O26: a refusal and an answer leave no consequence to settle, and a dropped slot leaves no record of the
one key that stood in it. -/
theorem forgetFileFreesTheSlot : Obligations.ForgetFileFreesTheSlot := by
  intro ch s r source fileId ho hr hq
  refine ⟨fun habsent => ?_, fun slot f hf => ⟨fun hlive => ?_, fun hrec hset hout => ?_⟩⟩
  · rw [exec_forgetFile_of_offers ho hr, Works.forgetFile_of_absent r habsent]
    exact State.settled_refuse ho hq .notFound
  · rw [exec_forgetFile_of_offers ho hr, Works.forgetFile_of_unsettled r hf hlive]
    exact State.settled_refuse ho hq .state
  · exact ⟨tblDrop slot s.works.intake.files, exec_forgetFile_of_settled ho hr hq hf hrec hset hout, tblGet_drop_self slot _,
      fun k hk => tblGet_drop_other slot k _ hk, Intake.find_tblDrop_eq_none s.works.intake⟩

end Sys2Proof.Machine
end

section
/-!
SUPPORT. ABANDON_BATCH (R129): what the release of a batch's pins and the end of a batch can change, the three outcomes of the command at
the units, and the command as those outcomes without consequences.
-/

namespace Sys2Proof.Machine

/-! ## The release of pins (R136) -/

/-- Pins are of the sheet cache: releasing a list of them changes nothing but the array. -/
theorem Works.foldl_unpin_array (w : Works) (l : List Nat) :
    l.foldl (fun w p => w.unpin p) w = { w with array := (l.foldl (fun w p => w.unpin p) w).array } := by
  induction l generalizing w with
  | nil => rfl
  | cons p l ih => rw [List.foldl_cons, ih]; rfl

theorem Works.releasePins_array (w : Works) (b : Batch) : w.releasePins b = { w with array := (w.releasePins b).array } :=
  Works.foldl_unpin_array w _

/-- A batch that has found nothing holds no pin. -/
theorem Works.releasePins_of_unfound (w : Works) {b : Batch} (hfound : ∀ e ∈ b.entries, e.found = none) (hhit : b.hit = none) :
    w.releasePins b = w := by
  have hpins : b.entries.filterMap (fun e => e.found.map (·.pin)) = [] :=
    List.filterMap_eq_nil_iff.mpr fun e he => by rw [hfound e he]; rfl
  simp [Works.releasePins, hpins, hhit]

/-! ## The end of a batch -/

/-- A batch's end touches its pins, its own record and the numbering, and nothing else. -/
theorem Works.endBatch_eq (w : Works) (ch : Fin 4) :
    w.endBatch ch = { w with
      serial := w.serial + 1
      array := (w.releasePins (w.batch ch)).array
      amend := { w.amend with batches := w.amend.batches.set ch { Batch.empty with serial := w.serial } } } := by
  unfold Works.endBatch
  rw [Works.releasePins_array]
  rfl

theorem Works.endBatch_batch_self (w : Works) (ch : Fin 4) : (w.endBatch ch).batch ch = { Batch.empty with serial := w.serial } := by
  simp [Works.endBatch_eq, Works.batch]

theorem Works.endBatch_batch_other (w : Works) {ch c : Fin 4} (h : c ≠ ch) : (w.endBatch ch).batch c = w.batch c := by
  simp [Works.endBatch_eq, Works.batch, Quad.get_set_other _ _ _ _ h]

/-! ## The three outcomes -/

theorem Works.abandonBatch_of_none {w : Works} {r : Req} (h : (w.batch r.ch).state = .none) :
    w.abandonBatch r = w.done r.id .empty := by
  simp [Works.abandonBatch, h]

theorem Works.abandonBatch_of_collecting {w : Works} {r : Req} (h : (w.batch r.ch).state = .collecting) :
    w.abandonBatch r = (w.endBatch r.ch).done r.id (.entries (w.batch r.ch).entries.length) := by
  simp [Works.abandonBatch, h]

theorem Works.abandonBatch_of_closed {w : Works} {r : Req}
    (h : (w.batch r.ch).state = .checking ∨ (w.batch r.ch).state = .applying) : w.abandonBatch r = w.refuse r.id .state := by
  obtain h | h := h <;> simp [Works.abandonBatch, h]

/-! ## The command -/

theorem State.offers_channel {s : State} {ch : Fin 4} {o : Owner} {r : Req} (h : s.offers ch o r) : r.ch = ch :=
  let ⟨_, _, hch, _, _⟩ := h
  hch

/-- The command hands its request to the batch of its channel. -/
theorem exec_abandonBatch_of_offers {ch : Fin 4} {s : State} {r : Req} (ho : s.offers ch .amendment r)
    (hr : r.request = .abandonBatch) : exec (.abandonBatch ch) s = s.settled (s.works.abandonBatch r) :=
  State.serve_some s ch .amendment _ r _ ho.1 (by simp only [hr])

/-- A COLLECTING batch ends and the request is answered DONE with the number of entries discarded. -/
theorem exec_abandonBatch_of_collecting {ch : Fin 4} {s : State} {r : Req} (ho : s.offers ch .amendment r)
    (hr : r.request = .abandonBatch) (hq : s.quiet) (h : (s.works.batch ch).state = .collecting) :
    exec (.abandonBatch ch) s = .next
      { s with
        works := { s.works.endBatch ch with
          port := s.works.port.answered r .done none (.entries (s.works.batch ch).entries.length) } } := by
  obtain rfl := State.offers_channel ho
  rw [exec_abandonBatch_of_offers ho hr, Works.abandonBatch_of_collecting h, State.settled_done ho]
  case hport => rw [Works.endBatch_eq]
  case htasks => rw [Works.endBatch_eq]; exact hq

/-- Settles O49: a batch NONE is answered and one past its close refused without consequences; the end of a COLLECTING one
is written out, and keeps the cache where the batch holds no pin. -/
theorem abandonBatchActsByTheBatchState : Obligations.AbandonBatchActsByTheBatchState := by
  intro ch s r ho hr hq
  have hch := State.offers_channel ho
  refine ⟨fun hnone => ?_, fun hclosed => ?_, fun hcoll => ?_⟩
  · rw [exec_abandonBatch_of_offers ho hr, Works.abandonBatch_of_none (hch ▸ hnone)]
    exact State.settled_done ho rfl hq .empty
  · rw [exec_abandonBatch_of_offers ho hr, Works.abandonBatch_of_closed (hch ▸ hclosed)]
    exact State.settled_refuse ho hq .state
  · have hend := s.works.endBatch_batch_self ch
    refine ⟨_, exec_abandonBatch_of_collecting ho hr hq hcoll, ?frame, ?pending, congrArg Batch.state hend,
      congrArg Batch.entries hend, fun c hc => s.works.endBatch_batch_other hc, fun hfound hhit => ?cache⟩
    case frame => rw [Works.endBatch_eq]
    case pending => rw [Works.endBatch_eq]
    case cache => rw [Works.endBatch_eq, Works.releasePins_of_unfound _ hfound hhit]

end Sys2Proof.Machine
end

section
/-!
SUPPORT. What a command can change outside the units: for every command the state it ends in is, but for the units' state, one of a few
named changes of the state before. The frame of all commands and the invariant of every state are read off those changes.
-/

namespace Sys2Proof.Machine

/-! ## Outcomes up to the units' state -/

/-- The outcome is a next state that is `u` but for the units' state. -/
def EndsOver (o : Host.Outcome State Fault Refusal) (u : State) : Prop := ∃ w, o = .next { u with works := w }

theorem EndsOver.next (s : State) : EndsOver (.next s) s := ⟨s.works, rfl⟩

theorem EndsOver.settled (s : State) (w : Works) : EndsOver (s.settled w) s := ⟨_, s.settled_next w⟩

theorem EndsOver.serve (s : State) (ch : Fin 4) (o : Owner) (f : Req → Option Works) : EndsOver (s.serve ch o f) s := by
  obtain h | ⟨r, w, -, -, h⟩ := s.serve_cases ch o f
  · rw [h]; exact .next s
  · rw [h]; exact .settled s w

/-! ## The changes outside the units -/

/-- The changes that a command can make outside the units. -/
inductive Outer : Instr → State → State → Prop
  | same (c : Instr) (s : State) : Outer c s s
  | powerOn (torn : List (Fin 4 × Torn)) (s : State) :
      Outer (.powerOn torn) s { State.reset with pending := s.pending, host := s.host, media := s.tear torn }
  | portReset (s : State) :
      Outer .portReset s { s with windows := .all .initial, vectors := s.vectors.map IrqVector.quiet }
  | setupEvent {ch : Fin 4} {value : BitVec 32} {s : State} (h : (s.windows.get ch).state = .unset) :
      Outer (.setupEvent ch value) s (s.mapWindow ch fun v => v.setup value)
  | fillWrite (ch : Fin 4) (value : BitVec 32) (s : State) :
      Outer (.requestFillIndexWrite ch value) s (s.mapWindow ch fun v => v.fillWrite value)
  | consumeWrite (ch : Fin 4) (value : BitVec 32) (s : State) :
      Outer (.responseConsumeIndexWrite ch value) s (s.mapWindow ch fun v => v.consumeWrite value)
  | fieldWrite (ch : Fin 4) (field : WindowField) (value : BitVec 64) (s : State) :
      Outer (.registerWrite ch field value) s (s.mapWindow ch fun v => v.fieldWrite field value)
  | fetch {ch : Fin 4} {s : State} (h : s.fetches ch = true) :
      Outer (.requestFetch ch) s (s.mapWindow ch fun v => { v with fetching := true })
  | fetched {ch : Fin 4} {record buffer : Bytes} {s : State} (hact : (s.windows.get ch).state = .active)
      (hfetch : (s.windows.get ch).fetching = true) :
      Outer (.fetchDone ch record buffer) s
        (s.mapWindow ch fun v => { v with fetching := false, requestConsume := v.requestConsume + 1 })
  | write {ch : Fin 4} {s : State} (h : s.writes ch = true) :
      Outer (.responseWrite ch) s (s.mapWindow ch fun v => { v with writing := true })
  | written {ch : Fin 4} {s : State} (place : Nat × Bytes) (unconsumed watermark : Nat)
      (hact : (s.windows.get ch).state = .active) (hwrite : (s.windows.get ch).writing = true) :
      Outer (.responseWriteDone ch) s
        (((s.hostPut (some place)).mapWindow ch fun v => { v with writing := false, responseFill := v.responseFill + 1 }).mapVector ch
          fun i => i.written unconsumed watermark)
  | fire {ch : Fin 4} {s : State} (h : (s.windows.get ch).state = .active) :
      Outer (.interruptDelayExpiry ch) s (s.mapVector ch IrqVector.fire)
  | mask (ch : Fin 4) (s : State) : Outer (.vectorMask ch) s (s.mapVector ch fun v => { v with masked := true })
  | unmask (ch : Fin 4) (s : State) : Outer (.vectorUnmask ch) s (s.mapVector ch IrqVector.unmask)
  | stop {ch : Fin 4} {access : HostAccess} {s : State} (h : (s.windows.get ch).state = .active) :
      Outer (.hostAccessFailure ch access) s
        ((s.mapWindow ch fun v => { v with state := .stopped, fetching := false, writing := false }).mapVector ch IrqVector.quiet)
  | hostPut {c : Instr} (s : State) (p : Option (Nat × Bytes)) (h : changesHost c = true) : Outer c s (s.hostPut p)
  | clock {c : Instr} (s : State) (t : Nat) (h : changesClock c = true) : Outer c s (s.clockTo t)
  | media {c : Instr} (s : State) (mc : Fin 4) {f : Media → Media} (h : changesMedia c = true)
      (hf : ∀ m : Media, m.wf = true → (f m).wf = true) : Outer c s (s.mapMedia mc f)
  | tune {ch : Fin 4} {mask : Nat} {b : RawSettings} (s : State) (h : b.tuneFault mask = none) : Outer (.tune ch) s (s.tuned mask b)
  | configure {ch : Fin 4} {b : RawSettings} (s : State) (h : b.configureFault = none) : Outer (.configure ch) s { s with cfg := b.cfg }
  | dayRoll {ch : Fin 4} {new : Nat} (s : State) (h : rollRefused (s.cfg.today.getD 0) new = false) :
      Outer (.dayRoll ch) s { s with cfg := s.cfg.roll new }
  | setClassTable {ch : Fin 4} {entries : List RawClass} (s : State)
      (h : firstIndex (fun e : RawClass => !e.valid) 0 entries = none) :
      Outer (.setClassTable ch) s { s with cfg := { s.cfg with pendingClasses := entries.map RawClass.entry } }
  | setPolicy {ch : Fin 4} {policies : List RawPolicy} (s : State)
      (h : firstIndex (fun p : RawPolicy => !p.valid) 0 policies = none) :
      Outer (.setPolicy ch) s { s with cfg := { s.cfg with pendingPolicies := policies.map RawPolicy.policy } }

/-- The command ends in a next state whose change outside the units is one of those named. -/
def Changes (c : Instr) (s : State) : Prop := ∃ u, Outer c s u ∧ EndsOver (exec c s) u

theorem Changes.of {c : Instr} {s u : State} (ho : Outer c s u) (h : EndsOver (exec c s) u) : Changes c s := ⟨u, ho, h⟩

/-! ## The commands of the port -/

theorem changes_portReset (s : State) : Changes .portReset s := .of (.portReset s) (.settled _ _)

theorem changes_setupEvent (ch : Fin 4) (value : BitVec 32) (s : State) : Changes (.setupEvent ch value) s := by
  by_cases h : (s.windows.get ch).state = .unset
  · refine .of (.setupEvent h) ?_
    simp only [exec, execSetupEvent, h, ne_eq, not_true_eq_false, if_false]
    split
    · exact .next _
    · exact .settled _ _
  · refine .of (.same _ s) ?_
    simp only [exec, execSetupEvent, h, ne_eq, not_false_eq_true, if_true]
    exact .next s

theorem changes_requestFetch (ch : Fin 4) (s : State) : Changes (.requestFetch ch) s := by
  by_cases h : s.fetches ch = true
  · exact .of (.fetch h) (by simp only [exec, execRequestFetch, h, if_true]; exact .next _)
  · exact .of (.same _ s) (by simp only [exec, execRequestFetch, h]; exact .next _)

theorem changes_fetchDone (ch : Fin 4) (record buffer : Bytes) (s : State) : Changes (.fetchDone ch record buffer) s := by
  by_cases h : (s.windows.get ch).state ≠ .active ∨ !(s.windows.get ch).fetching
  · exact .of (.same _ s) (by simp only [exec, execFetchDone, h, if_true]; exact .next _)
  · obtain ⟨hact, hfetch⟩ := not_or.mp h
    refine .of (.fetched (not_not.mp hact) (by simpa using hfetch)) ?_
    simp only [exec, execFetchDone, h, if_false]
    exact .settled _ _

theorem changes_responseWrite (ch : Fin 4) (s : State) : Changes (.responseWrite ch) s := by
  by_cases h : s.writes ch = true
  · exact .of (.write h) (by simp only [exec, execResponseWrite, h, if_true]; exact .next _)
  · exact .of (.same _ s) (by simp only [exec, execResponseWrite, h]; exact .next _)

theorem changes_responseWriteDone (ch : Fin 4) (s : State) : Changes (.responseWriteDone ch) s := by
  by_cases h : (s.windows.get ch).state ≠ .active ∨ !(s.windows.get ch).writing
  · exact .of (.same _ s) (by simp only [exec, execResponseWriteDone, h, if_true]; exact .next _)
  · obtain ⟨hact, hwrite⟩ := not_or.mp h
    cases hout : s.works.port.out.get ch with
    | nil => exact .of (.same _ s) (by simp only [exec, execResponseWriteDone, h, if_false, hout]; exact .next _)
    | cons resp l =>
      simp only [Changes, exec, execResponseWriteDone, h, if_false, hout]
      exact ⟨_, .written _ _ _ (not_not.mp hact) (by simpa using hwrite), .settled _ _⟩

theorem changes_interruptDelayExpiry (ch : Fin 4) (s : State) : Changes (.interruptDelayExpiry ch) s := by
  by_cases h : (s.windows.get ch).state = .active ∧ (s.vectors.get ch).measuring ∧ 0 < (s.vectors.get ch).unsignalled
  · exact .of (.fire h.1) (by simp only [exec, execInterruptDelayExpiry, if_pos h]; exact .next _)
  · exact .of (.same _ s) (by simp only [exec, execInterruptDelayExpiry, if_neg h]; exact .next _)

theorem Window.active_of_accesses {v : Window} {a : HostAccess} (h : v.accesses a = true) : v.state = .active := by
  cases a <;> simp_all [Window.accesses]

theorem changes_hostAccessFailure (ch : Fin 4) (access : HostAccess) (s : State) : Changes (.hostAccessFailure ch access) s := by
  by_cases h : (s.windows.get ch).accesses access = true
  · exact .of (.stop (Window.active_of_accesses h)) (by simp only [exec, execHostAccessFailure, h]; exact .settled _ _)
  · exact .of (.same _ s) (by simp only [exec, execHostAccessFailure, h]; exact .next _)

theorem changes_bufferWriteDone (ch : Fin 4) (s : State) : Changes (.bufferWriteDone ch) s := by
  simp only [Changes, exec, execBufferWriteDone]
  split
  · exact ⟨_, .same _ s, .next _⟩
  · exact ⟨_, .hostPut s _ rfl, .settled _ _⟩

/-! ## The commands that change the configuration -/

theorem changes_tune (ch : Fin 4) (s : State) : Changes (.tune ch) s := by
  simp only [Changes, exec, execTune]
  split
  · exact ⟨_, .same _ s, .next _⟩
  · split
    · split
      · exact ⟨_, .same _ s, .settled _ _⟩
      · next h => exact ⟨_, .tune s h, .settled _ _⟩
    · exact ⟨_, .same _ s, .next _⟩

theorem changes_configure (ch : Fin 4) (s : State) : Changes (.configure ch) s := by
  simp only [Changes, exec, execConfigure]
  split
  · exact ⟨_, .same _ s, .next _⟩
  · split
    · split
      · exact ⟨_, .same _ s, .settled _ _⟩
      · split
        · exact ⟨_, .same _ s, .settled _ _⟩
        · next h => exact ⟨_, .configure s h, .settled _ _⟩
    · exact ⟨_, .same _ s, .next _⟩

theorem changes_dayRoll (ch : Fin 4) (s : State) : Changes (.dayRoll ch) s := by
  simp only [Changes, exec, execDayRoll]
  split
  · exact ⟨_, .same _ s, .next _⟩
  · split
    · split
      · exact ⟨_, .same _ s, .settled _ _⟩
      · next h => exact ⟨_, .dayRoll s (by simpa using h), .settled _ _⟩
    · exact ⟨_, .same _ s, .next _⟩

theorem changes_setClassTable (ch : Fin 4) (s : State) : Changes (.setClassTable ch) s := by
  simp only [Changes, exec, execSetClassTable]
  split
  · exact ⟨_, .same _ s, .next _⟩
  · split
    · split
      · exact ⟨_, .same _ s, .settled _ _⟩
      · next h => exact ⟨_, .setClassTable s h, .settled _ _⟩
    · exact ⟨_, .same _ s, .next _⟩

theorem changes_setPolicy (ch : Fin 4) (s : State) : Changes (.setPolicy ch) s := by
  simp only [Changes, exec, execSetPolicy]
  split
  · exact ⟨_, .same _ s, .next _⟩
  · split
    · split
      · exact ⟨_, .same _ s, .settled _ _⟩
      · next h => exact ⟨_, .setPolicy s h, .settled _ _⟩
    · exact ⟨_, .same _ s, .next _⟩

/-! ## The commands that end a media operation -/

theorem changes_programDone (mc : Fin 4) (result : ProgramEnd) (s : State) : Changes (.programDone mc result) s := by
  simp only [Changes, exec, execProgramDone]
  split
  · exact ⟨_, .same _ s, .next _⟩
  · split
    · exact ⟨_, .media s mc rfl fun m => Media.programmed_wf m _ _ result, .settled _ _⟩
    · exact ⟨_, .media s mc rfl fun m => Media.programmed_wf m _ _ result, .settled _ _⟩
    · exact ⟨_, .same _ s, .next _⟩

theorem changes_mediaReadDone (mc : Fin 4) (result : ReadEnd) (s : State) : Changes (.mediaReadDone mc result) s := by
  refine .of (.same _ s) ?_
  simp only [exec, execMediaReadDone]
  split
  · exact .next s
  · split
    · exact .settled _ _
    · exact .next s

theorem changes_voidMarkDone (mc : Fin 4) (result : MarkEnd) (s : State) : Changes (.voidMarkDone mc result) s := by
  simp only [Changes, exec, execVoidMarkDone]
  split
  · exact ⟨_, .same _ s, .next _⟩
  · split
    · exact ⟨_, .media s mc rfl fun m => Media.voided_wf m _ result, .settled _ _⟩
    · exact ⟨_, .same _ s, .next _⟩

theorem changes_clearDone (mc : Fin 4) (result : ClearEnd) (s : State) : Changes (.clearDone mc result) s := by
  simp only [Changes, exec, execClearDone]
  split
  · exact ⟨_, .same _ s, .next _⟩
  · split
    · exact ⟨_, .media s mc rfl fun m => Media.clearDone_wf m _ result, .settled _ _⟩
    · exact ⟨_, .same _ s, .next _⟩

theorem changes_retireMarkDone (mc : Fin 4) (result : MarkEnd) (s : State) : Changes (.retireMarkDone mc result) s := by
  simp only [Changes, exec, execRetireMarkDone]
  split
  · exact ⟨_, .same _ s, .next _⟩
  · split
    · exact ⟨_, .media s mc rfl fun m => Media.retireMarked_wf m _ result, .settled _ _⟩
    · exact ⟨_, .same _ s, .next _⟩

theorem changes_readyTimeout (mc : Fin 4) (torn : Torn) (s : State) : Changes (.readyTimeout mc torn) s := by
  simp only [Changes, exec, execReadyTimeout]
  split
  · exact ⟨_, .same _ s, .next _⟩
  · split
    · exact ⟨_, .same _ s, .next _⟩
    · exact ⟨_, .media s mc rfl fun m => Media.torn_wf m _ torn, .settled _ _⟩

/-! ## The commands of a moment reached -/

theorem changes_stallLimit (fileSlot : Nat) (s : State) : Changes (.stallLimit fileSlot) s := by
  simp only [Changes, exec, execStallLimit]
  split
  · exact ⟨_, .same _ s, .next _⟩
  · exact ⟨_, .clock s _ rfl, .settled _ _⟩

theorem changes_mergeDelayExpiry (day cls : Nat) (s : State) : Changes (.mergeDelayExpiry day cls) s := by
  simp only [Changes, exec, execMergeDelayExpiry]
  split
  · exact ⟨_, .same _ s, .next _⟩
  · exact ⟨_, .clock s _ rfl, .settled _ _⟩

theorem changes_probe (mc : Fin 4) (s : State) : Changes (.probe mc) s := by
  simp only [Changes, exec, execProbe]
  split
  · exact ⟨_, .same _ s, .next _⟩
  · exact ⟨_, .clock s _ rfl, .settled _ _⟩

theorem changes_waitLimit (waiter : Waiter) (s : State) : Changes (.waitLimit waiter) s := by
  cases waiter with
  | cursor n =>
    simp only [Changes, exec, execWaitLimit]
    split
    · exact ⟨_, .same _ s, .next _⟩
    · exact ⟨_, .clock s _ rfl, .settled _ _⟩
  | lookup req =>
    simp only [Changes, exec, execWaitLimit]
    split
    · exact ⟨_, .same _ s, .next _⟩
    · exact ⟨_, .clock s _ rfl, .settled _ _⟩

theorem changes_holdWindowExpiry (cursor : Fin 16) (s : State) : Changes (.holdWindowExpiry cursor) s := by
  simp only [Changes, exec, execHoldWindowExpiry]
  split
  · exact ⟨_, .same _ s, .next _⟩
  · exact ⟨_, .clock s _ rfl, .settled _ _⟩

theorem changes_idleExpiry (cursor : Fin 16) (s : State) : Changes (.idleExpiry cursor) s := by
  simp only [Changes, exec, execIdleExpiry]
  split
  · exact ⟨_, .same _ s, .next _⟩
  · exact ⟨_, .clock s _ rfl, .settled _ _⟩

theorem changes_scrubTimerExpiry (s : State) : Changes .scrubTimerExpiry s := by
  simp only [Changes, exec, execScrubTimerExpiry]
  split
  · exact ⟨_, .same _ s, .next _⟩
  · exact ⟨_, .clock s _ rfl, .settled _ _⟩

/-! ## The commands that change nothing but the units -/

theorem changes_packing (day : Nat) (s : State) : Changes (.packing day) s := by
  refine .of (.same _ s) ?_
  simp only [exec, execPacking]
  split
  · exact .next s
  · exact .settled _ _

theorem changes_probeReady (mc : Fin 4) (s : State) : Changes (.probeReady mc) s := by
  refine .of (.same _ s) ?_
  simp only [exec, execProbeReady]
  split
  · exact .settled _ _
  · exact .next s

theorem changes_probeFailed (mc : Fin 4) (s : State) : Changes (.probeFailed mc) s := by
  refine .of (.same _ s) ?_
  simp only [exec, execProbeFailed]
  split
  · exact .settled _ _
  · exact .next s

theorem changes_rebuildScan (s : State) : Changes .rebuildScan s := by
  refine .of (.same _ s) ?_
  simp only [exec, execRebuildScan]
  split
  · exact .settled _ _
  · exact .next s

/-- Everything that a command can do outside the units. -/
theorem exec_changes (c : Instr) (s : State) : Changes c s := by
  cases c with
  | powerOn torn => exact .of (.powerOn torn s) (.next _)
  | portReset => exact changes_portReset s
  | setupEvent ch value => exact changes_setupEvent ch value s
  | requestFillIndexWrite ch value => exact .of (.fillWrite ch value s) (.next _)
  | responseConsumeIndexWrite ch value => exact .of (.consumeWrite ch value s) (.next _)
  | registerWrite ch field value => exact .of (.fieldWrite ch field value s) (.next _)
  | vectorUnmask ch => exact .of (.unmask ch s) (.next _)
  | vectorMask ch => exact .of (.mask ch s) (.next _)
  | requestFetch ch => exact changes_requestFetch ch s
  | fetchDone ch record buffer => exact changes_fetchDone ch record buffer s
  | responseWrite ch => exact changes_responseWrite ch s
  | responseWriteDone ch => exact changes_responseWriteDone ch s
  | interruptDelayExpiry ch => exact changes_interruptDelayExpiry ch s
  | hostAccessFailure ch access => exact changes_hostAccessFailure ch access s
  | bufferWriteDone ch => exact changes_bufferWriteDone ch s
  | configure ch => exact changes_configure ch s
  | dayRoll ch => exact changes_dayRoll ch s
  | setClassTable ch => exact changes_setClassTable ch s
  | setPolicy ch => exact changes_setPolicy ch s
  | tune ch => exact changes_tune ch s
  | recordIntakeEvent fileSlot => exact .of (.hostPut s _ rfl) (.settled _ _)
  | restoreRecordIntake fileSlot => exact .of (.hostPut s _ rfl) (.settled _ _)
  | readStep cursor => exact .of (.hostPut s _ rfl) (.settled _ _)
  | stallLimit fileSlot => exact changes_stallLimit fileSlot s
  | packing day => exact changes_packing day s
  | mergeDelayExpiry day cls => exact changes_mergeDelayExpiry day cls s
  | programDone mc result => exact changes_programDone mc result s
  | mediaReadDone mc result => exact changes_mediaReadDone mc result s
  | voidMarkDone mc result => exact changes_voidMarkDone mc result s
  | clearDone mc result => exact changes_clearDone mc result s
  | retireMarkDone mc result => exact changes_retireMarkDone mc result s
  | readyTimeout mc torn => exact changes_readyTimeout mc torn s
  | probe mc => exact changes_probe mc s
  | probeReady mc => exact changes_probeReady mc s
  | probeFailed mc => exact changes_probeFailed mc s
  | waitLimit waiter => exact changes_waitLimit waiter s
  | holdWindowExpiry cursor => exact changes_holdWindowExpiry cursor s
  | idleExpiry cursor => exact changes_idleExpiry cursor s
  | scrubTimerExpiry => exact changes_scrubTimerExpiry s
  | rebuildScan => exact changes_rebuildScan s
  | relocationWalk mc => exact .of (.same _ s) (.settled _ _)
  | sweepWalk => exact .of (.same _ s) (.settled _ _)
  | auditWalk => exact .of (.same _ s) (.settled _ _)
  | abandonBatch ch | abandonFile ch | amend ch | amendClose ch | archiveReset ch | auditDay ch | closeCursor ch | closeDay ch
  | closeFile ch | dayState ch | fileState ch | forgetFile ch | holdState ch | ingestParcel ch | lookupCall ch | openCursor ch
  | openFile ch | placeHold ch | forward ch | skipForward ch | backward ch | peek ch | releaseHold ch | status ch | sweep ch =>
    exact .of (.same _ s) (.serve s ch _ _)

/-- A next state is, but for the units' state, one of the named changes. -/
theorem exec_next_outer {c : Instr} {s t : State} (h : exec c s = .next t) : ∃ u w, Outer c s u ∧ t = { u with works := w } := by
  obtain ⟨u, ho, w, hw⟩ := exec_changes c s
  rw [hw] at h
  cases h
  exact ⟨u, w, ho, rfl⟩

/-! ## The frame -/

/-- A named change leaves alone each part that its command is not named for. -/
theorem Outer.frame {c : Instr} {s u : State} (h : Outer c s u) :
    (changesCfg c = false → u.cfg = s.cfg) ∧ (changesMedia c = false → u.media = s.media) ∧
      (changesHost c = false → u.host = s.host) ∧ (changesWindows c = false → u.windows = s.windows) ∧
      (changesVectors c = false → u.vectors = s.vectors) ∧ (changesClock c = false → u.clock = s.clock) := by
  cases h with
  | hostPut _ p hc => simp [hc]
  | clock _ t hc => simp [hc]
  | media _ mc hc hf => simp [hc]
  | _ => simp [changesCfg, changesMedia, changesHost, changesWindows, changesVectors, changesClock, State.tuned]

/-- Settles O3: every command's change outside the units is a named one, and each of those has its frame. -/
theorem onlyTheNamedCommandsChangeEachPart : Obligations.OnlyTheNamedCommandsChangeEachPart := by
  intro c s t h
  obtain ⟨u, w, ho, rfl⟩ := exec_next_outer h
  exact ho.frame

end Sys2Proof.Machine
end

section
/-!
SUPPORT. The invariant of every state (Safety, sound): each named change outside the units keeps the configuration in range, the windows
and vectors well formed, and host memory and the media in their one canonical form.
-/

namespace Sys2Proof.Machine

/-! ## Sound in its parts -/

theorem State.sound_iff (s : State) :
    s.sound = true ↔ hostWf s.host = true ∧ s.media.toList.all Media.wf = true ∧ s.cfg.inRange = true ∧
      ∀ ch : Fin 4, (s.windows.get ch).ok = true ∧ (s.vectors.get ch).ok (s.windows.get ch).state = true := by
  simp [State.sound, channels, and_assoc, Fin.forall_fin_succ]

/-- A change of one window and one vector of a channel keeps them well formed on every channel. -/
theorem ports_ok_modify {windows : Quad Window} {vectors : Quad IrqVector}
    (h : ∀ c : Fin 4, (windows.get c).ok = true ∧ (vectors.get c).ok (windows.get c).state = true) (ch : Fin 4)
    (f : Window → Window) (g : IrqVector → IrqVector)
    (hok : (f (windows.get ch)).ok = true ∧ (g (vectors.get ch)).ok (f (windows.get ch)).state = true) (c : Fin 4) :
    ((windows.modify ch f).get c).ok = true ∧ ((vectors.modify ch g).get c).ok ((windows.modify ch f).get c).state = true := by
  simp only [Quad.get_modify]
  by_cases hc : c = ch
  · simpa [hc] using hok
  · simpa [hc] using h c

theorem Quad.modify_id {α : Type} (q : Quad α) (i : Fin 4) : q.modify i (fun a => a) = q := by
  match i with
  | 0 | 1 | 2 | 3 => rfl

/-- A sound state stays sound when one window changes to a well-formed one that suits the channel's vector. -/
theorem State.sound_mapWindow {s : State} (h : s.sound = true) (ch : Fin 4) (f : Window → Window)
    (hok : (f (s.windows.get ch)).ok = true) (hvec : (s.vectors.get ch).ok (f (s.windows.get ch)).state = true) :
    (s.mapWindow ch f).sound = true := by
  obtain ⟨hhost, hmedia, hcfg, hports⟩ := s.sound_iff.mp h
  refine (State.sound_iff _).mpr ⟨hhost, hmedia, hcfg, ?_⟩
  have := ports_ok_modify hports ch f (fun i => i) ⟨hok, hvec⟩
  rwa [Quad.modify_id] at this

/-- A sound state stays sound when one vector changes to one that suits the channel's window. -/
theorem State.sound_mapVector {s : State} (h : s.sound = true) (ch : Fin 4) (g : IrqVector → IrqVector)
    (hvec : (g (s.vectors.get ch)).ok (s.windows.get ch).state = true) : (s.mapVector ch g).sound = true := by
  obtain ⟨hhost, hmedia, hcfg, hports⟩ := s.sound_iff.mp h
  refine (State.sound_iff _).mpr ⟨hhost, hmedia, hcfg, ?_⟩
  have := ports_ok_modify hports ch (fun v => v) g ⟨(hports ch).1, hvec⟩
  rwa [Quad.modify_id] at this

/-- A sound state stays sound when a window and its vector change together. -/
theorem State.sound_mapPort {s : State} (h : s.sound = true) (ch : Fin 4) (f : Window → Window) (g : IrqVector → IrqVector)
    (hok : (f (s.windows.get ch)).ok = true) (hvec : (g (s.vectors.get ch)).ok (f (s.windows.get ch)).state = true) :
    ((s.mapWindow ch f).mapVector ch g).sound = true := by
  obtain ⟨hhost, hmedia, hcfg, hports⟩ := s.sound_iff.mp h
  exact (State.sound_iff _).mpr ⟨hhost, hmedia, hcfg, ports_ok_modify hports ch f g ⟨hok, hvec⟩⟩

theorem State.sound_hostPut {s : State} (h : s.sound = true) (p : Option (Nat × Bytes)) : (s.hostPut p).sound = true := by
  obtain ⟨hhost, hmedia, hcfg, hports⟩ := s.sound_iff.mp h
  exact (State.sound_iff _).mpr ⟨s.hostPut_wf p hhost, by simpa using hmedia, by simpa using hcfg, by simpa using hports⟩

theorem State.sound_cfg {s : State} (h : s.sound = true) {c : Cfg} (hc : c.inRange = true) :
    ({ s with cfg := c } : State).sound = true := by
  obtain ⟨hhost, hmedia, -, hports⟩ := s.sound_iff.mp h
  exact (State.sound_iff _).mpr ⟨hhost, hmedia, hc, hports⟩

theorem State.sound_mapMedia {s : State} (h : s.sound = true) (mc : Fin 4) {f : Media → Media}
    (hf : ∀ m : Media, m.wf = true → (f m).wf = true) : (s.mapMedia mc f).sound = true := by
  obtain ⟨hhost, hmedia, hcfg, hports⟩ := s.sound_iff.mp h
  exact (State.sound_iff _).mpr ⟨hhost, s.mapMedia_wf mc f hmedia hf, hcfg, hports⟩

theorem State.sound_window {s : State} (h : s.sound = true) (ch : Fin 4) : (s.windows.get ch).ok = true :=
  ((s.sound_iff.mp h).2.2.2 ch).1

theorem State.sound_vector {s : State} (h : s.sound = true) (ch : Fin 4) :
    (s.vectors.get ch).ok (s.windows.get ch).state = true := ((s.sound_iff.mp h).2.2.2 ch).2

/-! ## Windows (R166, R167, R169) -/

theorem Window.ok_of_active {v : Window} (h : v.state = .active) :
    v.ok = true ↔ v.valid = true ∧ v.unconsumed ≤ v.responseEntries.toNat ∧
      (v.writing = true → v.unconsumed < v.responseEntries.toNat) := by
  simp [Window.ok, h, and_assoc, Bool.or_eq_true, imp_iff_not_or]

theorem Window.ok_active {v : Window} (h : v.state = .active) (hvalid : v.valid = true)
    (hle : v.unconsumed ≤ v.responseEntries.toNat) (hroom : v.writing = true → v.unconsumed < v.responseEntries.toNat) :
    v.ok = true := (Window.ok_of_active h).mpr ⟨hvalid, hle, hroom⟩

theorem Window.setup_of_invalid {v : Window} {value : BitVec 32} (h : { v with responseEntries := value }.valid = false) :
    v.setup value = { v with responseEntries := 0 } := by
  simp [Window.setup, h]

theorem Window.setup_of_valid {v : Window} {value : BitVec 32} (h : { v with responseEntries := value }.valid = true) :
    v.setup value = { v with
      state := .active, responseEntries := value, requestFill := 0, requestConsume := 0, responseFill := 0, responseConsume := 0,
      fetching := false, writing := false } := by
  simp [Window.setup, h]

theorem Window.setup_ok {v : Window} {value : BitVec 32} (hs : v.state = .unset) (h : v.ok = true) : (v.setup value).ok = true := by
  by_cases hv : { v with responseEntries := value }.valid = true
  · rw [Window.setup_of_valid hv]
    exact Window.ok_active rfl (by simpa [Window.valid] using hv) (by simp [Window.unconsumed]) (by simp)
  · rw [Window.setup_of_invalid (by simpa using hv)]
    simpa [Window.ok, hs] using h

theorem Window.fillWrite_ok {v : Window} (value : BitVec 32) (h : v.ok = true) :
    (v.fillWrite value).ok = true ∧ (v.fillWrite value).state = v.state := by
  unfold Window.fillWrite
  split
  · next hc =>
    refine ⟨?_, rfl⟩
    obtain ⟨hvalid, hle, hroom⟩ := (Window.ok_of_active hc.1).mp h
    exact Window.ok_active hc.1 hvalid hle hroom
  · exact ⟨h, rfl⟩

/-- Fewer responses are unconsumed once some have been consumed. -/
theorem Window.unconsumed_consume_le {v : Window} {value : BitVec 32} (h : (value - v.responseConsume).toNat ≤ v.unconsumed) :
    ({ v with responseConsume := value } : Window).unconsumed ≤ v.unconsumed := by
  simp only [Window.unconsumed] at h ⊢
  bv_omega

theorem Window.consumeWrite_ok {v : Window} (value : BitVec 32) (h : v.ok = true) :
    (v.consumeWrite value).ok = true ∧ (v.consumeWrite value).state = v.state := by
  unfold Window.consumeWrite
  split
  · next hc =>
    refine ⟨?_, rfl⟩
    obtain ⟨hvalid, hle, hroom⟩ := (Window.ok_of_active hc.1).mp h
    have hless := Window.unconsumed_consume_le hc.2
    exact Window.ok_active hc.1 hvalid (hless.trans hle) fun hw => hless.trans_lt (hroom hw)
  · exact ⟨h, rfl⟩

theorem Window.fieldWrite_ok {v : Window} (field : WindowField) (value : BitVec 64) (h : v.ok = true) :
    (v.fieldWrite field value).ok = true ∧ (v.fieldWrite field value).state = v.state := by
  by_cases hs : v.state = .unset
  · cases field <;> simpa [Window.fieldWrite, Window.ok, hs] using h
  · simpa [Window.fieldWrite, hs] using h

theorem Window.fetched_ok {v : Window} (hs : v.state = .active) (h : v.ok = true) :
    ({ v with fetching := false, requestConsume := v.requestConsume + 1 } : Window).ok = true :=
  let ⟨hvalid, hle, hroom⟩ := (Window.ok_of_active hs).mp h
  Window.ok_active hs hvalid hle hroom

/-- A response written is one more unconsumed; the room for it was kept while the write was under way. -/
theorem Window.written_ok {v : Window} (hs : v.state = .active) (hw : v.writing = true) (h : v.ok = true) :
    ({ v with writing := false, responseFill := v.responseFill + 1 } : Window).ok = true := by
  obtain ⟨hvalid, -, hroom⟩ := (Window.ok_of_active hs).mp h
  refine Window.ok_active hs hvalid ?_ (by simp)
  have hlt := hroom hw
  have hbound := v.responseEntries.isLt
  simp only [Window.unconsumed] at hlt ⊢
  bv_omega

theorem Window.stopped_ok {v : Window} (hs : v.state = .active) (h : v.ok = true) :
    ({ v with state := .stopped, fetching := false, writing := false } : Window).ok = true := by
  simpa [Window.ok, Window.valid] using ((Window.ok_of_active hs).mp h).1

/-! ## Vectors (R171) -/

theorem IrqVector.ok_iff (i : IrqVector) (st : ChanState) :
    i.ok st = true ↔ (i.measuring = true ↔ 0 < i.unsignalled) ∧ (i.held = true → i.masked = true) ∧
      (st ≠ .active → i.unsignalled = 0) := by
  have hmeasure : i.measuring = decide (0 < i.unsignalled) ↔ (i.measuring = true ↔ 0 < i.unsignalled) := by
    rw [Bool.eq_iff_iff, decide_eq_true_eq]
  simp [IrqVector.ok, hmeasure, imp_iff_not_or, and_assoc]

theorem IrqVector.ok_active {i : IrqVector} {st : ChanState} (h : i.ok st = true) : i.ok .active = true := by
  obtain ⟨hm, hh, -⟩ := (i.ok_iff st).mp h
  exact (i.ok_iff _).mpr ⟨hm, hh, by simp⟩

theorem IrqVector.quiet_ok {i : IrqVector} {st st' : ChanState} (h : i.ok st = true) : i.quiet.ok st' = true := by
  obtain ⟨-, hh, -⟩ := (i.ok_iff st).mp h
  exact (IrqVector.ok_iff _ _).mpr ⟨by simp [IrqVector.quiet], hh, by simp [IrqVector.quiet]⟩

theorem IrqVector.fire_ok {i : IrqVector} {st st' : ChanState} (h : i.ok st = true) : i.fire.ok st' = true := by
  obtain ⟨-, hh, -⟩ := (i.ok_iff st).mp h
  by_cases hm : i.masked = true
  · exact (IrqVector.ok_iff _ _).mpr (by simp [IrqVector.fire, hm])
  · exact (IrqVector.ok_iff _ _).mpr (by simpa [IrqVector.fire, hm] using hh)

theorem IrqVector.mask_ok {i : IrqVector} {st : ChanState} (h : i.ok st = true) : ({ i with masked := true } : IrqVector).ok st = true := by
  obtain ⟨hm, -, hc⟩ := (i.ok_iff st).mp h
  exact (IrqVector.ok_iff _ _).mpr ⟨hm, fun _ => rfl, hc⟩

theorem IrqVector.unmask_ok {i : IrqVector} {st : ChanState} (h : i.ok st = true) : i.unmask.ok st = true := by
  obtain ⟨hm, -, hc⟩ := (i.ok_iff st).mp h
  exact (IrqVector.ok_iff _ _).mpr ⟨hm, by simp [IrqVector.unmask], hc⟩

theorem IrqVector.written_ok {i : IrqVector} (unconsumed watermark : Nat) (h : i.ok .active = true) :
    (i.written unconsumed watermark).ok .active = true := by
  obtain ⟨-, hh, -⟩ := (i.ok_iff _).mp h
  have hcount : ({ i with unsignalled := i.unsignalled + 1, measuring := true } : IrqVector).ok .active = true :=
    (IrqVector.ok_iff _ _).mpr ⟨by simp, hh, by simp⟩
  unfold IrqVector.written
  split
  · exact IrqVector.fire_ok hcount
  · exact hcount

/-! ## The configuration (R50, R141, R142, R174, R177) -/

theorem Cfg.inRange_iff (c : Cfg) :
    c.inRange = true ↔ c.settings.inRange = true ∧ (∀ d, c.today = some d → d ≤ Config.maxDay) ∧
      (∀ e ∈ c.classes, e.valid = true) ∧ (∀ e ∈ c.pendingClasses, e.valid = true) ∧ (∀ p ∈ c.policies, p.valid = true) ∧
      ∀ p ∈ c.pendingPolicies, p.valid = true := by
  simp [Cfg.inRange, and_assoc, Option.all_eq_true, List.all_eq_true]

theorem RawClass.entry_valid {c : RawClass} (h : c.valid = true) : c.entry.valid = true := by
  simp only [RawClass.valid, Bool.and_eq_true, decide_eq_true_eq, and_assoc] at h
  obtain ⟨-, -, hexp, hlo, hhi, hbase, hend⟩ := h
  simp [ClassEntry.valid, RawClass.entry, within, hexp, hlo, hhi, hbase, hend]

theorem RawPolicy.policy_valid {p : RawPolicy} (h : p.valid = true) : p.policy.valid = true := by
  simp only [RawPolicy.valid, Bool.and_eq_true, decide_eq_true_eq, and_assoc] at h
  obtain ⟨hlo, hhi, hgrace, -⟩ := h
  simp [Policy.valid, RawPolicy.policy, within, hlo, hhi, hgrace]

theorem entries_valid {l : List RawClass} (h : ∀ c ∈ l, c.valid = true) : ∀ e ∈ l.map RawClass.entry, e.valid = true := by
  simpa using fun c hc => RawClass.entry_valid (h c hc)

theorem policies_valid {l : List RawPolicy} (h : ∀ p ∈ l, p.valid = true) : ∀ e ∈ l.map RawPolicy.policy, e.valid = true := by
  simpa using fun p hp => RawPolicy.policy_valid (h p hp)

/-- No index is named exactly when no element is at fault. -/
theorem firstIndex_eq_none_iff {α : Type} (p : α → Bool) (n : Nat) (l : List α) :
    firstIndex p n l = none ↔ ∀ a ∈ l, p a = false := by
  induction l generalizing n with
  | nil => simp [firstIndex]
  | cons a l ih => by_cases h : p a <;> simp [firstIndex, h, ih]

theorem Settings.inRange_iff (s : Settings) :
    s.inRange = true ↔ s.epoch.valid = true ∧ s.closeLag ≤ 7 ∧ (∀ mc : Fin 4, (s.media.get mc).inRange = true) ∧
      within 1 s.stall 255 = true ∧ within 1 s.merge 3600 = true ∧ s.hold ≤ 60 ∧ within 10 s.idle 3600 = true ∧ s.scrub ≤ 10000 ∧
      s.watermarks.toList.all (fun n => within 1 n 4096) = true := by
  simp only [Settings.inRange, Bool.and_eq_true, decide_eq_true_eq, and_assoc, Quad.all_toList]

/-- A TUNE without a fault has every row it brings in range. -/
theorem RawSettings.rowValid_of_tuneFault {b : RawSettings} {mask : Nat} (h : b.tuneFault mask = none) (i : Nat) (hi : i < 9)
    (hp : tunes mask i = true) : b.rowValid i = true := by
  simp only [RawSettings.tuneFault, List.find?_eq_none, List.mem_range] at h
  simpa [hp] using h i hi

theorem MediaCfg.marked_inRange {m : MediaCfg} {r : RawMedia} (hm : m.inRange = true) (hr : r.marksValid = true) :
    (m.marked r).inRange = true := by
  simp only [MediaCfg.inRange, RawMedia.marksValid, MediaCfg.marked, Bool.and_eq_true, and_assoc] at hm hr ⊢
  obtain ⟨hext, hprogram, hread, hclear, -, -, -⟩ := hm
  exact ⟨hext, hprogram, hread, hclear, hr⟩

theorem Settings.tuned_media_get (s : Settings) (mask : Nat) (b : RawSettings) (mc : Fin 4) :
    (s.tuned mask b).media.get mc = if tunes mask 5 then (s.media.get mc).marked (b.media.get mc) else s.media.get mc := by
  match mc with
  | 0 | 1 | 2 | 3 => by_cases h : tunes mask 5 = true <;> simp [Settings.tuned, h, Quad.get]

theorem Settings.tuned_inRange {s : Settings} {mask : Nat} {b : RawSettings} (hs : s.inRange = true) (h : b.tuneFault mask = none) :
    (s.tuned mask b).inRange = true := by
  obtain ⟨hepoch, hlag, hmedia, hstall, hmerge, hhold, hidle, hscrub, hmarks⟩ := s.inRange_iff.mp hs
  have hrow := RawSettings.rowValid_of_tuneFault h
  simp only [RawSettings.rowValid] at hrow
  refine (Settings.inRange_iff _).mpr ⟨hepoch, hlag, fun mc => ?_, ?_, ?_, ?_, ?_, ?_, ?_⟩
  · rw [Settings.tuned_media_get]
    split
    · next hp => exact MediaCfg.marked_inRange (hmedia mc) ((Quad.all_toList _ _).mp (hrow 5 (by decide) hp) mc)
    · exact hmedia mc
  all_goals simp only [Settings.tuned]; split
  · next hp => exact hrow 0 (by decide) hp
  · exact hstall
  · next hp => exact hrow 1 (by decide) hp
  · exact hmerge
  · next hp => exact of_decide_eq_true (hrow 2 (by decide) hp)
  · exact hhold
  · next hp => exact hrow 3 (by decide) hp
  · exact hidle
  · next hp => exact of_decide_eq_true (hrow 4 (by decide) hp)
  · exact hscrub
  · next hp => exact hrow 8 (by decide) hp
  · exact hmarks

theorem RawMedia.cfg_inRange {m : RawMedia} (ht : m.timesValid = true) (hm : m.marksValid = true) : m.cfg.inRange = true := by
  simp only [MediaCfg.inRange, RawMedia.marksValid, RawMedia.timesValid, RawMedia.cfg, Bool.and_eq_true, and_assoc] at ht hm ⊢
  obtain ⟨hext, -, hprogram, hread, hclear⟩ := ht
  exact ⟨hext, hprogram, hread, hclear, hm⟩

/-- A CONFIGURE without a fault gives a configuration in range. -/
theorem RawSettings.cfg_inRange {b : RawSettings} (h : b.configureFault = none) : b.cfg.inRange = true := by
  have hrow : ∀ i < 8, b.configureRow i = true := by
    simpa [RawSettings.configureFault, List.find?_eq_none] using h
  have hepoch := hrow 0 (by decide)
  have htoday := hrow 1 (by decide)
  have hlag := hrow 2 (by decide)
  have htimes : b.media.toList.all RawMedia.timesValid = true := (Bool.and_eq_true_iff.mp (hrow 3 (by decide))).1
  have hmarks : b.media.toList.all RawMedia.marksValid = true := hrow 4 (by decide)
  have hlimits := hrow 5 (by decide)
  have hwater := hrow 6 (by decide)
  have htables := hrow 7 (by decide)
  simp only [RawSettings.configureRow, RawSettings.rowValid, Bool.and_eq_true, decide_eq_true_eq, and_assoc,
    List.all_eq_true] at hepoch htoday hlag hlimits hwater htables
  obtain ⟨hstall, hmerge, hhold, hidle, hscrub⟩ := hlimits
  have hc := entries_valid htables.1
  have hp := policies_valid htables.2
  refine (Cfg.inRange_iff _).mpr ⟨(Settings.inRange_iff _).mpr ⟨hepoch, hlag, fun mc => ?_, hstall, hmerge, hhold, hidle, hscrub,
    hwater.2.2⟩, fun d hd => ?_, hc, hc, hp, hp⟩
  · exact (Quad.get_map b.media RawMedia.cfg mc).symm ▸ RawMedia.cfg_inRange ((Quad.all_toList _ _).mp htimes mc) ((Quad.all_toList _ _).mp hmarks mc)
  · cases hd
    exact htoday

theorem Cfg.roll_inRange {c : Cfg} {new : Nat} (hc : c.inRange = true) (h : rollRefused (c.today.getD 0) new = false) :
    (c.roll new).inRange = true := by
  obtain ⟨hset, -, -, hclasses, -, hpolicies⟩ := c.inRange_iff.mp hc
  refine (Cfg.inRange_iff _).mpr ⟨hset, fun d hd => ?_, hclasses, hclasses, hpolicies, hpolicies⟩
  cases hd
  simpa [rollRefused] using (Bool.or_eq_false_iff.mp h).2

/-! ## A loss of power (R176) -/

/-- What a loss of power leaves of the operations in progress keeps the canonical form of the media. -/
theorem State.tear_wf (s : State) (torn : List (Fin 4 × Torn)) (h : s.media.toList.all Media.wf = true) :
    (s.tear torn).toList.all Media.wf = true := by
  unfold State.tear
  generalize s.media = m at h ⊢
  induction torn generalizing m with
  | nil => exact h
  | cons t torn ih =>
    refine ih _ ?_
    dsimp only
    split
    · refine (Quad.all_toList _ _).mpr fun i => ?_
      rw [Quad.get_modify]
      split
      · exact Media.torn_wf _ _ _ ((Quad.all_toList _ _).mp h t.1)
      · exact (Quad.all_toList _ _).mp h i
    · exact h

/-! ## Every change keeps the invariant -/

theorem Outer.sound {c : Instr} {s u : State} (h : Outer c s u) (hs : s.sound = true) : u.sound = true := by
  have hcfg := s.sound_iff.mp hs
  cases h with
  | same => exact hs
  | powerOn torn =>
    exact (State.sound_iff _).mpr ⟨hcfg.1, s.tear_wf torn hcfg.2.1, (by decide : Cfg.initial.inRange = true),
      fun ch => by simp only [State.reset, Quad.get_all]; decide⟩
  | portReset =>
    refine (State.sound_iff _).mpr ⟨hcfg.1, hcfg.2.1, hcfg.2.2.1, fun ch => ?_⟩
    rw [Quad.get_all, Quad.get_map]
    exact ⟨by decide, IrqVector.quiet_ok (s.sound_vector hs ch)⟩
  | @setupEvent ch value _ hun =>
    refine s.sound_mapWindow hs ch _ (Window.setup_ok hun (s.sound_window hs ch)) ?_
    by_cases hv : { s.windows.get ch with responseEntries := value }.valid = true
    · simpa [Window.setup_of_valid hv] using IrqVector.ok_active (s.sound_vector hs ch)
    · simpa [Window.setup_of_invalid (by simpa using hv)] using s.sound_vector hs ch
  | fillWrite ch value =>
    obtain ⟨hok, hst⟩ := Window.fillWrite_ok value (s.sound_window hs ch)
    exact s.sound_mapWindow hs ch _ hok (hst ▸ s.sound_vector hs ch)
  | consumeWrite ch value =>
    obtain ⟨hok, hst⟩ := Window.consumeWrite_ok value (s.sound_window hs ch)
    exact s.sound_mapWindow hs ch _ hok (hst ▸ s.sound_vector hs ch)
  | fieldWrite ch field value =>
    obtain ⟨hok, hst⟩ := Window.fieldWrite_ok field value (s.sound_window hs ch)
    exact s.sound_mapWindow hs ch _ hok (hst ▸ s.sound_vector hs ch)
  | @fetch ch _ hf =>
    have hact : (s.windows.get ch).state = .active := by
      simp only [State.fetches, Bool.and_eq_true, decide_eq_true_eq] at hf
      exact hf.1.1.1
    obtain ⟨hvalid, hle, hroom⟩ := (Window.ok_of_active hact).mp (s.sound_window hs ch)
    exact s.sound_mapWindow hs ch _ (Window.ok_active hact hvalid hle hroom) (s.sound_vector hs ch)
  | @fetched ch _ _ _ hact => exact s.sound_mapWindow hs ch _ (Window.fetched_ok hact (s.sound_window hs ch)) (s.sound_vector hs ch)
  | @write ch _ hw =>
    simp only [State.writes, Bool.and_eq_true, decide_eq_true_eq] at hw
    obtain ⟨⟨⟨hact, -⟩, -⟩, hroom⟩ := hw
    obtain ⟨hvalid, hle, -⟩ := (Window.ok_of_active hact).mp (s.sound_window hs ch)
    exact s.sound_mapWindow hs ch _ (Window.ok_active hact hvalid hle fun _ => hroom) (s.sound_vector hs ch)
  | @written ch _ place unconsumed watermark hact hw =>
    refine State.sound_mapPort (State.sound_hostPut hs _) ch _ _ (Window.written_ok hact hw (s.sound_window hs ch)) ?_
    have hvec := s.sound_vector hs ch
    rw [hact] at hvec
    exact (congrArg (IrqVector.ok _) hact).trans (IrqVector.written_ok unconsumed watermark hvec)
  | @fire ch _ hact => exact s.sound_mapVector hs ch _ (IrqVector.fire_ok (s.sound_vector hs ch))
  | mask ch => exact s.sound_mapVector hs ch _ (IrqVector.mask_ok (s.sound_vector hs ch))
  | unmask ch => exact s.sound_mapVector hs ch _ (IrqVector.unmask_ok (s.sound_vector hs ch))
  | @stop ch _ _ hact =>
    exact s.sound_mapPort hs ch _ _ (Window.stopped_ok hact (s.sound_window hs ch)) (IrqVector.quiet_ok (s.sound_vector hs ch))
  | hostPut _ p => exact s.sound_hostPut hs p
  | clock => exact hs
  | media _ mc _ hf => exact s.sound_mapMedia hs mc hf
  | tune _ h =>
    obtain ⟨hset, htoday, hclasses⟩ := s.cfg.inRange_iff.mp hcfg.2.2.1
    exact s.sound_cfg hs ((Cfg.inRange_iff _).mpr ⟨Settings.tuned_inRange hset h, htoday, hclasses⟩)
  | configure _ h => exact s.sound_cfg hs (RawSettings.cfg_inRange h)
  | dayRoll _ h => exact s.sound_cfg hs (Cfg.roll_inRange hcfg.2.2.1 h)
  | setClassTable _ h =>
    obtain ⟨hset, htoday, hclasses, -, hpolicies⟩ := s.cfg.inRange_iff.mp hcfg.2.2.1
    exact s.sound_cfg hs ((Cfg.inRange_iff _).mpr
      ⟨hset, htoday, hclasses, entries_valid (by simpa [firstIndex_eq_none_iff] using h), hpolicies⟩)
  | setPolicy _ h =>
    obtain ⟨hset, htoday, hclasses, hpending, hpolicies, -⟩ := s.cfg.inRange_iff.mp hcfg.2.2.1
    exact s.sound_cfg hs ((Cfg.inRange_iff _).mpr
      ⟨hset, htoday, hclasses, hpending, hpolicies, policies_valid (by simpa [firstIndex_eq_none_iff] using h)⟩)

/-- Settles O4: a step without a command moves the clock alone, and a command's change outside the units is a named one, each of which
keeps the invariant. -/
theorem soundStatesStaySound : Obligations.SoundStatesStaySound := by
  intro s t hs h
  unfold step at h
  split at h
  · cases h
    exact hs
  · next c l _ =>
    obtain ⟨u, w, ho, rfl⟩ := exec_next_outer h
    exact ho.sound (s := { s with pending := l }) hs

end Sys2Proof.Machine
end

section
/-!
SUPPORT. The step, the reset state, and the commands of the Request Port on its rings and vectors (R166, R167, R169, R171, R185).
-/

namespace Sys2Proof.Machine

/-- Settles O1: the two branches of the step. -/
theorem stepTakesTheFrontCommand : Obligations.StepTakesTheFrontCommand := by
  refine ⟨fun c l s => rfl, fun s h => ?_⟩
  simp [step, h, State.idle]

/-- Settles O5: each clause is read off the power-on values. -/
theorem resetStateIsSoundAndStarting : Obligations.ResetStateIsSoundAndStarting := by
  refine ⟨by decide, ?bounded, rfl, rfl, rfl, rfl, rfl, rfl, rfl, rfl, ?channels, rfl, rfl, rfl, rfl, rfl, rfl, rfl, rfl, rfl, ?cursors,
    ?media⟩
  case bounded =>
    refine ⟨by decide, .nil, fun r hr => absurd hr List.not_mem_nil, by decide, by decide, by decide⟩
  case channels => decide
  case cursors => decide
  case media =>
    intro mc
    rw [show State.reset.media = .all ⟨[], []⟩ from rfl, Quad.get_all]
    exact ⟨rfl, fun idx => rfl⟩

/-! ## Byte layouts (R183) -/

@[simp] theorem length_le_bytes (n v : Nat) : (le n v).length = n := by
  induction n generalizing v with
  | zero => rfl
  | succ n ih => simp [le, ih]

theorem le_zero_bytes (n : Nat) : le n 0 = List.replicate n 0 := by
  induction n with
  | zero => rfl
  | succ n ih => simp [le, ih, List.replicate_succ]

/-- The piece of a joined row of bytes that begins after `a` is as long as `b`. -/
theorem slice_append {a b c : Bytes} {i n : Nat} (ha : a.length = i) (hb : b.length = n) : slice (a ++ (b ++ c)) i n = b := by
  subst ha hb
  simp [slice]

/-! ## The configuration window (R185) -/

@[simp] theorem Window.length_bytes (v : Window) : v.bytes.length = 64 := by
  simp [Window.bytes]

/-- A read at a channel's place of the window finds that channel's 64 bytes. -/
theorem State.windowRead_channel (s : State) (ch : Fin 4) : s.windowRead (64 * ch.val) 64 = (s.windows.get ch).bytes := by
  match ch with
  | 0 => exact slice_append (a := []) rfl (s.windows.c0.length_bytes)
  | 1 => exact slice_append s.windows.c0.length_bytes s.windows.c1.length_bytes
  | 2 =>
    simp only [State.windowRead, windowBytes, Quad.toList, List.flatMap_cons, ← List.append_assoc s.windows.c0.bytes]
    exact slice_append (by simp) s.windows.c2.length_bytes
  | 3 =>
    simp only [State.windowRead, windowBytes, Quad.toList, List.flatMap_cons, ← List.append_assoc s.windows.c0.bytes,
      ← List.append_assoc (s.windows.c0.bytes ++ s.windows.c1.bytes)]
    exact slice_append (by simp) s.windows.c3.length_bytes

/-- A write within a channel's 64 bytes is the command of its place there. -/
theorem windowCommand_channel (ch : Fin 4) (value : BitVec 64) {k : Nat} (hk : k < 64) :
    windowCommand (64 * ch.val + k) value = placeCommand ch value k := by
  have hch := ch.isLt
  have hdiv : (64 * ch.val + k) / 64 = ch.val := by omega
  have hmod : (64 * ch.val + k) % 64 = k := by omega
  simp only [windowCommand, hdiv, hmod, hch, dite_true]

theorem placeCommand_pad (ch : Fin 4) (value : BitVec 64) {k : Nat} (hlo : 40 ≤ k) (hhi : k < 64) :
    placeCommand ch value k = some (.registerWrite ch .pad value) := by
  obtain ⟨j, rfl⟩ := Nat.exists_eq_add_of_le' hlo
  simp [placeCommand, hhi]

/-! ## Changes of one window or vector -/

@[simp] theorem Quad.set_get {α : Type} (q : Quad α) (i : Fin 4) : q.set i (q.get i) = q := by
  match i with
  | 0 | 1 | 2 | 3 => rfl

theorem State.mapWindow_eq (s : State) (ch : Fin 4) (f : Window → Window) :
    s.mapWindow ch f = { s with windows := s.windows.set ch (f (s.windows.get ch)) } := rfl

theorem State.mapVector_eq (s : State) (ch : Fin 4) (f : IrqVector → IrqVector) :
    s.mapVector ch f = { s with vectors := s.vectors.set ch (f (s.vectors.get ch)) } := rfl

/-- A window that a write does not change leaves the state as it was. -/
theorem State.mapWindow_of_fixed {s : State} {ch : Fin 4} {f : Window → Window} (h : f (s.windows.get ch) = s.windows.get ch) :
    s.mapWindow ch f = s := by
  rw [State.mapWindow_eq, h, Quad.set_get]

/-- Settles O9: each write is a change of one window, or of none, and the layout is that of the window's bytes. -/
theorem windowWritesAreTakenOnlyInTheirStates : Obligations.WindowWritesAreTakenOnlyInTheirStates := by
  intro ch s v
  refine ⟨fun value => ⟨fun hact hle => ?_, fun h => ?_, fun hact hle => ?_, fun h => ?_⟩,
    fun value => ⟨fun hun f => ?_, fun hun => ?_, ?_, ?_⟩⟩
  · have : v.fillWrite value = { v with requestFill := value } := if_pos ⟨hact, hle⟩
    exact congrArg Host.Outcome.next (by rw [State.mapWindow_eq, this])
  · refine congrArg Host.Outcome.next (State.mapWindow_of_fixed (if_neg ?_))
    rintro ⟨hact, hle⟩
    exact h.elim (fun h => h hact) fun h => absurd hle (Nat.not_le.mpr h)
  · have : v.consumeWrite value = { v with responseConsume := value } := if_pos ⟨hact, hle⟩
    exact congrArg Host.Outcome.next (by rw [State.mapWindow_eq, this])
  · refine congrArg Host.Outcome.next (State.mapWindow_of_fixed (if_neg ?_))
    rintro ⟨hact, hle⟩
    exact h.elim (fun h => h hact) fun h => absurd hle (Nat.not_le.mpr h)
  · exact congrArg Host.Outcome.next (State.mapWindow_of_fixed (if_pos hun))
  · have hfield (f : WindowField) : v.fieldWrite f value = match f with
        | .requestBase => { v with requestBase := value }
        | .requestEntries => { v with requestEntries := value.setWidth 32 }
        | .responseBase => { v with responseBase := value }
        | .requestConsume => v
        | .responseFill => v
        | .pad => v := if_neg (by simp [hun])
    refine ⟨?_, ?_, ?_, ?_, ?_, ?_⟩
    · exact congrArg Host.Outcome.next (by rw [State.mapWindow_eq, hfield])
    · exact congrArg Host.Outcome.next (by rw [State.mapWindow_eq, hfield])
    · exact congrArg Host.Outcome.next (by rw [State.mapWindow_eq, hfield])
    · exact congrArg Host.Outcome.next (State.mapWindow_of_fixed (hfield .requestConsume))
    · exact congrArg Host.Outcome.next (State.mapWindow_of_fixed (hfield .responseFill))
    · exact congrArg Host.Outcome.next (State.mapWindow_of_fixed (hfield .pad))
  · rw [State.windowRead_channel, Window.bytes, le_zero_bytes]
  · refine ⟨windowCommand_channel ch value (k := 0) (by decide), windowCommand_channel ch value (by decide),
      windowCommand_channel ch value (by decide), windowCommand_channel ch value (by decide),
      windowCommand_channel ch value (by decide), windowCommand_channel ch value (by decide),
      windowCommand_channel ch value (by decide), windowCommand_channel ch value (by decide), fun k hlo hhi => ?_, fun offset h => ?_⟩
    · rw [windowCommand_channel ch value hhi, placeCommand_pad ch value hlo hhi]
    · exact dif_neg (by omega)

/-- Settles O10: the expiry fires the vector, or its condition fails. -/
theorem vectorsFireByMaskAndMeasure : Obligations.VectorsFireByMaskAndMeasure := by
  intro ch s i
  refine ⟨rfl, rfl, fun hact hm hu => ?_, fun h => ?_⟩
  · have hexec : exec (.interruptDelayExpiry ch) s = .next (s.mapVector ch IrqVector.fire) := if_pos ⟨hact, hm, hu⟩
    rw [hexec, State.mapVector_eq]
    rfl
  · refine if_neg ?_
    rintro ⟨hact, hm, hu⟩
    obtain h | h | h := h
    · exact h hact
    · exact absurd hm (by simp [show (s.vectors.get ch).measuring = false from h])
    · exact absurd hu (by simp [show (s.vectors.get ch).unsignalled = 0 from h])

theorem State.fetches_iff (s : State) (ch : Fin 4) :
    s.fetches ch = true ↔ (s.windows.get ch).state = .active ∧ (s.windows.get ch).fetching = false ∧
      0 < (s.windows.get ch).outstanding ∧ s.works.port.inProgress ch < Config.inProgress := by
  simp [State.fetches, and_assoc]

theorem State.writes_iff (s : State) (ch : Fin 4) :
    s.writes ch = true ↔ (s.windows.get ch).state = .active ∧ (s.windows.get ch).writing = false ∧ s.works.port.out.get ch ≠ [] ∧
      (s.windows.get ch).unconsumed < (s.windows.get ch).responseEntries.toNat := by
  simp [State.writes, and_assoc]

/-- Settles O11: the two conditions written out. -/
theorem fetchesAndResponseWritesBeginWhenTheRingsAllow : Obligations.FetchesAndResponseWritesBeginWhenTheRingsAllow := by
  intro ch s v
  refine ⟨fun h => ?_, fun h => ?_, fun h => ?_, fun h => ?_⟩
  · exact congrArg Host.Outcome.next (if_pos ((s.fetches_iff ch).mpr h))
  · exact congrArg Host.Outcome.next (if_neg (mt (s.fetches_iff ch).mp h))
  · exact congrArg Host.Outcome.next (if_pos ((s.writes_iff ch).mpr h))
  · exact congrArg Host.Outcome.next (if_neg (mt (s.writes_iff ch).mp h))

/-! ## The end of a fetch (R167) -/

/-- The state after a fetch has ended, before its request is settled. -/
def State.fetchEnded (s : State) (ch : Fin 4) : State :=
  s.mapWindow ch fun v => { v with fetching := false, requestConsume := v.requestConsume + 1 }

theorem exec_fetchDone_of_fetching {ch : Fin 4} {record buffer : Bytes} {s : State} (hact : (s.windows.get ch).state = .active)
    (hfetch : (s.windows.get ch).fetching = true) :
    exec (.fetchDone ch record buffer) s = (s.fetchEnded ch).settled (s.works.admitRequest ch record buffer) :=
  if_neg (by simp [hact, hfetch])

theorem Works.admitRequest_of_served {w : Works} {ch : Fin 4} {record buffer : Bytes} {q : Request} (hpass : inputPasses record = true)
    (htag : recordTag record ≠ 0) (hq : Request.ofBytes record buffer = some q) (hserves : w.part.serves q = true) :
    w.admitRequest ch record buffer = w.handOver ch record q := by
  have htag : recordTag record ≠ 0#32 := htag
  simp [Works.admitRequest, hpass, htag, hq, hserves]

theorem PartState.serves_iff (p : PartState) (q : Request) :
    p.serves q = true ↔ p = .running ∨ (p = .starting ∧ (q = .status ∨ ∃ b, q = .configure b)) ∨ (p = .rebuilding ∧ q = .status) := by
  cases p <;> cases q <;> simp [PartState.serves]

/-- Settles O12: a request that the part serves is handed over, and no consequence arises. -/
theorem fetchedRequestIsHandedToItsUnit : Obligations.FetchedRequestIsHandedToItsUnit := by
  intro ch record buffer s q hq hact hfetch hpass htag hreq hpart
  rw [exec_fetchDone_of_fetching hact hfetch,
    Works.admitRequest_of_served hpass htag hreq ((PartState.serves_iff _ _).mpr hpart)]
  exact State.settled_quiet _ _ hq

theorem Works.admitRequest_of_malformed {w : Works} {ch : Fin 4} {record buffer : Bytes}
    (h : inputPasses record = false ∨ recordTag record = 0 ∨ Request.ofBytes record buffer = none) :
    w.admitRequest ch record buffer = w.portRefuse ch (recordTag record) .malformed := by
  by_cases hc : (!inputPasses record || decide (recordTag record = 0)) = true
  · exact if_pos hc
  · have hnone : Request.ofBytes record buffer = none := by
      simp only [Bool.or_eq_true, Bool.not_eq_true', decide_eq_true_eq, not_or] at hc
      exact (h.resolve_left hc.1).resolve_left hc.2
    rw [Works.admitRequest, if_neg hc, hnone]

theorem Works.admitRequest_of_untimely {w : Works} {ch : Fin 4} {record buffer : Bytes} {q : Request}
    (hpass : inputPasses record = true) (htag : recordTag record ≠ 0) (hq : Request.ofBytes record buffer = some q)
    (hserves : w.part.serves q = false) : w.admitRequest ch record buffer = w.portRefuse ch (recordTag record) .notReady := by
  have htag : recordTag record ≠ 0#32 := htag
  simp [Works.admitRequest, hpass, htag, hq, hserves]

/-- The request of a refusal at the port, which enters progress to be ended at once. -/
def portRequest (id : Nat) (ch : Fin 4) (tag : BitVec 32) : Req := ⟨id, ch, tag, .status, 0, 0, 0, .handed, false⟩

theorem Works.reply_of_req {w : Works} {id : Nat} {r : Req} (h : w.req id = some r) (v : Verdict) (reason : Option Reason)
    (res : Result) (e : Bool) :
    w.reply id v reason res e = { w with port := w.port.offer r (responseTo r.tag v reason res e) } := by
  simp only [Works.reply, h]

/-- A refusal at the port answers a request that has just entered progress under a number of its own. -/
theorem Works.portRefuse_eq {w : Works} {ch : Fin 4} {tag : BitVec 32} {reason : Reason} (h : ∀ r ∈ w.port.reqs, r.id < w.serial) :
    w.portRefuse ch tag reason = { w with
      serial := w.serial + 1
      port := ({ w.port with reqs := w.port.reqs ++ [portRequest w.serial ch tag] } : Port).offer (portRequest w.serial ch tag)
        ⟨tag, .refused, some reason, none, false, false, .empty⟩ } := by
  have hnew : (w.port.reqs ++ [portRequest w.serial ch tag]).find? (fun r => decide (r.id = w.serial)) =
      some (portRequest w.serial ch tag) := by
    rw [List.find?_append, List.find?_eq_none.mpr fun r hr => by simpa using (h r hr).ne]
    simp [portRequest]
  exact Works.reply_of_req (w := { w with
    serial := w.serial + 1, port := { w.port with reqs := w.port.reqs ++ [portRequest w.serial ch tag] } }) hnew _ _ _ _

/-- The queue has a place for the refusal, which leaves the requests in progress as they were. -/
theorem Port.offer_portRequest_of_room {p : Port} {id : Nat} {ch : Fin 4} {tag : BitVec 32} {resp : Response}
    (h : ∀ r ∈ p.reqs, r.id < id) (hroom : (p.out.get ch).length < Config.outbound) :
    ({ p with reqs := p.reqs ++ [portRequest id ch tag] } : Port).offer (portRequest id ch tag) resp =
      { p with out := p.out.set ch (p.out.get ch ++ [resp]) } := by
  have hkeep : (p.reqs ++ [portRequest id ch tag]).filter (fun r => decide (r.id ≠ id)) = p.reqs := by
    rw [List.filter_append, List.filter_eq_self.mpr fun r hr => by simpa using (h r hr).ne]
    simp [portRequest]
  refine (if_neg (by simp [portRequest])).trans ((if_pos hroom).trans ?_)
  exact congrArg (fun l => ({ p with out := p.out.set ch (p.out.get ch ++ [resp]), reqs := l } : Port)) hkeep

/-- The queue is full: the request stays in progress, ended, and its refusal waits. -/
theorem Port.offer_portRequest_of_full {p : Port} {id : Nat} {ch : Fin 4} {tag : BitVec 32} {resp : Response}
    (h : ∀ r ∈ p.reqs, r.id < id) (hfull : Config.outbound ≤ (p.out.get ch).length) :
    ({ p with reqs := p.reqs ++ [portRequest id ch tag] } : Port).offer (portRequest id ch tag) resp =
      { p with
        waiting := p.waiting.set ch (p.waiting.get ch ++ [(id, resp)])
        reqs := p.reqs ++ [{ portRequest id ch tag with phase := .ended }] } := by
  have hkeep : updateWhere (fun q : Req => decide (q.id = id)) (fun q => { q with phase := .ended })
      (p.reqs ++ [portRequest id ch tag]) = p.reqs ++ [{ portRequest id ch tag with phase := .ended }] := by
    rw [updateWhere, List.map_append]
    refine congrArg₂ _ ?_ (by simp [portRequest])
    rw [List.map_congr_left fun r hr => if_neg (by simpa using (h r hr).ne), List.map_id']
  refine (if_neg (by simp [portRequest])).trans ((if_neg (Nat.not_lt.mpr hfull)).trans ?_)
  exact congrArg (fun l => ({ p with waiting := p.waiting.set ch (p.waiting.get ch ++ [(id, resp)]), reqs := l } : Port)) hkeep

theorem Works.portRefuse_tasks {w : Works} {ch : Fin 4} {tag : BitVec 32} {reason : Reason} (h : ∀ r ∈ w.port.reqs, r.id < w.serial) :
    (w.portRefuse ch tag reason).tasks = w.tasks := by
  rw [Works.portRefuse_eq h]

/-- Settles O13: the port's own request is refused at once, and its refusal queued or kept waiting. -/
theorem fetchedRequestIsRefusedAtThePort : Obligations.FetchedRequestIsRefusedAtThePort := by
  intro ch record buffer s reason hq
  refine ⟨fun h => if_pos (h.imp id fun h => by simp [h]), fun hact hfetch hser hcase => ?_⟩
  have hexec : exec (.fetchDone ch record buffer) s = .next
      { s.fetchEnded ch with works := s.works.portRefuse ch (recordTag record) reason } := by
    rw [exec_fetchDone_of_fetching hact hfetch]
    obtain ⟨rfl, hbad⟩ | ⟨rfl, hpass, htag, q, hreq, hstatus, hpart⟩ := hcase
    · rw [Works.admitRequest_of_malformed hbad]
      exact State.settled_quiet _ _ ((Works.portRefuse_tasks hser).trans hq)
    · have hserves : s.works.part.serves q = false := by
        rw [Bool.eq_false_iff, ne_eq, PartState.serves_iff]
        rintro (h | ⟨h, h' | ⟨b, h'⟩⟩ | ⟨h, h'⟩)
        · simp [h] at hpart
        · exact hstatus h'
        · exact hpart.elim (fun hp => by simp [h] at hp) fun hp => hp.2 b h'
        · exact hstatus h'
      rw [Works.admitRequest_of_untimely hpass htag hreq hserves]
      exact State.settled_quiet _ _ ((Works.portRefuse_tasks hser).trans hq)
  refine ⟨fun hroom => ?_, fun hfull => ?_⟩
  · rw [hexec, Works.portRefuse_eq hser, Port.offer_portRequest_of_room hser hroom]
    rfl
  · rw [hexec, Works.portRefuse_eq hser, Port.offer_portRequest_of_full hser hfull]
    rfl

/-- Settles O16: the report's write ends, and its request is answered as any other. -/
theorem reportStandsInItsBufferBeforeTheAnswer : Obligations.ReportStandsInItsBufferBeforeTheAnswer := by
  intro ch s hq
  refine ⟨fun h => ?_, fun b r hb hr hd hroom => ?_⟩
  · have hnone : s.works.port.writes.find? (fun b => decide (b.ch = ch)) = none :=
      List.find?_eq_none.mpr fun b hb => by simpa using h b hb
    simp [exec, execBufferWriteDone, hnone]
  · have hid : r.id = b.req := by simpa using List.find?_some hr
    rw [← hid] at hr ⊢
    have hreply := Works.reply_answered
      { s.works with port := { s.works.port with writes := s.works.port.writes.filter fun c => decide (c.req ≠ r.id) } } r .done none
      b.result hr hd hroom
    simp only [exec, execBufferWriteDone, hb, ← hid]
    exact (congrArg (State.settled _) hreply).trans (State.settled_quiet _ _ hq)

end Sys2Proof.Machine
end

section
/-!
SUPPORT. Notices and freed places, the discarding of a channel's requests, and the resets of the port (R168 to R173), with the loss of power
(R176).
-/

namespace Sys2Proof.Machine

@[simp] theorem Quad.set_set {α : Type} (q : Quad α) (i : Fin 4) (a b : α) : (q.set i a).set i b = q.set i b := by
  match i with
  | 0 | 1 | 2 | 3 => rfl

/-! ## Kinds of notice (R170) -/

theorem NoticeKind.index_injective : Function.Injective NoticeKind.index := by
  intro a b h
  cases a <;> cases b <;> first | rfl | cases h

theorem NoticeKind.mem_all (k : NoticeKind) : k ∈ NoticeKind.all := by cases k <;> decide

theorem NoticeKind.all_split (k : NoticeKind) :
    NoticeKind.all = NoticeKind.all.take k.index ++ k :: NoticeKind.all.drop (k.index + 1) := by cases k <;> rfl

theorem NoticeKind.index_lt_of_mem_take {k j : NoticeKind} (h : j ∈ NoticeKind.all.take k.index) : j.index < k.index := by
  revert j
  cases k <;> decide

/-- The first kind of the table with a property is the one that no kind before it shares it with. -/
theorem NoticeKind.find?_all_eq_some {p : NoticeKind → Bool} {k : NoticeKind} (hk : p k = true)
    (hfirst : ∀ j : NoticeKind, j.index < k.index → p j = false) : NoticeKind.all.find? p = some k :=
  List.find?_eq_some_iff_append.mpr ⟨hk, _, _, k.all_split, fun j hj => by simp [hfirst j (index_lt_of_mem_take hj)]⟩

/-- The notice of a kind after another kind's flag has been cleared. -/
theorem getD_clear (l : List (Option PendingNotice)) (i j : Nat) :
    (l.set i none).getD j none = if j = i then none else l.getD j none := by
  by_cases h : j = i
  · subst h
    simp [List.getD, List.getElem?_set]
    split <;> simp
  · simp [List.getD, h, List.getElem?_set_ne (Ne.symm h)]

/-! ## Pending notices posted (R170) -/

/-- The port after the pending notice of a kind, if there is one, has joined a channel's queue. -/
def Port.post (p : Port) (ch : Fin 4) (k : NoticeKind) : Port :=
  { p with notices := p.notices.set k.index none,
           out := p.out.set ch (p.out.get ch ++ ((p.notices.getD k.index none).map (·.record k)).toList) }

theorem set_of_getD_eq_none {l : List (Option PendingNotice)} {i : Nat} (h : l.getD i none = none) : l.set i none = l := by
  refine List.ext_getElem? fun j => ?_
  rw [List.getElem?_set]
  split
  · next hij =>
    subst hij
    split
    · next hlt => simpa [List.getD, hlt] using h.symm
    · next hlt => simp [List.getElem?_eq_none (Nat.le_of_not_lt hlt)]
  · rfl

/-- A pending notice whose channel is ACTIVE with a place in its queue is posted. -/
theorem Works.postPending_eq {x : Ctx} {w : Works} {k : NoticeKind} {ch : Fin 4} (hroute : x.set.routes.getD k.index 0 = ch)
    (hact : (x.windows.get ch).state = .active) (hroom : (w.port.out.get ch).length < Config.outbound) :
    w.postPending x k = { w with port := w.port.post ch k } := by
  have htakes : w.takesNotice x ch = true := by simp [Works.takesNotice, hact, hroom]
  cases hn : w.port.notices.getD k.index none with
  | none => simp only [Works.postPending, hn, Port.post, set_of_getD_eq_none hn, Option.map_none, Option.toList_none,
      List.append_nil, Quad.set_get]
  | some n => simp only [Works.postPending, hn, hroute, htakes, if_true, Port.post]; rfl

/-- Kinds routed to an ACTIVE channel whose queue has room for all of them are posted in their order. -/
theorem Works.postKinds_eq {x : Ctx} {ch : Fin 4} (hact : (x.windows.get ch).state = .active) (kinds : List NoticeKind) (w : Works)
    (hroute : ∀ k ∈ kinds, x.set.routes.getD k.index 0 = ch) (hdistinct : kinds.Nodup)
    (hroom : (w.port.out.get ch).length + kinds.length ≤ Config.outbound) :
    ∃ notices, w.postKinds x kinds = { w with port := { w.port with
        notices := notices
        out := w.port.out.set ch (w.port.out.get ch ++
          kinds.filterMap fun k => (w.port.notices.getD k.index none).map fun n => n.record k) } } ∧
      ∀ k : NoticeKind, notices.getD k.index none = if k ∈ kinds then none else w.port.notices.getD k.index none := by
  induction kinds generalizing w with
  | nil => exact ⟨w.port.notices, by simp [Works.postKinds], by simp⟩
  | cons k kinds ih =>
    obtain ⟨hk, hdistinct⟩ := List.nodup_cons.mp hdistinct
    have hone := Works.postPending_eq (w := w) (hroute k List.mem_cons_self) hact
      (by simp only [List.length_cons] at hroom; omega)
    have hshort : ((w.port.notices.getD k.index none).map (·.record k)).toList.length ≤ 1 := by
      cases w.port.notices.getD k.index none <;> simp
    obtain ⟨notices, heq, hn⟩ := ih { w with port := w.port.post ch k } (fun j hj => hroute j (List.mem_cons_of_mem _ hj)) hdistinct
      (by simp only [Port.post, Quad.get_set_self, List.length_append, List.length_cons] at hroom ⊢; omega)
    refine ⟨notices, ?_, fun j => ?_⟩
    · rw [Works.postKinds, List.foldl_cons, hone]
      refine heq.trans ?_
      have hrest : (kinds.filterMap fun j => ((w.port.post ch k).notices.getD j.index none).map fun n => n.record j) =
          kinds.filterMap fun j => (w.port.notices.getD j.index none).map fun n => n.record j := by
        refine List.filterMap_congr fun j hj => ?_
        have hne : j.index ≠ k.index := fun h => hk (NoticeKind.index_injective h ▸ hj)
        rw [Port.post, getD_clear, if_neg hne]
      rw [hrest]
      cases hnk : w.port.notices.getD k.index none <;>
        simp [-List.getD_eq_getElem?_getD, Port.post, hnk]
    · rw [hn, Port.post, getD_clear]
      by_cases hj : j = k
      · simp [hj]
      · have hi : j.index ≠ k.index := fun h => hj (NoticeKind.index_injective h)
        simp only [hi, if_false, List.mem_cons, hj, false_or]

theorem exec_setupEvent_of_unset {ch : Fin 4} {value : BitVec 32} {s : State} {v : Window} (hun : (s.windows.get ch).state = .unset)
    (hv : (s.windows.get ch).setup value = v) :
    exec (.setupEvent ch value) s = if v.state ≠ .active then .next { s with windows := s.windows.set ch v } else
      ({ s with windows := s.windows.set ch v } : State).settled
        (s.works.postKinds { s.ctx with windows := s.windows.set ch v }
          (NoticeKind.all.filter fun k => decide (s.ctx.set.routes.getD k.index 0 = ch))) := by
  subst hv
  simp only [exec, execSetupEvent, hun, ne_eq, not_true_eq_false, if_false, State.mapWindow_windows, Quad.get_modify_self]
  rfl

/-- Settles O8: an invalid setup changes the window alone; a valid one posts the pending notices of the channel. -/
theorem setupEventActivatesAValidChannel : Obligations.SetupEventActivatesAValidChannel := by
  intro ch value s hq v
  refine ⟨fun hun => if_pos hun, fun hun hbad => ?_, fun hun hgood hempty => ?_⟩
  · rw [exec_setupEvent_of_unset hun (Window.setup_of_invalid hbad), if_pos (by simp [show (s.windows.get ch).state = _ from hun])]
  · have hset : v.setup value = _ := Window.setup_of_valid hgood
    have hexec := exec_setupEvent_of_unset (s := s) (value := value) hun rfl
    rw [show s.windows.get ch = v from rfl, if_neg (by simp [hset])] at hexec
    obtain ⟨notices, heq, hn⟩ := Works.postKinds_eq (ch := ch) (x := { s.ctx with windows := s.windows.set ch (v.setup value) })
      (by rw [Quad.get_set_self, hset]) (NoticeKind.all.filter fun k => decide (s.ctx.set.routes.getD k.index 0 = ch)) s.works
      (fun k hk => by simpa using (List.mem_filter.mp hk).2) ((by decide : NoticeKind.all.Nodup).filter _)
      (by rw [hempty]; exact (Nat.zero_add _).trans_le ((List.length_filter_le _ _).trans (by decide)))
    refine ⟨notices, ?_, fun k => ?_⟩
    · rw [hexec, heq, State.settled_quiet, List.filterMap_filter, hempty, hset]
      case h => exact hq
      simp only [decide_eq_true_eq, List.nil_append]
      rfl
    · rw [hn]
      simp only [List.mem_filter, k.mem_all, true_and, decide_eq_true_eq]
      rfl

/-! ## The end of a response write (R169) -/

/-- A freed place goes to the first pending notice routed to the channel. -/
theorem Works.givePlace_of_pending {x : Ctx} {w : Works} {ch : Fin 4} {k : NoticeKind} {n : PendingNotice}
    (hn : w.port.notices.getD k.index none = some n) (hroute : x.set.routes.getD k.index 0 = ch)
    (hfirst : ∀ j : NoticeKind, j.index < k.index → ¬((w.port.notices.getD j.index none).isSome ∧ x.set.routes.getD j.index 0 = ch)) :
    w.givePlace x ch = { w with port := { w.port with
      notices := w.port.notices.set k.index none, out := w.port.out.set ch (w.port.out.get ch ++ [n.record k]) } } := by
  have hfind : (NoticeKind.all.find? fun j => (w.port.notices.getD j.index none).isSome && decide (x.set.routes.getD j.index 0 = ch)) = some k :=
    NoticeKind.find?_all_eq_some (by simp only [hn, hroute]; simp) fun j hj => by simpa using hfirst j hj
  simp only [Works.givePlace, hfind, hn]
  rfl

theorem Works.find_pending_eq_none {x : Ctx} {w : Works} {ch : Fin 4}
    (h : ∀ k : NoticeKind, ¬((w.port.notices.getD k.index none).isSome ∧ x.set.routes.getD k.index 0 = ch)) :
    (NoticeKind.all.find? fun k => (w.port.notices.getD k.index none).isSome && decide (x.set.routes.getD k.index 0 = ch)) = none :=
  List.find?_eq_none.mpr fun k _ => by simpa only [Bool.and_eq_true, decide_eq_true_eq] using h k

/-- Without a pending notice it goes to the owner that has waited longest. -/
theorem Works.givePlace_of_waiting {x : Ctx} {w : Works} {ch : Fin 4} {id : Nat} {resp : Response} {rest : List (Nat × Response)}
    (h : ∀ k : NoticeKind, ¬((w.port.notices.getD k.index none).isSome ∧ x.set.routes.getD k.index 0 = ch))
    (hwait : w.port.waiting.get ch = (id, resp) :: rest) :
    w.givePlace x ch = { w with port := { w.port with
      out := w.port.out.set ch (w.port.out.get ch ++ [resp]), waiting := w.port.waiting.set ch rest,
      reqs := w.port.reqs.filter fun r => decide (r.id ≠ id) } } := by
  simp only [Works.givePlace, Works.find_pending_eq_none h, hwait]
  rfl

/-- Without either it stays free. -/
theorem Works.givePlace_of_idle {x : Ctx} {w : Works} {ch : Fin 4}
    (h : ∀ k : NoticeKind, ¬((w.port.notices.getD k.index none).isSome ∧ x.set.routes.getD k.index 0 = ch)) (hwait : w.port.waiting.get ch = []) :
    w.givePlace x ch = w := by
  simp only [Works.givePlace, Works.find_pending_eq_none h, hwait]

/-- A freed place changes nothing but the port. -/
theorem Works.givePlace_port (x : Ctx) (w : Works) (ch : Fin 4) :
    w.givePlace x ch = { w with port := (w.givePlace x ch).port } := by
  unfold Works.givePlace
  dsimp only
  split
  · split <;> rfl
  · split <;> rfl

/-- Settles O14: the write's own changes, and the place freed given by the first case that holds. -/
theorem responseWrittenAdvancesAndGivesItsPlace : Obligations.ResponseWrittenAdvancesAndGivesItsPlace := by
  intro ch s hq v i
  refine ⟨fun h => if_pos (h.imp id fun h => by simp [show (s.windows.get ch).writing = false from h]),
    fun resp l hact hwrite hout => ?_⟩
  let u : Works := { s.works with port := { s.works.port with out := s.works.port.out.set ch l } }
  let x : Ctx := { s.ctx with windows := s.windows.modify ch fun v => { v with writing := false, responseFill := v.responseFill + 1 } }
  have hexec : exec (.responseWriteDone ch) s =
      (((s.hostPut (some (v.responsePlace, resp.bytes))).mapWindow ch fun v =>
          { v with writing := false, responseFill := v.responseFill + 1 }).mapVector ch fun i =>
        i.written (v.responseFill + 1 - v.responseConsume).toNat
          (min (s.cfg.settings.watermarks.get ch) v.responseEntries.toNat)).settled (u.givePlace x ch) := by
    have hcond : ¬((s.windows.get ch).state ≠ .active ∨ !(s.windows.get ch).writing) := by
      simp [show (s.windows.get ch).state = _ from hact, show (s.windows.get ch).writing = _ from hwrite]
    simp only [exec, execResponseWriteDone, hcond, if_false, hout, State.mapWindow_windows, State.hostPut_windows,
      Quad.get_modify_self]
    rfl
  refine ⟨(u.givePlace x ch).port, ?_, fun k n hn hroute hfirst => ?_, fun hnone => ⟨fun id waits rest hwait => ?_, fun hwait => ?_⟩⟩
  · rw [hexec, Works.givePlace_port, State.settled_quiet]
    case h => exact hq
    simp only [State.mapVector_eq, State.mapWindow_eq, State.hostPut, IrqVector.written, IrqVector.fire]
    rfl
  · rw [Works.givePlace_of_pending (w := u) (x := x) hn hroute hfirst]
    simp [u]
  · rw [Works.givePlace_of_waiting (w := u) (x := x) hnone hwait]
    simp [u]
  · rw [Works.givePlace_of_idle (w := u) (x := x) hnone hwait]

end Sys2Proof.Machine
end

section
/-!
SUPPORT. The discarding of a channel's requests (R172, R173), the port reset with what it makes of cursors and batches (R124, R140), and
what a loss of power can disturb on the media (R176).
-/

namespace Sys2Proof.Machine

/-! ## Discarding (R172, R173) -/

/-- A request that a discard of channels with property `on` leaves in progress: not ended, and no report of it under way. -/
def Port.goesOn (p : Port) (q : Req) : Prop := q.phase ≠ .ended ∧ ∀ b ∈ p.writes, b.ch = q.ch → b.req ≠ q.id

theorem Port.mem_discard_reqs (p : Port) (ch : Fin 4) (r : Req) :
    r ∈ (p.discard ch).reqs ↔
      ∃ q ∈ p.reqs, r = (if q.ch = ch then { q with discarded := true } else q) ∧ (q.ch = ch → p.goesOn q) := by
  simp only [Port.discard, List.mem_map, List.mem_filter, Bool.not_eq_true', Bool.and_eq_false_iff, Bool.or_eq_false_iff,
    decide_eq_false_iff_not, List.any_eq_false, decide_eq_true_eq, and_imp, Port.goesOn]
  constructor
  · rintro ⟨q, ⟨hq, hkeep⟩, rfl⟩
    refine ⟨q, hq, rfl, fun hch => ?_⟩
    obtain ⟨hphase, hnone⟩ := hkeep.resolve_left (not_not.mpr hch)
    exact ⟨hphase, fun b hb hbch => hnone b hb (hbch.trans hch)⟩
  · rintro ⟨q, hq, rfl, hkeep⟩
    refine ⟨q, ⟨hq, ?_⟩, rfl⟩
    by_cases hch : q.ch = ch
    · exact .inr ⟨(hkeep hch).1, fun b hb hbch => (hkeep hch).2 b hb (hbch.trans hch.symm)⟩
    · exact .inl hch

/-- What a discard of several channels leaves. -/
theorem Port.foldl_discard (l : List (Fin 4)) (p : Port) (hl : l.Nodup) :
    let t := l.foldl (fun p ch => p.discard ch) p
    (∀ ch, t.out.get ch = (if ch ∈ l then [] else p.out.get ch)) ∧
    (∀ ch, t.waiting.get ch = (if ch ∈ l then [] else p.waiting.get ch)) ∧
    t.writes = p.writes.filter (fun b => decide (b.ch ∉ l)) ∧ t.notices = p.notices ∧
    ∀ r, r ∈ t.reqs ↔
      ∃ q ∈ p.reqs, r = (if q.ch ∈ l then { q with discarded := true } else q) ∧ (q.ch ∈ l → p.goesOn q) := by
  induction l generalizing p with
  | nil => simp
  | cons c l ih =>
    obtain ⟨hc, hl⟩ := List.nodup_cons.mp hl
    obtain ⟨hout, hwait, hwrites, hnotices, hreqs⟩ := ih (p.discard c) hl
    refine ⟨fun ch => ?_, fun ch => ?_, ?_, hnotices, fun r => ?_⟩
    · rw [List.foldl_cons, hout, Port.discard, Quad.get_set]
      by_cases h : ch = c <;> simp [h]
    · rw [List.foldl_cons, hwait, Port.discard, Quad.get_set]
      by_cases h : ch = c <;> simp [h]
    · rw [List.foldl_cons, hwrites, Port.discard, List.filter_filter]
      refine List.filter_congr fun b _ => ?_
      by_cases h : b.ch = c <;> simp [h, hc]
    · rw [List.foldl_cons, hreqs]
      simp only [Port.mem_discard_reqs]
      constructor
      · rintro ⟨q', ⟨q, hq, rfl, hone⟩, rfl, hrest⟩
        refine ⟨q, hq, ?_, fun hmem => ?_⟩
        · by_cases h : q.ch = c <;> simp [h, hc]
        · by_cases h : q.ch = c
          · exact hone h
          · rw [if_neg h] at hrest
            obtain ⟨hphase, hnone⟩ := hrest ((List.mem_cons.mp hmem).resolve_left h)
            exact ⟨hphase, fun b hb hbch => hnone b (by simpa [Port.discard, hb] using fun he => h (hbch ▸ he)) hbch⟩
      · rintro ⟨q, hq, rfl, hall⟩
        refine ⟨_, ⟨q, hq, rfl, fun h => hall (h ▸ List.mem_cons_self)⟩, ?_, fun hmem => ?_⟩
        · by_cases h : q.ch = c <;> simp [h, hc]
        · have h : q.ch ≠ c := fun h => hc (by simpa [h] using hmem)
          rw [if_neg h] at hmem ⊢
          obtain ⟨hphase, hnone⟩ := hall (List.mem_cons_of_mem _ hmem)
          exact ⟨hphase, fun b hb => hnone b (List.mem_filter.mp hb).1⟩

/-- Settles O15: the failed access stops its channel, whose requests are discarded. -/
theorem hostAccessFailureStopsItsChannelAlone : Obligations.HostAccessFailureStopsItsChannelAlone := by
  intro ch access s hq v p under
  have hunder : (s.windows.get ch).accesses access = true ↔ under := by
    cases access <;> simp [Window.accesses, under, v]
  refine ⟨fun h => if_pos (by simpa using mt hunder.mp h), fun h => ⟨p.discard ch, ?_, rfl, rfl, rfl, rfl, ?_, fun r hr hch => ?_,
    fun r hr hch hphase hnone => ?_⟩⟩
  · simp only [exec, execHostAccessFailure, hunder.mpr h, Bool.not_true, Bool.false_eq_true, if_false]
    rw [State.settled_quiet]
    case h => exact hq
    rfl
  · simp only [Port.discard, List.filter_map]
    rw [List.filter_congr (q := fun r => decide (r.ch ≠ ch)), List.filter_filter, List.map_congr_left (g := id), List.map_id]
    · exact List.filter_congr fun r _ => by by_cases h : r.ch = ch <;> simp [h]
    · intro r hr
      have : r.ch ≠ ch := by simpa using (Bool.and_eq_true_iff.mp (List.mem_filter.mp hr).2).1
      simp [this]
    · intro r _
      by_cases h : r.ch = ch <;> simp [h]
  · obtain ⟨q, hq, rfl, hgo⟩ := (Port.mem_discard_reqs p ch r).mp hr
    have hqch : q.ch = ch := by
      by_contra h
      simp only [h, if_false] at hch
    simp only [hqch, if_true]
    obtain ⟨hphase, hnone⟩ := hgo hqch
    exact ⟨trivial, hphase, fun b hb hbch => hnone b hb (hbch.trans hqch.symm)⟩
  · exact (Port.mem_discard_reqs p ch _).mpr ⟨r, hr, by simp [hch], fun _ => ⟨hphase, fun b hb _ => hnone b hb⟩⟩

/-! ## Cursors freed (R109, R122, R124) -/

/-- Releasing pins changes nothing but the images of the sheet cache. -/
theorem Works.releasePins_cache (w : Works) (b : Batch) :
    w.releasePins b = { w with array := { w.array with cache := (w.releasePins b).array.cache } } := by
  have h (l : List Nat) (w : Works) : l.foldl (fun w p => w.unpin p) w =
      { w with array := { w.array with cache := (l.foldl (fun w p => w.unpin p) w).array.cache } } := by
    induction l generalizing w with
    | nil => rfl
    | cons p l ih => rw [List.foldl_cons, ih]; rfl
  exact h _ w

/-- The cursors with one of them FREE, its generation kept. -/
def freeAt (l : List Cursor) (n : Nat) : List Cursor := l.set n { Cursor.free with generation := (l.getD n .free).generation }

theorem getD_freeAt (l : List Cursor) (n m : Nat) :
    (freeAt l n).getD m .free = if m = n then { Cursor.free with generation := (l.getD n .free).generation } else l.getD m .free := by
  by_cases h : m = n
  · subst h
    by_cases hlt : m < l.length
    · simp [freeAt, hlt]
    · have hge : l.length ≤ m := Nat.le_of_not_lt hlt
      simp [freeAt, List.set_eq_of_length_le hge, List.getElem?_eq_none hge]
  · simp [freeAt, h, List.getElem?_set_ne (Ne.symm h)]

theorem Works.cursor_setCursor_self_generation (w : Works) (n : Nat) (c : Cursor) (h : c.generation = (w.cursor n).generation) :
    ((w.setCursor n c).cursor n).generation = (w.cursor n).generation := by
  by_cases hlt : n < w.enquiry.cursors.length
  · simp [Works.cursor, hlt, h]
  · have hge : w.enquiry.cursors.length ≤ n := Nat.le_of_not_lt hlt
    simp [Works.cursor, List.set_eq_of_length_le hge]

/-- A prefetch dropped changes the cursor, and of the cache the image it held pinned. -/
theorem Works.dropPrefetch_eq (w : Works) (n : Nat) :
    w.dropPrefetch n = { w with
      array := { w.array with cache := (w.dropPrefetch n).array.cache }
      enquiry := { w.enquiry with cursors := w.enquiry.cursors.set n { w.cursor n with prefetch := .none } } } := by
  unfold Works.dropPrefetch
  dsimp only
  split <;> rfl

/-- A cursor freed keeps its generation, and of the cache the image it held is unpinned. -/
theorem Works.freeCursor_eq (w : Works) (n : Nat) :
    w.freeCursor n = { w with
      array := { w.array with cache := (w.dropPrefetch n).array.cache }
      enquiry := { w.enquiry with cursors := freeAt w.enquiry.cursors n } } := by
  have hgen : ((w.dropPrefetch n).cursor n).generation = (w.cursor n).generation := by
    rw [Works.dropPrefetch_eq]
    exact w.cursor_setCursor_self_generation n _ rfl
  rw [Works.freeCursor, hgen, Works.dropPrefetch_eq]
  simp only [Works.setCursor, List.set_set]
  rfl

/-- Freeing several cursors changes them, and of the cache the images they held. -/
theorem Works.foldl_freeCursor (l : List Nat) (w : Works) :
    ∃ cache, l.foldl (fun w n => w.freeCursor n) w = { w with
      array := { w.array with cache := cache }, enquiry := { w.enquiry with cursors := l.foldl freeAt w.enquiry.cursors } } := by
  induction l generalizing w with
  | nil => exact ⟨w.array.cache, rfl⟩
  | cons n l ih =>
    obtain ⟨cache, h⟩ := ih (w.freeCursor n)
    exact ⟨cache, by rw [List.foldl_cons, h, Works.freeCursor_eq]; rfl⟩

theorem getD_foldl_freeAt (ns : List Nat) (l : List Cursor) (m : Nat) :
    (ns.foldl freeAt l).getD m .free =
      if m ∈ ns then { Cursor.free with generation := (l.getD m .free).generation } else l.getD m .free := by
  induction ns generalizing l with
  | nil => simp
  | cons n ns ih =>
    rw [List.foldl_cons, ih, getD_freeAt]
    by_cases h : m = n <;> by_cases hm : m ∈ ns <;> simp_all

/-! ## Batches at a port reset (R140) -/

/-- The end of COLLECTING batches changes those batches, the numbering, and of the cache the images they held. -/
theorem Works.foldl_endBatch (l : List (Fin 4)) (w : Works) (hl : l.Nodup) :
    let t := l.foldl (fun w ch => if (w.batch ch).state = .collecting then w.endBatch ch else w) w
    (∃ serial cache batches, t = { w with
      serial := serial, array := { w.array with cache := cache }, amend := { w.amend with batches := batches } }) ∧
    ∀ ch, (ch ∈ l → (w.batch ch).state = .collecting → (t.batch ch).state = .none ∧ (t.batch ch).entries = []) ∧
      (ch ∉ l ∨ (w.batch ch).state ≠ .collecting → t.batch ch = w.batch ch) := by
  induction l generalizing w with
  | nil => exact ⟨⟨_, _, _, rfl⟩, by simp⟩
  | cons c l ih =>
    obtain ⟨hc, hl⟩ := List.nodup_cons.mp hl
    by_cases hcoll : (w.batch c).state = .collecting
    · obtain ⟨⟨serial, cache, batches, heq⟩, hb⟩ := ih (w.endBatch c) hl
      have hself := w.endBatch_batch_self c
      refine ⟨⟨serial, cache, batches, ?_⟩, fun ch => ?_⟩
      · rw [List.foldl_cons, if_pos hcoll, heq, Works.endBatch_eq, Works.releasePins_cache]
      · rw [List.foldl_cons, if_pos hcoll]
        by_cases h : ch = c
        · subst h
          have hsame := (hb ch).2 (.inl hc)
          refine ⟨fun _ _ => ?_, fun hn => absurd hn (by simp [hcoll])⟩
          rw [hsame, hself]
          exact ⟨rfl, rfl⟩
        · have hch := hb ch
          rw [w.endBatch_batch_other h] at hch
          simpa [h] using hch
    · obtain ⟨heq, hb⟩ := ih w hl
      refine ⟨by rw [List.foldl_cons, if_neg hcoll]; exact heq, fun ch => ?_⟩
      rw [List.foldl_cons, if_neg hcoll]
      by_cases h : ch = c
      · subst h
        exact ⟨fun _ h => absurd h hcoll, fun _ => (hb ch).2 (.inl hc)⟩
      · simpa [h] using hb ch

theorem Request.reads_eq_false_iff (q : Request) :
    q.reads = false ↔ (∀ a b c d e, q ≠ .readCursor a b c d e) ∧ ∀ a b, q ≠ .lookupCall a b := by
  cases q <;> simp [Request.reads]

/-- The units after a port reset. -/
theorem exec_portReset (s : State) (hq : s.quiet) :
    ∃ serial cache batches,
      exec .portReset s = .next { s with
        windows := .all .initial
        vectors := s.vectors.map IrqVector.quiet
        works := { s.works with
          serial := serial
          port := { channels.foldl (fun p ch => p.discard ch) s.works.port with
            reqs := (channels.foldl (fun p ch => p.discard ch) s.works.port).reqs.filter fun r => !r.request.reads }
          array := { s.works.array with cache := cache }
          enquiry := { s.works.enquiry with cursors := cursorNumbers.foldl freeAt s.works.enquiry.cursors, lookups := [] }
          amend := { s.works.amend with batches := batches } } } ∧
      ∀ ch : Fin 4, ((s.works.batch ch).state = .collecting → (batches.get ch).state = .none ∧ (batches.get ch).entries = []) ∧
        ((s.works.batch ch).state ≠ .collecting → batches.get ch = s.works.batch ch) := by
  let w : Works := { s.works with port := channels.foldl (fun p ch => p.discard ch) s.works.port }
  obtain ⟨⟨serial, cache, batches, heq⟩, hb⟩ := Works.foldl_endBatch channels w (by decide)
  obtain ⟨cache', hfree⟩ := Works.foldl_freeCursor cursorNumbers w.amendReset
  rw [show w.amendReset = _ from heq] at hfree
  refine ⟨serial, cache', batches, ?_, fun ch => ?_⟩
  · have hexec : exec .portReset s = ({ s with windows := .all .initial, vectors := s.vectors.map IrqVector.quiet } : State).settled
        w.amendReset.enquiryReset := rfl
    rw [hexec, Works.enquiryReset, show w.amendReset = _ from heq, hfree, State.settled_quiet]
    case h => exact hq
  · have hmem : ch ∈ channels := by revert ch; decide
    have hch := hb ch
    rw [heq] at hch
    exact ⟨hch.1 hmem, fun h => hch.2 (.inr h)⟩

/-- Settles O7: each part of the port is emptied, cursors and COLLECTING batches end, and the archive is untouched. -/
theorem portResetEmptiesThePort : Obligations.PortResetEmptiesThePort := by
  intro s hq
  obtain ⟨serial, cache, batches, hexec, hbatches⟩ := exec_portReset s hq
  obtain ⟨hout, hwait, hwrites, hnotices, hreqs⟩ := Port.foldl_discard channels s.works.port (by decide)
  have hall (ch : Fin 4) : ch ∈ channels := by revert ch; decide
  refine ⟨_, hexec, rfl, fun ch => ⟨Quad.get_map _ _ _, ?_, ?_⟩, ?_, fun r => ?_, hnotices, fun n hn => ?_, rfl, hbatches, rfl, rfl,
    rfl, rfl, rfl, rfl, rfl, rfl, rfl, rfl, rfl, hq⟩
  · exact (hout ch).trans (if_pos (hall ch))
  · exact (hwait ch).trans (if_pos (hall ch))
  · exact hwrites.trans (by simp [hall])
  · simp only [List.mem_filter, hreqs, hall, if_true, forall_const, Bool.not_eq_true', Request.reads_eq_false_iff]
    constructor
    · rintro ⟨⟨q, hq, rfl, hphase, hnone⟩, hreads⟩
      exact ⟨q, hq, rfl, hphase, hnone, hreads⟩
    · rintro ⟨q, hq, rfl, hphase, hnone, hreads⟩
      exact ⟨⟨q, hq, rfl, hphase, hnone⟩, hreads⟩
  · simp only [Works.cursor, getD_foldl_freeAt, cursorNumbers, List.mem_range, hn, if_true]

/-! ## What a torn operation can disturb (R92, R176) -/

theorem mem_tblPut_of_ne {α : Type} {k : Nat} {a : α} {t : Tbl α} {p : Nat × α} (h : p ∈ t) (hne : p.1 ≠ k) : p ∈ tblPut k a t := by
  induction t with
  | nil => cases h
  | cons q t ih =>
    obtain ⟨j, b⟩ := q
    simp only [tblPut]
    obtain rfl | h := List.mem_cons.mp h
    · split
      · simp
      · rw [if_neg (Ne.symm hne)]
        simp
    · split
      · exact List.mem_cons_of_mem _ (List.mem_cons_of_mem _ h)
      · split
        · exact List.mem_cons_of_mem _ h
        · exact List.mem_cons_of_mem _ (ih h)

/-- A retire mark is put on its extent alone. -/
theorem Media.mem_retire {m : Media} {e f : Nat} (h : f ≠ e) : f ∈ (m.retire e).retired ↔ f ∈ m.retired := by
  simp only [Media.retire, List.mem_map]
  constructor
  · rintro ⟨p, hp, rfl⟩
    obtain rfl | hp := mem_tblPut _ _ _ _ hp
    · exact absurd rfl h
    · obtain ⟨g, hg, rfl⟩ := List.mem_map.mp hp
      exact hg
  · intro hf
    exact ⟨(f, ()), mem_tblPut_of_ne (List.mem_map.mpr ⟨f, hf, rfl⟩) h, rfl⟩

/-- What is put in slots of an extent leaves the retire marks and the slots of every other number as they were. -/
theorem Media.putAll_frame (m : Media) (e : Nat) (found : List (Nat × Cell)) :
    (m.putAll e found).retired = m.retired ∧
      ∀ i, (∀ p ∈ found, p.1 < Config.extentSlots → i ≠ Config.extentSlots * e + p.1) → (m.putAll e found).cell i = m.cell i := by
  unfold Media.putAll
  induction found generalizing m with
  | nil => exact ⟨rfl, fun i _ => rfl⟩
  | cons p l ih =>
    rw [List.foldl_cons]
    split
    · next hp =>
      obtain ⟨hret, hcell⟩ := ih (m.put (Config.extentSlots * e + p.1) p.2)
      refine ⟨hret, fun i hi => ?_⟩
      rw [hcell i fun q hq => hi q (List.mem_cons_of_mem _ hq)]
      exact Media.cell_put_other _ _ _ _ (hi p List.mem_cons_self hp)
    · obtain ⟨hret, hcell⟩ := ih m
      exact ⟨hret, fun i hi => hcell i fun q hq => hi q (List.mem_cons_of_mem _ hq)⟩

/-- What a torn operation may have changed on its module, by the operation's kind. -/
def Media.tornFrom (was is : Media) : OpKind → Prop
  | .program _ idx _ => is.retired = was.retired ∧ ∀ i, i ≠ idx → is.cell i = was.cell i
  | .copy idx _ _ => is.retired = was.retired ∧ ∀ i, i ≠ idx → is.cell i = was.cell i
  | .voidMark idx _ _ => is.retired = was.retired ∧ (∀ i, i ≠ idx → is.cell i = was.cell i) ∧
      (is.cell idx = was.cell idx ∨ is.cell idx = { was.cell idx with voided := true })
  | .clear e => is.retired = was.retired ∧ ∀ i, i / 64 ≠ e → is.cell i = was.cell i
  | .retireMark e _ => (∀ i, is.cell i = was.cell i) ∧ ∀ f, f ≠ e → (f ∈ is.retired ↔ f ∈ was.retired)
  | .read _ _ _ => is = was

theorem Media.tornFrom_refl (m : Media) (k : OpKind) : m.tornFrom m k := by
  cases k <;> simp [Media.tornFrom]

/-- A slot's own contents written into its extent disturb no other slot. -/
theorem Media.putAll_own (m : Media) (idx : Nat) (found : List (Nat × Cell)) :
    (m.putAll (extOf idx) (found.filter fun p => decide (p.1 = idx % Config.extentSlots))).retired = m.retired ∧
      ∀ i, i ≠ idx →
        (m.putAll (extOf idx) (found.filter fun p => decide (p.1 = idx % Config.extentSlots))).cell i = m.cell i := by
  obtain ⟨hret, hcell⟩ := m.putAll_frame (extOf idx) (found.filter fun p => decide (p.1 = idx % Config.extentSlots))
  refine ⟨hret, fun i hi => hcell i fun p hp _ he => hi ?_⟩
  have hp : p.1 = idx % Config.extentSlots := by simpa using (List.mem_filter.mp hp).2
  rw [he, hp, extOf, Nat.div_add_mod]

/-- A further torn operation of the same kind stays within what the first may have changed. -/
theorem Media.tornFrom_torn {was is : Media} {o : Op} (t : Torn) (h : was.tornFrom is o.kind) : was.tornFrom (is.torn o t) o.kind := by
  unfold Media.torn
  cases hk : o.kind with
  | program post idx image | copy idx image source =>
    rw [hk] at h
    obtain ⟨hret, hcell⟩ := is.putAll_own idx t.found
    exact ⟨hret.trans h.1, fun i hi => (hcell i hi).trans (h.2 i hi)⟩
  | voidMark idx who again =>
    rw [hk] at h
    dsimp only
    split
    · obtain ⟨hret, hcell, hself⟩ := h
      refine ⟨hret, fun i hi => (Media.cell_put_other _ _ _ _ hi).trans (hcell i hi), .inr ?_⟩
      rw [Media.mark, Media.cell_put_self]
      obtain hself | hself := hself <;> rw [hself]
    · exact h
  | clear e =>
    rw [hk] at h
    obtain ⟨hret, hcell⟩ := is.putAll_frame e t.found
    refine ⟨hret.trans h.1, fun i hi => (hcell i fun p _ hp he => hi ?_).trans (h.2 i hi)⟩
    rw [Config.extentSlots] at hp he
    omega
  | retireMark e again =>
    rw [hk] at h
    dsimp only
    split
    · exact ⟨h.1, fun f hf => (Media.mem_retire hf).trans (h.2 f hf)⟩
    · exact h
  | read idx who again =>
    rw [hk] at h
    exact h

/-- A loss of power disturbs a channel's module only by its operation in progress. -/
theorem State.tear_frame (s : State) (torn : List (Fin 4 × Torn)) (mc : Fin 4) :
    ((s.works.chan mc).busy = none ∨ mc ∉ torn.map (·.1) → (s.tear torn).get mc = s.media.get mc) ∧
      ∀ o, (s.works.chan mc).busy = some o → (s.media.get mc).tornFrom ((s.tear torn).get mc) o.kind := by
  have hstep (m : Quad Media) :
      let t := torn.foldl (fun m t => match (s.works.chan t.1).busy with
        | some o => m.modify t.1 fun d => d.torn o t.2
        | none => m) m
      ((s.works.chan mc).busy = none ∨ mc ∉ torn.map (·.1) → t.get mc = m.get mc) ∧
        ∀ (was : Media) (o : Op), (s.works.chan mc).busy = some o → was.tornFrom (m.get mc) o.kind → was.tornFrom (t.get mc) o.kind := by
    induction torn generalizing m with
    | nil => exact ⟨fun _ => rfl, fun was o _ h => h⟩
    | cons t torn ih =>
      by_cases ht : mc = t.1
      · subst ht
        cases hb : (s.works.chan t.1).busy with
        | none =>
          obtain ⟨hsame, -⟩ := ih m
          simp only [List.foldl_cons, hb]
          exact ⟨fun _ => hsame (.inl hb), fun was o ho => by simp [hb] at ho⟩
        | some o =>
          obtain ⟨-, hfrom⟩ := ih (m.modify t.1 fun d => d.torn o t.2)
          simp only [List.foldl_cons, hb]
          refine ⟨fun h => absurd (h.resolve_left (by simp)) (by simp), fun was o' ho' h => hfrom was o' (hb.trans ho') ?_⟩
          cases ho'
          rw [Quad.get_modify_self]
          exact Media.tornFrom_torn _ h
      · have hget : (match (s.works.chan t.1).busy with
            | some o => m.modify t.1 fun d => d.torn o t.2
            | none => m).get mc = m.get mc := by
          split
          · rw [Quad.get_modify, if_neg ht]
          · rfl
        obtain ⟨hsame, hfrom⟩ := ih (match (s.works.chan t.1).busy with
            | some o => m.modify t.1 fun d => d.torn o t.2
            | none => m)
        rw [hget] at hsame hfrom
        simp only [List.foldl_cons]
        exact ⟨fun h => hsame (h.imp id fun h => by simpa [ht] using h), hfrom⟩
  exact ⟨(hstep s.media).1, fun o ho => (hstep s.media).2 _ o ho (Media.tornFrom_refl _ _)⟩

/-- Settles O6: the power-on values, and the frame of what was torn by the kind of the operation. -/
theorem powerOnKeepsOnlyTheMediaAndHostMemory : Obligations.PowerOnKeepsOnlyTheMediaAndHostMemory := by
  intro torn s
  refine ⟨_, rfl, rfl, fun mc => (s.tear_frame torn mc).1, fun mc o ho => ?_⟩
  have h := (s.tear_frame torn mc).2 o ho
  refine ⟨fun post idx image source hk => ?_, fun idx who again hk => ?_, fun e hk => ?_, fun e again hk => ?_,
    fun idx who again hk => ?_⟩
  · obtain hk | hk := hk
    · rw [hk] at h; exact h
    · rw [hk] at h; exact h
  · rw [hk] at h; exact h
  · rw [hk] at h; exact h
  · rw [hk] at h; exact h
  · rw [hk] at h; exact h

end Sys2Proof.Machine
end

section
/-!
SUPPORT. The lengths of reports and of the settings block (R175, R187, R189), the tests of a settings block, and the commands that write a
report, change the settings or the tables, or start the part (R143, R174, R175, R177, R178).
-/

namespace Sys2Proof.Machine

/-! ## Outcomes of an offered request -/

theorem State.offers_req {s : State} {ch : Fin 4} {o : Owner} {r : Req} (h : s.offers ch o r) :
    s.works.req r.id = some r ∧ r.discarded = false ∧ (s.works.port.out.get r.ch).length < Config.outbound := by
  obtain ⟨-, hreq, rfl, hheard, hroom⟩ := h
  exact ⟨hreq, hheard, hroom⟩

/-- A unit that begins the report of an offered request leaves no consequence to settle. -/
theorem State.settled_report {ch : Fin 4} {o : Owner} {s : State} {r : Req} (ho : s.offers ch o r) (hq : s.quiet) (bytes : Bytes)
    (res : Result) :
    s.settled (s.works.report r.id bytes res) =
      .next { s with works := { s.works with port := s.works.port.reporting r bytes res } } := by
  obtain ⟨hreq, hheard, -⟩ := s.offers_req ho
  rw [Works.report_reporting _ r bytes res hreq hheard]
  exact State.settled_quiet s _ hq

/-- A unit that refuses an offered request with results leaves no consequence to settle. -/
theorem State.settled_refuseWith {ch : Fin 4} {o : Owner} {s : State} {r : Req} (ho : s.offers ch o r) (hq : s.quiet)
    (reason : Reason) (res : Result) :
    s.settled (s.works.refuseWith r.id reason res) = .next (s.answering r .refused (some reason) res) := by
  obtain ⟨hreq, hheard, hroom⟩ := s.offers_req ho
  rw [Works.refuseWith, Works.reply_answered _ r _ _ res hreq hheard hroom]
  exact State.settled_quiet s _ hq

theorem Req.holds_iff (r : Req) (n : Nat) : r.holds n = true ↔ r.addr ≠ 0 ∧ n ≤ r.length := by
  simp [Req.holds]

theorem Req.holds_eq_false {r : Req} {n : Nat} (h : r.addr = 0 ∨ r.length < n) : r.holds n = false := by
  rw [Bool.eq_false_iff, ne_eq, Req.holds_iff]
  omega

/-! ## Lengths of layouts (R183, R186, R187, R189) -/

@[simp] theorem length_leInt (n : Nat) (v : Int) : (leInt n v).length = n := length_le_bytes _ _

@[simp] theorem length_slice (b : Bytes) (i n : Nat) : (slice b i n).length = n := by
  simp only [slice, List.length_append, List.length_replicate, List.length_take, List.length_drop]
  omega

theorem length_padTo {n : Nat} {b : Bytes} (h : b.length ≤ n) : (padTo n b).length = n := by
  simp only [padTo, List.length_append, List.length_replicate]
  omega

@[simp] theorem length_optDay (d : Option Nat) : (optDay d).length = 2 := length_le_bytes _ _
@[simp] theorem Key.length_bytes (k : Key) : k.bytes.length = 20 := by simp [Key.bytes]
@[simp] theorem Triple.length_bytes (t : Triple) : t.bytes.length = 32 := by simp [Triple.bytes]
@[simp] theorem FileTotals.length_bytes (t : FileTotals) : t.bytes.length = 32 := by simp [FileTotals.bytes]

@[simp] theorem length_countBytes (n v : Nat) : (countBytes n v).length = n := by
  unfold countBytes
  split <;> simp

@[simp] theorem length_targetBytes (t : Option Target) : (targetBytes t).length = 76 := by
  cases t <;> simp [targetBytes]

theorem length_flatMap_const {α : Type} {f : α → Bytes} {n : Nat} (h : ∀ a, (f a).length = n) (l : List α) :
    (l.flatMap f).length = n * l.length := by
  induction l with
  | nil => simp
  | cons a l ih => simp [h, ih, Nat.mul_succ, Nat.add_comm]

theorem File.length_report (f : File) : f.report.length = 248 := by
  simp only [File.report, List.length_append, length_le_bytes, FileTotals.length_bytes, Triple.length_bytes, length_targetBytes,
    length_flatMap_const fun i : Nat => length_countBytes 4 (f.counts.getD i 0), List.length_range]

@[simp] theorem MediaCfg.length_bytes (m : MediaCfg) : m.bytes.length = 16 := by simp [MediaCfg.bytes]

theorem Cfg.length_block (c : Cfg) : c.block.length = 392 := by
  simp only [Cfg.block, List.length_append, length_le_bytes, length_optDay, length_slice, length_flatMap_const MediaCfg.length_bytes,
    length_flatMap_const fun k : NoticeKind => length_le_bytes 1 (c.settings.routes.getD k.index 0).val,
    length_flatMap_const fun n : Nat => length_le_bytes 2 n, Quad.toList, NoticeKind.all, List.length_cons, List.length_nil]

theorem DayEntry.length_part (d : DayEntry) (day : Nat) (today : Option Nat) : (d.part day today).length = 248 := by
  simp [DayEntry.part]

@[simp] theorem DayEntry.length_runPlace (d : DayEntry) (c : Nat) : (d.runPlace c).length = 64 := by
  unfold DayEntry.runPlace
  split
  · exact length_padTo (by simp)
  · rw [List.length_append, length_padTo (by simp), Triple.length_bytes]

theorem DayEntry.length_report (d : DayEntry) (day : Nat) (today : Option Nat) : (d.report day today).length = 760 := by
  rw [DayEntry.report, List.length_append, DayEntry.length_part, length_flatMap_const d.length_runPlace, List.length_range]

@[simp] theorem length_statusChannel (x : Ctx) (w : Works) (ch : Fin 4) : (statusChannel x w ch).length = 16 := by
  simp [statusChannel]

@[simp] theorem length_statusMedia (x : Ctx) (w : Works) (mc : Fin 4) : (statusMedia x w mc).length = 20 := by
  simp [statusMedia]

theorem length_statusAudit (w : Works) : (statusAudit w).length = 40 := by
  unfold statusAudit
  simp only [List.length_append, length_countBytes]
  cases w.audit <;> cases w.scrub.position <;> simp

theorem length_statusReport (x : Ctx) (w : Works) : (statusReport x w).length = 1152 := by
  unfold statusReport
  simp only [List.length_append]
  repeat rw [length_padTo]
  · simp [length_statusAudit]
  · simp [Quad.toList]
  · simp [channels]
  · simp
  · simp
  · simp
  · simp [NoticeKind.all]
  · simp [channels]
  · simp [statusPart]

/-! ## The commands that write a report -/

theorem exec_status_of_offers {ch : Fin 4} {s : State} {r : Req} (ho : s.offers ch .port r) (hr : r.request = .status) :
    exec (.status ch) s = s.settled
      (if r.holds 1152 then s.works.report r.id (statusReport s.ctx s.works) .empty else s.works.refuse r.id .malformed) :=
  State.serve_some s ch .port _ r _ ho.1 (by simp only [hr])

theorem exec_dayState_of_offers {ch : Fin 4} {s : State} {r : Req} {d : Nat} (ho : s.offers ch .catalogue r)
    (hr : r.request = .dayState d) :
    exec (.dayState ch) s = s.settled
      (if !r.holds 760 then s.works.refuse r.id .malformed
        else match s.works.day d with
          | none => s.works.refuse r.id .notFound
          | some e => s.works.report r.id (e.report d s.cfg.today) .empty) :=
  State.serve_some s ch .catalogue _ r _ ho.1 (by simp only [hr] <;> rfl)

theorem exec_fileState_of_offers {ch : Fin 4} {s : State} {r : Req} {source fileId : Nat} (ho : s.offers ch .intake r)
    (hr : r.request = .fileState source fileId) :
    exec (.fileState ch) s = s.settled (s.works.fileState r source fileId) :=
  State.serve_some s ch .intake _ r _ ho.1 (by simp only [hr])

/-- Settles O17: the buffer test, the lookup, and the report begun, none with a consequence. -/
theorem reportsAreWrittenWholeOrRefused : Obligations.ReportsAreWrittenWholeOrRefused := by
  intro ch s r hq
  refine ⟨fun n ho hr hn => ⟨fun hbuf => ⟨length_statusReport _ _, ?_⟩, fun hbad => ?_⟩,
    fun d ho hr => ⟨fun haddr hlen e he => ⟨DayEntry.length_report _ _ _, ?_⟩, fun haddr hlen hnone => ?_, fun hbad => ?_⟩,
    fun source fileId ho hr => ⟨fun haddr hlen p hp => ⟨File.length_report _, ?_⟩, fun haddr hlen hnone => ?_, fun hbad => ?_⟩⟩
  · rw [exec_status_of_offers ho hr, (r.holds_iff 1152).mpr (hn ▸ hbuf), if_pos rfl]
    exact State.settled_report ho hq _ _
  · rw [exec_status_of_offers ho hr, Req.holds_eq_false (hn ▸ hbad), if_neg Bool.false_ne_true]
    exact State.settled_refuse ho hq .malformed
  · rw [exec_dayState_of_offers ho hr, (r.holds_iff 760).mpr ⟨haddr, hlen⟩, he]
    exact State.settled_report ho hq _ _
  · rw [exec_dayState_of_offers ho hr, (r.holds_iff 760).mpr ⟨haddr, hlen⟩, hnone]
    exact State.settled_refuse ho hq .notFound
  · rw [exec_dayState_of_offers ho hr, Req.holds_eq_false hbad]
    exact State.settled_refuse ho hq .malformed
  · rw [exec_fileState_of_offers ho hr, Works.fileState, (r.holds_iff 248).mpr ⟨haddr, hlen⟩, hp]
    exact State.settled_report ho hq _ _
  · rw [exec_fileState_of_offers ho hr, Works.fileState, (r.holds_iff 248).mpr ⟨haddr, hlen⟩, hnone]
    exact State.settled_refuse ho hq .notFound
  · rw [exec_fileState_of_offers ho hr, Works.fileState, Req.holds_eq_false hbad]
    exact State.settled_refuse ho hq .malformed

/-! ## TUNE (R174) -/

theorem exec_tune_of_fault {ch : Fin 4} {s : State} {r : Req} {mask row : Nat} {b : RawSettings} (ho : s.offers ch .port r)
    (hr : r.request = .tune mask b) (h : b.tuneFault mask = some row) :
    exec (.tune ch) s = s.settled (s.works.refuseWith r.id .malformed (.named row)) := by
  simp only [exec, execTune, ho.1, hr, h]

theorem exec_tune_of_valid {ch : Fin 4} {s : State} {r : Req} {mask : Nat} {b : RawSettings} (ho : s.offers ch .port r)
    (hr : r.request = .tune mask b) (h : b.tuneFault mask = none) :
    exec (.tune ch) s = (s.tuned mask b).settled
      ((s.works.tuned (s.tuned mask b).ctx s.cfg.settings mask).report r.id (s.tuned mask b).cfg.block .empty) := by
  simp only [exec, execTune, ho.1, hr, h, State.tuned_works]

theorem RawSettings.tuneFault_eq_none {b : RawSettings} {mask : Nat} (h : ∀ i < 9, tunes mask i = true → b.rowValid i = true) :
    b.tuneFault mask = none :=
  List.find?_eq_none.mpr fun i hi => by
    cases hp : tunes mask i
    · simp
    · simp [h i (List.mem_range.mp hi) hp]

/-- The first element of an initial row of numbers with a property. -/
theorem find?_range_eq_some {p : Nat → Bool} {n i : Nat} (hi : i < n) (hp : p i = true) (hfirst : ∀ j < i, p j = false) :
    (List.range n).find? p = some i := by
  refine List.find?_eq_some_iff_append.mpr ⟨hp, List.range i, (List.range (n - i - 1)).map (i + 1 + ·), ?_, fun j hj => ?_⟩
  · conv_lhs => rw [show n = i + ((n - i - 1) + 1) by omega, List.range_add, List.range_succ_eq_map]
    simp [Nat.add_assoc, Nat.add_comm 1, Function.comp_def]
  · simp [hfirst j (List.mem_range.mp hj)]

theorem routeOf_val {n : Nat} (h : n ≤ 3) : (routeOf n).val = n := Nat.mod_eq_of_lt (by omega)

/-- Routes in range name the channels given. -/
theorem RawSettings.routes_of_valid {b : RawSettings} (h : b.routesValid = true) {i n : Nat} (hn : b.routes[i]? = some n) :
    ((b.routes.map routeOf)[i]?).map (fun c : Fin 4 => c.val) = some n := by
  have hle : n ≤ 3 := by
    simp only [RawSettings.routesValid, List.all_eq_true, decide_eq_true_eq] at h
    exact h n (List.mem_of_getElem? hn)
  simp [hn, routeOf_val hle]

/-- A TUNE of the scrub interval and the watermarks alone touches the scrub timer and no other unit. -/
theorem Works.tuned_of_scrub {x : Ctx} {w : Works} {old : Settings} {mask : Nat} (honly : ∀ i < 9, tunes mask i = true → i = 4 ∨ i = 8)
    (hpref : x.set.preference = old.preference) (hroutes : x.set.routes = old.routes) :
    w.tuned x old mask = { w with
      scrub := if x.set.scrub = old.scrub then w.scrub else { w.scrub with timerFrom := x.clock } } := by
  have hoff {i : Nat} (hi : i < 9) (h4 : i ≠ 4) (h8 : i ≠ 8) : tunes mask i = false := by
    cases hp : tunes mask i
    · rfl
    · exact absurd (honly i hi hp) (by omega)
  have hmoved : movedKinds old.routes old.routes = [] := by simp [movedKinds]
  simp only [Works.tuned, hoff (i := 0) (by decide) (by decide) (by decide), hoff (i := 1) (by decide) (by decide) (by decide),
    hoff (i := 2) (by decide) (by decide) (by decide), hoff (i := 3) (by decide) (by decide) (by decide),
    hoff (i := 5) (by decide) (by decide) (by decide), hpref, hroutes, hmoved, Works.postKinds, List.foldl_nil, ne_eq,
    not_true_eq_false, if_false, Bool.false_eq_true]
  by_cases h : x.set.scrub = old.scrub
  · rw [if_neg (not_not.mpr h.symm), if_pos h]
  · rw [if_pos (Ne.symm h), if_neg h]
    rfl

/-- Settles O18: the rows present take their values, and the first row at fault is named. -/
theorem tuneChangesOnlyTheRowsPresent : Obligations.TuneChangesOnlyTheRowsPresent := by
  intro ch s r mask b ho hr hq old
  refine ⟨fun hvalid => ⟨_, exec_tune_of_valid ho hr (RawSettings.tuneFault_eq_none hvalid), ?_⟩, fun hvalid honly => ?_,
    fun i hi hp hbad hfirst => ?_⟩
  · refine ⟨rfl, rfl, rfl, rfl, rfl, rfl, fun mc => Settings.tuned_media_get _ _ _ mc, rfl, fun h7 => if_neg (by simp [h7]),
      fun h7 i n hn => ?_, rfl, rfl, rfl⟩
    have hroutes : ((s.cfg.settings.tuned mask b).routes) = b.routes.map routeOf := if_pos h7
    exact (congrArg (fun l : List (Fin 4) => (l[i]?).map fun c : Fin 4 => c.val) hroutes).trans
      (RawSettings.routes_of_valid (hvalid 7 (by decide) h7) hn)
  · have hoff {i : Nat} (hi : i < 9) (h4 : i ≠ 4) (h8 : i ≠ 8) : ¬ tunes mask i = true := fun hp => absurd (honly i hi hp) (by omega)
    refine ⟨Cfg.length_block _, ?_⟩
    have hpref : (s.tuned mask b).ctx.set.preference = s.cfg.settings.preference :=
      if_neg (hoff (i := 6) (by decide) (by decide) (by decide))
    have hroutes : (s.tuned mask b).ctx.set.routes = s.cfg.settings.routes :=
      if_neg (hoff (i := 7) (by decide) (by decide) (by decide))
    rw [exec_tune_of_valid ho hr (RawSettings.tuneFault_eq_none hvalid), Works.tuned_of_scrub honly hpref hroutes]
    obtain ⟨hreq, hheard, -⟩ := s.offers_req ho
    rw [Works.report_reporting (r := r) (hd := hheard), State.settled_quiet]
    case h => exact hq
    case hr => exact hreq
    rfl
  · have hfault : b.tuneFault mask = some i := by
      refine find?_range_eq_some hi (by simp [hp, hbad]) fun j hj => ?_
      cases hpj : tunes mask j
      · rfl
      · simp [hfirst j hj hpj]
    rw [exec_tune_of_fault ho hr hfault]
    exact State.settled_refuseWith ho hq .malformed (.named i)

/-! ## The class and policy tables (R143) -/

theorem firstIndex_append {α : Type} {p : α → Bool} {before after : List α} {a : α} (n : Nat) (hb : ∀ c ∈ before, p c = false)
    (ha : p a = true) : firstIndex p n (before ++ a :: after) = some (n + before.length) := by
  induction before generalizing n with
  | nil => simp [firstIndex, ha]
  | cons c before ih =>
    obtain ⟨hc, hb⟩ := List.forall_mem_cons.mp hb
    simp only [List.cons_append, firstIndex, hc, Bool.false_eq_true, if_false, ih (n + 1) hb, List.length_cons]
    congr 1
    omega

theorem length_pieces (k n : Nat) (b : Bytes) : (pieces k n b).length = n := by
  induction n generalizing b with
  | zero => rfl
  | succ n ih => simp [pieces, ih]

theorem RawClass.valid_iff (c : RawClass) : c.valid = true ↔ c.enabled ≤ 1 ∧ c.base ≤ 999999999999999 ∧ c.exp ≤ 12 ∧ 1 ≤ c.cls ∧
    c.cls ≤ 7 ∧ c.base % 10 ^ c.exp = 0 ∧ c.base + 10 ^ c.exp - 1 ≤ 999999999999999 := by
  simp only [RawClass.valid, Bool.and_eq_true, decide_eq_true_eq, and_assoc]
  rfl

theorem RawPolicy.valid_iff (p : RawPolicy) : p.valid = true ↔ 1 ≤ p.months ∧ p.months ≤ 120 ∧ p.grace ≤ 62 ∧ p.keep ≤ 1 := by
  simp only [RawPolicy.valid, Bool.and_eq_true, decide_eq_true_eq, and_assoc]

/-- Settles O50: no invalid entry, and the table is replaced; or the first one is named. -/
theorem tablesAreReplacedWholeOrRefused : Obligations.TablesAreReplacedWholeOrRefused := by
  refine ⟨fun b buf entries h => ?_, fun b buf policies h => ?_, fun ch s r ho hq =>
    ⟨fun entries hr => ?classes, fun policies hr => ?policies⟩⟩
  · unfold Request.ofBytes at h
    split at h <;> cases h
    simp [length_pieces]
  · unfold Request.ofBytes at h
    split at h <;> cases h
    simp [length_pieces]
  case classes =>
    refine ⟨fun hok => ?_, fun before after c he hb hc => ?_⟩
    · have hnone : firstIndex (fun e : RawClass => !e.valid) 0 entries = none :=
        (firstIndex_eq_none_iff _ _ _).mpr fun c hc => by simp [(RawClass.valid_iff c).mpr (hok c hc)]
      obtain ⟨hreq, hheard, hroom⟩ := s.offers_req ho
      simp only [exec, execSetClassTable, ho.1, hr, hnone]
      rw [Works.done, Works.reply_answered _ r _ _ _ hreq hheard hroom, State.settled_quiet]
      case h => exact hq
      rfl
    · have hsome : firstIndex (fun e : RawClass => !e.valid) 0 entries = some before.length := by
        rw [he, firstIndex_append 0 (fun a ha => by simp [(RawClass.valid_iff a).mpr (hb a ha)])
          (by simpa using mt (RawClass.valid_iff c).mp hc), Nat.zero_add]
      simp only [exec, execSetClassTable, ho.1, hr, hsome]
      exact State.settled_refuseWith ho hq .malformed _
  case policies =>
    refine ⟨fun hok => ?_, fun before after p he hb hp => ?_⟩
    · have hnone : firstIndex (fun p : RawPolicy => !p.valid) 0 policies = none :=
        (firstIndex_eq_none_iff _ _ _).mpr fun p hp => by simp [(RawPolicy.valid_iff p).mpr (hok p hp)]
      obtain ⟨hreq, hheard, hroom⟩ := s.offers_req ho
      simp only [exec, execSetPolicy, ho.1, hr, hnone]
      rw [Works.done, Works.reply_answered _ r _ _ _ hreq hheard hroom, State.settled_quiet]
      case h => exact hq
      rfl
    · have hsome : firstIndex (fun p : RawPolicy => !p.valid) 0 policies = some before.length := by
        rw [he, firstIndex_append 0 (fun a ha => by simp [(RawPolicy.valid_iff a).mpr (hb a ha)])
          (by simpa using mt (RawPolicy.valid_iff p).mp hp), Nat.zero_add]
      simp only [exec, execSetPolicy, ho.1, hr, hsome]
      exact State.settled_refuseWith ho hq .malformed _

end Sys2Proof.Machine
end

section
/-!
SUPPORT. Start-up: CONFIGURE, the scan's asks, and ARCHIVE RESET with the answers it gives (R177, R178, R182).
-/

namespace Sys2Proof.Machine

/-! ## CONFIGURE (R177) -/

theorem RawSettings.configureFault_eq_none {b : RawSettings} (h : ∀ i < 8, b.configureRow i = true) : b.configureFault = none :=
  List.find?_eq_none.mpr fun i hi => by simp [h i (List.mem_range.mp hi)]

theorem RawSettings.configureFault_ne_none {b : RawSettings} (h : ∃ i < 8, b.configureRow i = false) :
    ∃ row, b.configureFault = some row := by
  obtain ⟨i, hi, hrow⟩ := h
  cases hf : b.configureFault with
  | some row => exact ⟨row, rfl⟩
  | none => simpa [hrow] using List.find?_eq_none.mp hf i (List.mem_range.mpr hi)

theorem Works.restart_chan (x : Ctx) (w : Works) (mc : Fin 4) :
    (w.restart x).chan mc = (w.chan mc).restart (x.set.media.get mc) := by
  match mc with
  | 0 | 1 | 2 | 3 => rfl

theorem cursors_free (l : List Cursor) (n : Nat) :
    ((l.map fun c : Cursor => { Cursor.free with generation := c.generation }).getD n .free).opened = false := by
  simp only [List.getD_eq_getElem?_getD, List.getElem?_map]
  cases l[n]? <;> rfl

/-- Settles O19: by the part state and the first row at fault. -/
theorem configureStartsTheRebuild : Obligations.ConfigureStartsTheRebuild := by
  intro ch s r b ho hr hq
  obtain ⟨hreq, hheard, hroom⟩ := s.offers_req ho
  refine ⟨fun hpart => ?_, fun hpart hrow => ?_, fun hpart hrow => ?_⟩
  · simp only [exec, execConfigure, ho.1, hr]
    rw [if_pos hpart]
    exact State.settled_refuse ho hq .state
  · obtain ⟨row, hfault⟩ := RawSettings.configureFault_ne_none hrow
    refine ⟨Config.configureSettingNumber row, ?_⟩
    simp only [exec, execConfigure, ho.1, hr, hfault]
    rw [if_neg (not_not.mpr hpart)]
    exact State.settled_refuseWith ho hq .malformed _
  · let u : State := { s with cfg := b.cfg }
    have hexec : exec (.configure ch) s = .next { u with
        works := { s.works.restart u.ctx with port := s.works.port.answered r .done none .empty } } := by
      simp only [exec, execConfigure, ho.1, hr, RawSettings.configureFault_eq_none hrow]
      rw [if_neg (not_not.mpr hpart), Works.done, Works.reply_answered (r := r) (hd := hheard), State.settled_quiet]
      case h => exact hq
      case hr => exact hreq
      case hq => exact hroom
      rfl
    refine ⟨_, hexec, rfl, rfl, rfl, rfl, rfl, rfl, rfl, rfl, rfl, rfl, ?_, fun i n hn => ?_, fun mc => Quad.get_map _ _ mc, rfl, rfl,
      rfl, rfl, rfl, rfl, rfl, rfl, rfl, rfl, rfl, rfl, fun n _ => cursors_free _ n, fun mc => ?_, rfl⟩
    · exact Bool.eq_iff_iff.mpr (beq_iff_eq.trans decide_eq_true_iff.symm)
    · have h6 := hrow 6 (by decide)
      simp only [RawSettings.configureRow, Bool.and_eq_true] at h6
      exact RawSettings.routes_of_valid h6.1.2 hn
    · refine (congrArg MediaChan.online (s.works.restart_chan u.ctx mc)).trans ?_
      exact congrArg (fun m : MediaCfg => decide (0 < m.extents)) (Quad.get_map b.media RawMedia.cfg mc)

/-! ## REBUILD_SCAN (R178) -/

/-- One channel's ask of the scan. -/
def Works.scanAsk (x : Ctx) (w : Works) (mc : Fin 4) : Works :=
  let s := w.rebuild.scans.get mc
  if !s.reading && decide (s.next < scanSize (x.set.media.get mc)) && (w.chan mc).online then
    (w.mapRebuild fun r => { r with scans := r.scans.set mc { s with reading := true } }).askOp mc (.read s.next [(.rebuild, false)] false)
      true
  else w

/-- Whether a channel's next slot is asked. -/
def Works.scanAsks (x : Ctx) (w : Works) (mc : Fin 4) : Prop :=
  (w.rebuild.scans.get mc).reading = false ∧ (w.rebuild.scans.get mc).next < 64 * (x.set.media.get mc).extents ∧
    (w.chan mc).online = true

theorem Works.askOp_chan_self (w : Works) (mc : Fin 4) (kind : OpKind) (fg : Bool) :
    (w.askOp mc kind fg).chan mc = if (w.chan mc).queue.length < Config.opQueue
      then { w.chan mc with queue := (w.chan mc).queue ++ [⟨w.serial, fg, kind, false⟩] }
      else { w.chan mc with waiting := (w.chan mc).waiting ++ [⟨w.serial, fg, kind, false⟩] } := by
  exact Quad.get_modify_self _ _ _

theorem Works.askOp_chan_other (w : Works) {mc m : Fin 4} (kind : OpKind) (fg : Bool) (h : m ≠ mc) :
    (w.askOp mc kind fg).chan m = w.chan m := by
  simp [Works.askOp, Works.chan, Quad.get_modify, h]

theorem Works.scanAsk_of_asks {x : Ctx} {w : Works} {mc : Fin 4} (h : w.scanAsks x mc) :
    w.scanAsk x mc = (w.mapRebuild fun r => { r with scans := r.scans.set mc { r.scans.get mc with reading := true } }).askOp mc
      (.read (w.rebuild.scans.get mc).next [(.rebuild, false)] false) true := by
  obtain ⟨hidle, hmore, honline⟩ := h
  refine if_pos ?_
  simp only [hidle, honline, scanSize, Config.extentSlots, hmore, decide_true, Bool.not_false, Bool.and_true]

theorem Works.scanAsk_of_not_asks {x : Ctx} {w : Works} {mc : Fin 4} (h : ¬ w.scanAsks x mc) : w.scanAsk x mc = w := by
  refine if_neg fun hc => h ?_
  simp only [Bool.and_eq_true, Bool.not_eq_true', decide_eq_true_eq] at hc
  obtain ⟨⟨hidle, hmore⟩, honline⟩ := hc
  exact ⟨hidle, hmore, honline⟩

/-- A channel's ask leaves everything but its own channel and scan as it was. -/
theorem Works.scanAsk_frame (x : Ctx) (w : Works) (mc : Fin 4) :
    (w.scanAsk x mc).part = w.part ∧ (w.scanAsk x mc).days = w.days ∧ (w.scanAsk x mc).port = w.port ∧
      (w.scanAsk x mc).rebuild.cands = w.rebuild.cands ∧
      ∀ m, m ≠ mc → (w.scanAsk x mc).rebuild.scans.get m = w.rebuild.scans.get m ∧ (w.scanAsk x mc).chan m = w.chan m := by
  by_cases h : w.scanAsks x mc
  · rw [Works.scanAsk_of_asks h]
    refine ⟨rfl, rfl, rfl, rfl, fun m hm => ⟨?_, Works.askOp_chan_other _ _ _ hm⟩⟩
    exact Quad.get_set_other _ _ _ _ hm
  · rw [Works.scanAsk_of_not_asks h]
    exact ⟨rfl, rfl, rfl, rfl, fun m _ => ⟨rfl, rfl⟩⟩

/-- What an ask on channel `mc` makes of that channel and its scan, from the units `w` to the units `t`. -/
def Works.scanAsked (x : Ctx) (w t : Works) (mc : Fin 4) : Prop :=
  (w.scanAsks x mc → t.rebuild.scans.get mc = { w.rebuild.scans.get mc with reading := true } ∧
    ((w.chan mc).queue.length < 512 → ∃ n, (t.chan mc).queue =
      (w.chan mc).queue ++ [⟨n, true, .read (w.rebuild.scans.get mc).next [(.rebuild, false)] false, false⟩])) ∧
  (¬ w.scanAsks x mc → t.rebuild.scans.get mc = w.rebuild.scans.get mc ∧ t.chan mc = w.chan mc)

theorem Works.scanAsked_self (x : Ctx) (w : Works) (mc : Fin 4) : w.scanAsked x (w.scanAsk x mc) mc := by
  refine ⟨fun h => ?_, fun h => ?_⟩
  · rw [Works.scanAsk_of_asks h]
    refine ⟨Quad.get_set_self _ _ _, fun hroom => ⟨w.serial, ?_⟩⟩
    rw [Works.askOp_chan_self]
    exact (congrArg MediaChan.queue (if_pos hroom)).trans rfl
  · rw [Works.scanAsk_of_not_asks h]
    exact ⟨rfl, rfl⟩

/-- Only the channel and its scan matter. -/
theorem Works.scanAsked_congr {x : Ctx} {w w' t t' : Works} {mc : Fin 4} (h : w.scanAsked x t mc)
    (hw : w'.rebuild.scans.get mc = w.rebuild.scans.get mc ∧ w'.chan mc = w.chan mc)
    (ht : t'.rebuild.scans.get mc = t.rebuild.scans.get mc ∧ t'.chan mc = t.chan mc) : w'.scanAsked x t' mc := by
  simpa only [Works.scanAsked, Works.scanAsks, hw.1, hw.2, ht.1, ht.2] using h

/-- The asks of several channels: each is made as if it were the only one. -/
theorem Works.foldl_scanAsk (x : Ctx) (l : List (Fin 4)) (w : Works) (hl : l.Nodup) :
    let t := l.foldl (fun w mc => w.scanAsk x mc) w
    t.part = w.part ∧ t.days = w.days ∧ t.port = w.port ∧ t.rebuild.cands = w.rebuild.cands ∧
      (∀ m, m ∉ l → t.rebuild.scans.get m = w.rebuild.scans.get m ∧ t.chan m = w.chan m) ∧ ∀ m ∈ l, w.scanAsked x t m := by
  induction l generalizing w with
  | nil => simp
  | cons c l ih =>
    obtain ⟨hc, hl⟩ := List.nodup_cons.mp hl
    obtain ⟨hpart, hdays, hport, hcands, hother⟩ := w.scanAsk_frame x c
    obtain ⟨ipart, idays, iport, icands, iother, imem⟩ := ih (w.scanAsk x c) hl
    refine ⟨ipart.trans hpart, idays.trans hdays, iport.trans hport, icands.trans hcands, fun m hm => ?_, fun m hm => ?_⟩
    · have hne : m ≠ c := fun h => hm (h ▸ List.mem_cons_self)
      have hml := iother m fun h => hm (List.mem_cons_of_mem _ h)
      exact ⟨hml.1.trans (hother m hne).1, hml.2.trans (hother m hne).2⟩
    · by_cases hmc : m = c
      · subst hmc
        exact Works.scanAsked_congr (w.scanAsked_self x m) ⟨rfl, rfl⟩ (iother m hc)
      · have hrest := imem m ((List.mem_cons.mp hm).resolve_left hmc)
        exact Works.scanAsked_congr hrest ⟨(hother m hmc).1.symm, (hother m hmc).2.symm⟩ ⟨rfl, rfl⟩

/-- Settles O21: outside an unresolved rebuild nothing happens; in one, each channel's ask is made. -/
theorem rebuildScanReadsTheNextSlotOfEachChannel : Obligations.RebuildScanReadsTheNextSlotOfEachChannel := by
  intro s
  refine ⟨fun h => if_neg ?_, fun hpart hres => ⟨s.works.rebuildScan s.ctx, ?_, ?_⟩⟩
  · rintro ⟨hpart, hres⟩
    exact h.elim (fun h => h hpart) fun h => by simp [h] at hres
  · exact (if_pos ⟨hpart, by simp [hres]⟩).trans (State.settled_next _ _)
  · obtain ⟨ipart, idays, iport, icands, -, imem⟩ := Works.foldl_scanAsk s.ctx channels s.works (by decide)
    exact ⟨ipart.trans hpart, idays, iport, icands, fun mc => imem mc (by revert mc; decide)⟩

/-! ## ARCHIVE RESET (R182) -/

/-- What an offer does to the queue and the waiting responses of a channel: the response goes where there is room for it. -/
def Port.gains (p t : Port) (c : Fin 4) (owed : List (Nat × Response)) : Prop :=
  t.out.get c = p.out.get c ++ (owed.take (64 - (p.out.get c).length)).map (fun q => q.2) ∧
    t.waiting.get c = p.waiting.get c ++ owed.drop (64 - (p.out.get c).length)

/-- What is owed to a channel by the answers to a list of requests. -/
def owedBy (resp : Req → Response) (c : Fin 4) (l : List Req) : List (Nat × Response) :=
  (l.filter fun q => decide (q.ch = c) && !q.discarded).map fun q => (q.id, resp q)

theorem Port.gains_nil (p : Port) (c : Fin 4) : p.gains p c [] := by simp [Port.gains]

theorem Port.gains_append {p t u : Port} {c : Fin 4} {a b : List (Nat × Response)} (hpt : p.gains t c a) (htu : t.gains u c b) :
    p.gains u c (a ++ b) := by
  obtain ⟨hout, hwait⟩ := hpt
  obtain ⟨hout', hwait'⟩ := htu
  rw [hout] at hout' hwait'
  rw [hwait] at hwait'
  simp only [List.length_append, List.length_map, List.length_take] at hout' hwait'
  have hroom : 64 - ((p.out.get c).length + min (64 - (p.out.get c).length) a.length) = 64 - (p.out.get c).length - a.length := by omega
  rw [hroom] at hout' hwait'
  refine ⟨?_, ?_⟩
  · rw [hout', List.take_append, List.map_append, List.append_assoc]
  · rw [hwait', List.drop_append, List.append_assoc]

theorem owedBy_append (resp : Req → Response) (c : Fin 4) (a b : List Req) : owedBy resp c (a ++ b) = owedBy resp c a ++ owedBy resp c b := by
  simp only [owedBy, List.filter_append, List.map_append]

/-- An offer gives a channel the response, if it is that channel's and the request is not discarded. -/
theorem Port.offer_gains (p : Port) (r : Req) (resp : Req → Response) (c : Fin 4) (hlen : (p.out.get c).length ≤ 64) :
    p.gains (p.offer r (resp r)) c (owedBy resp c [r]) ∧ ((p.offer r (resp r)).out.get c).length ≤ 64 := by
  by_cases hd : r.discarded = true
  · rw [show owedBy resp c [r] = [] by simp [owedBy, hd], Port.offer, if_pos hd]
    exact ⟨(p.leave r.id).gains_nil c, hlen⟩
  · rw [Port.offer, if_neg hd]
    by_cases hc : r.ch = c
    · subst hc
      have howed : owedBy resp r.ch [r] = [(r.id, resp r)] := by simp [owedBy, hd]
      rw [howed]
      by_cases hroom : (p.out.get r.ch).length < Config.outbound
      · rw [if_pos hroom]
        rw [Config.outbound] at hroom
        have hpos : 64 - (p.out.get r.ch).length = (63 - (p.out.get r.ch).length) + 1 := by omega
        exact ⟨by simp [Port.gains, Port.leave, hpos], by simp [Port.leave]; omega⟩
      · rw [if_neg hroom]
        rw [Config.outbound] at hroom
        have hzero : 64 - (p.out.get r.ch).length = 0 := by omega
        exact ⟨by simp [Port.gains, hzero], hlen⟩
    · have howed : owedBy resp c [r] = [] := by simp [owedBy, hc]
      rw [howed]
      split
      · have hout : (p.out.modify r.ch (· ++ [resp r])).get c = p.out.get c := by rw [Quad.get_modify, if_neg (Ne.symm hc)]
        exact ⟨by simp [Port.gains, Port.leave, hout], by simpa [Port.leave, hout] using hlen⟩
      · have hwait : (p.waiting.modify r.ch (· ++ [(r.id, resp r)])).get c = p.waiting.get c := by
          rw [Quad.get_modify, if_neg (Ne.symm hc)]
        exact ⟨by simp [Port.gains, hwait], hlen⟩

/-- An offer leaves the reports and notices, and the requests of other numbers; the request itself has left or is ended. -/
theorem Port.offer_frame (p : Port) (r : Req) (resp : Response) :
    let t := p.offer r resp
    t.writes = p.writes ∧ t.notices = p.notices ∧ (t.reqs.map (·.id)).Sublist (p.reqs.map (·.id)) ∧
      (∀ q ∈ t.reqs, q.phase = .ended ∨ (q ∈ p.reqs ∧ q.id ≠ r.id)) ∧ ∀ q ∈ p.reqs, q.id ≠ r.id → q ∈ t.reqs := by
  have hleave : ((p.reqs.filter fun q => decide (q.id ≠ r.id)).map (·.id)).Sublist (p.reqs.map (·.id)) := List.filter_sublist.map _
  have hgone : ∀ q ∈ p.reqs.filter (fun q => decide (q.id ≠ r.id)), q.phase = .ended ∨ (q ∈ p.reqs ∧ q.id ≠ r.id) := fun q hq =>
    .inr ⟨(List.mem_filter.mp hq).1, by simpa using (List.mem_filter.mp hq).2⟩
  have hstay : ∀ q ∈ p.reqs, q.id ≠ r.id → q ∈ p.reqs.filter (fun q => decide (q.id ≠ r.id)) := fun q hq hne =>
    List.mem_filter.mpr ⟨hq, by simpa using hne⟩
  unfold Port.offer
  split
  · exact ⟨rfl, rfl, hleave, hgone, hstay⟩
  · split
    · exact ⟨rfl, rfl, hleave, hgone, hstay⟩
    · refine ⟨rfl, rfl, ?_, fun q hq => ?_, fun q hq hne => ?_⟩
      · rw [updateWhere, List.map_map, List.map_congr_left fun q _ => ?_]
        simp only [Function.comp_apply]
        split <;> rfl
      · obtain ⟨q, hq', rfl⟩ := List.mem_map.mp hq
        by_cases hid : q.id = r.id
        · simp [hid]
        · simp [hid, hq']
      · exact List.mem_map.mpr ⟨q, hq, by simp [hne]⟩

/-- The result that the answer RESET carries: the items written of a READ CURSOR in progress. -/
def Works.resetResult (w : Works) (id : Nat) : Result :=
  match (w.enquiry.cursors.filterMap (·.reading)).find? fun rd => decide (rd.req = id) with
  | some rd => .read rd.written .beforeFirst
  | none => .empty

theorem Works.refuseReset_eq (w : Works) (id : Nat) : w.refuseReset id = w.refuseWith id .reset (w.resetResult id) := by
  unfold Works.refuseReset Works.resetResult
  cases (w.enquiry.cursors.filterMap (·.reading)).find? fun rd => decide (rd.req = id) <;> rfl

/-- The answer RESET of a request. -/
def Works.resetResponse (w : Works) (q : Req) : Response :=
  ⟨q.tag, .refused, some .reset, none, false, false, w.resetResult q.id⟩

theorem Works.req_of_mem {w : Works} {q : Req} (hq : q ∈ w.port.reqs) (hids : (w.port.reqs.map (·.id)).Nodup) : w.req q.id = some q := by
  have hinj := List.inj_on_of_nodup_map hids
  cases hf : w.req q.id with
  | none => exact absurd (List.find?_eq_none.mp hf q hq) (by simp)
  | some p =>
    have hp : p.id = q.id := by simpa using List.find?_some hf
    exact congrArg some (hinj (List.mem_of_find?_eq_some hf) hq hp)

/-- An answer leaves the reports under way and the pending notices. -/
theorem Works.reply_frame (w : Works) (id : Nat) (v : Verdict) (reason : Option Reason) (res : Result) (e : Bool) :
    ∃ p : Port, w.reply id v reason res e = { w with port := p } ∧ p.writes = w.port.writes ∧ p.notices = w.port.notices := by
  cases h : w.req id with
  | none => exact ⟨w.port, by simp [Works.reply, h], rfl, rfl⟩
  | some r =>
    obtain ⟨hwrites, hnotices, -⟩ := w.port.offer_frame r (responseTo r.tag v reason res e)
    exact ⟨_, Works.reply_of_req h _ _ _ _, hwrites, hnotices⟩

/-- The answers RESET leave everything but the port, and of it the reports under way and the pending notices. -/
theorem Works.foldl_refuseReset_frame (l : List Nat) (w : Works) :
    ∃ p : Port, l.foldl (fun w id => w.refuseReset id) w = { w with port := p } ∧ p.writes = w.port.writes ∧
      p.notices = w.port.notices := by
  induction l generalizing w with
  | nil => exact ⟨w.port, rfl, rfl, rfl⟩
  | cons id l ih =>
    obtain ⟨p, heq, hwrites, hnotices⟩ := w.reply_frame id .refused (some .reset) (w.resetResult id) false
    obtain ⟨t, hrest, iwrites, inotices⟩ := ih { w with port := p }
    exact ⟨t, by rw [List.foldl_cons, Works.refuseReset_eq, Works.refuseWith, heq, hrest], iwrites.trans hwrites,
      inotices.trans hnotices⟩

/-- The answers RESET to a list of requests in progress, as one channel sees them. -/
theorem Works.foldl_refuseReset (c : Fin 4) (l : List Req) (w : Works) (hids : (w.port.reqs.map (·.id)).Nodup)
    (hl : (l.map (·.id)).Nodup) (hmem : ∀ q ∈ l, q ∈ w.port.reqs) (hlen : (w.port.out.get c).length ≤ 64) :
    ∃ t : Port, (l.map (·.id)).foldl (fun w id => w.refuseReset id) w = { w with port := t } ∧
      w.port.gains t c (owedBy w.resetResponse c l) ∧ (t.out.get c).length ≤ 64 ∧ (t.reqs.map (·.id)).Nodup ∧
      (∀ q ∈ t.reqs, q.phase = .ended ∨ (q ∈ w.port.reqs ∧ q.id ∉ l.map (·.id))) ∧
      ∀ q ∈ w.port.reqs, q.id ∉ l.map (·.id) → q ∈ t.reqs := by
  induction l generalizing w with
  | nil => exact ⟨w.port, rfl, w.port.gains_nil c, hlen, hids, fun q hq => .inr ⟨hq, by simp⟩, fun q hq _ => hq⟩
  | cons r l ih =>
    obtain ⟨hr, hl⟩ := List.nodup_cons.mp hl
    obtain ⟨hrmem, hmem⟩ := List.forall_mem_cons.mp hmem
    obtain ⟨hgain, hlen'⟩ := w.port.offer_gains r w.resetResponse c hlen
    obtain ⟨-, -, hsub, hleft, hstay⟩ := w.port.offer_frame r (w.resetResponse r)
    have hstep : w.refuseReset r.id = { w with port := w.port.offer r (w.resetResponse r) } := by
      rw [Works.refuseReset_eq]
      exact Works.reply_of_req (Works.req_of_mem hrmem hids) _ _ _ _
    obtain ⟨t, heq, igain, ilen, inodup, ileft, istay⟩ :=
      ih { w with port := w.port.offer r (w.resetResponse r) } (hsub.nodup hids) hl
        (fun q hq => hstay q (hmem q hq) fun h => hr (List.mem_map.mpr ⟨q, hq, h⟩)) hlen'
    refine ⟨t, ?_, ?_, ilen, inodup, fun q hq => ?_, fun q hq hn => ?_⟩
    · rw [List.map_cons, List.foldl_cons, hstep, heq]
    · rw [← List.singleton_append, owedBy_append]
      exact Port.gains_append hgain igain
    · obtain h | ⟨h, hnot⟩ := ileft q hq
      · exact .inl h
      · obtain h | ⟨h, hne⟩ := hleft q h
        · exact .inl h
        · exact .inr ⟨h, by simpa [hne] using hnot⟩
    · simp only [List.map_cons, List.mem_cons, not_or] at hn
      exact istay q (hstay q hq hn.1) hn.2

/-- Consequences that change nothing are carried out without effect. -/
theorem settle_of_idle (x : Ctx) (n : Nat) (w : Works) (hn : w.tasks.length ≤ n)
    (h : ∀ t ∈ w.tasks, ∀ l, ({ w with tasks := l } : Works).runTask x t = { w with tasks := l }) :
    settle x n w = { w with tasks := [] } := by
  induction n generalizing w with
  | zero =>
    have hnil : w.tasks = [] := List.eq_nil_of_length_eq_zero (Nat.le_zero.mp hn)
    show w = _
    rw [← hnil]
  | succ n ih =>
    cases ht : w.tasks with
    | nil => rw [settle_quiet _ _ _ ht, ← ht]
    | cons t l =>
      rw [ht] at h hn
      obtain ⟨hone, hrest⟩ := List.forall_mem_cons.mp h
      rw [settle_cons x n w t l ht, hone l]
      exact ih { w with tasks := l } (by simpa using hn) hrest

/-- No operation is granted from an empty queue. -/
theorem Works.grant_of_empty (x : Ctx) (w : Works) (mc : Fin 4) (h : (w.chan mc).queue = []) : w.grant x mc = w := by
  have hchoose : (w.chan mc).choose x.set.preference = none := by
    simp [MediaChan.choose, MediaChan.oldest, h]
  simp only [Works.grant, hchoose]
  split <;> rfl

/-- The units after an ARCHIVE RESET, with the port that its answers leave. -/
def Works.resetUnits (x : Ctx) (w : Works) (port : Port) : Works := { w.restart x with port := port }

/-- The grants that follow an ARCHIVE RESET find empty queues. -/
theorem settle_resetUnits (x : Ctx) (w : Works) (port : Port) (hq : w.tasks = []) :
    settle x taskBudget ((w.resetUnits x port).addTasks (channels.map Task.grant)) = w.resetUnits x port := by
  have htasks : ((w.resetUnits x port).addTasks (channels.map Task.grant)).tasks = channels.map Task.grant :=
    congrArg (· ++ channels.map Task.grant) hq
  rw [settle_of_idle]
  case hn => rw [htasks, taskBudget]; decide
  case h =>
    rw [htasks]
    intro t ht l
    obtain ⟨mc, -, rfl⟩ := List.mem_map.mp ht
    exact Works.grant_of_empty _ _ _ (congrArg MediaChan.queue (w.restart_chan x mc))
  exact congrArg (fun l => ({ w.resetUnits x port with tasks := l } : Works)) hq.symm

theorem exec_archiveReset_of_offers {ch : Fin 4} {s : State} {r : Req} (ho : s.offers ch .startUp r) (hr : r.request = .archiveReset) :
    exec (.archiveReset ch) s = s.settled (s.works.archiveReset s.ctx r) :=
  State.serve_some s ch .startUp _ r _ ho.1 (by simp only [hr])

/-- The requests that an ARCHIVE RESET refuses: those in progress, not ended, but for its own. -/
def Works.resetOthers (w : Works) (r : Req) : List Req := w.port.reqs.filter fun q => decide (q.phase ≠ .ended) && decide (q.id ≠ r.id)

/-- The port after the answers RESET, the reports under way dropped, and the request itself answered. -/
def Works.resetPort (w : Works) (r : Req) : Port :=
  ((((w.resetOthers r).map fun q => q.id).foldl (fun (w : Works) id => w.refuseReset id)
    { w with port := { w.port with writes := [] } }).done r.id .empty).port

/-- The reset of the units and the answers do not touch each other. -/
theorem Works.archiveReset_eq (x : Ctx) (w : Works) (r : Req) :
    w.archiveReset x r = (w.resetUnits x (w.resetPort r)).addTasks (channels.map Task.grant) := by
  obtain ⟨p, heq, -, -⟩ := Works.foldl_refuseReset_frame ((w.resetOthers r).map (·.id)) { w with port := { w.port with writes := [] } }
  have hport : w.resetPort r = (({ w with port := p } : Works).done r.id .empty).port := by rw [Works.resetPort, heq]
  have hreset : w.archiveReset x r =
      ((({ w with port := p } : Works).restart x).done r.id .empty).addTasks (channels.map Task.grant) :=
    congrArg (fun v : Works => ((v.restart x).done r.id .empty).addTasks (channels.map Task.grant)) heq
  rw [hreset, hport, Works.done, Works.done, Works.reply, Works.reply]
  simp only [Works.req, show (({ w with port := p } : Works).restart x).port = p from rfl]
  cases p.reqs.find? fun q => decide (q.id = r.id) <;> rfl

theorem Works.resetPort_frame (w : Works) (r : Req) : (w.resetPort r).writes = [] ∧ (w.resetPort r).notices = w.port.notices := by
  obtain ⟨p, heq, hwrites, hnotices⟩ :=
    Works.foldl_refuseReset_frame ((w.resetOthers r).map (·.id)) { w with port := { w.port with writes := [] } }
  obtain ⟨t, hdone, twrites, tnotices⟩ := ({ w with port := p } : Works).reply_frame r.id .done none .empty false
  rw [Works.resetPort, heq, Works.done, hdone]
  exact ⟨twrites.trans hwrites, tnotices.trans hnotices⟩

/-- What a channel gains by the answers of an ARCHIVE RESET, and that no request but an ended one stays in progress. -/
theorem Works.resetPort_gains {w : Works} {r : Req} (hr : r ∈ w.port.reqs) (hheard : r.discarded = false)
    (hids : w.port.reqs.Pairwise (fun a b => a.id ≠ b.id)) {c : Fin 4} (hlen : (w.port.out.get c).length ≤ 64) :
    w.port.gains (w.resetPort r) c (owedBy w.resetResponse c (w.resetOthers r) ++
        if c = r.ch then [(r.id, ⟨r.tag, .done, none, none, false, false, .empty⟩)] else []) ∧
      ∀ q ∈ (w.resetPort r).reqs, q.phase = .ended := by
  have hnodup : (w.port.reqs.map (·.id)).Nodup := List.pairwise_map.mpr hids
  have hself : r.id ∉ (w.resetOthers r).map (·.id) := by
    intro h
    obtain ⟨q, hq, hid⟩ := List.mem_map.mp h
    simpa [hid] using (List.mem_filter.mp hq).2
  obtain ⟨t, heq, hgain, htlen, htnodup, hleft, hstay⟩ := Works.foldl_refuseReset c (w.resetOthers r)
    { w with port := { w.port with writes := [] } } hnodup ((List.filter_sublist.map _).nodup hnodup)
    (fun q hq => (List.mem_filter.mp hq).1) hlen
  have hport : w.resetPort r = t.offer r ⟨r.tag, .done, none, none, false, false, .empty⟩ := by
    rw [Works.resetPort, heq, Works.done]
    exact congrArg Works.port (Works.reply_of_req (w := { w with port := t }) (Works.req_of_mem (hstay r hr hself) htnodup) _ _ _ _)
  obtain ⟨hlast, -⟩ := t.offer_gains r (fun r => ⟨r.tag, .done, none, none, false, false, .empty⟩) c htlen
  obtain ⟨-, -, -, hrest, -⟩ := t.offer_frame r ⟨r.tag, .done, none, none, false, false, .empty⟩
  rw [hport]
  refine ⟨?_, fun q hq => ?_⟩
  · have howed : owedBy (fun r => ⟨r.tag, .done, none, none, false, false, .empty⟩) c [r] =
        if c = r.ch then [(r.id, ⟨r.tag, .done, none, none, false, false, .empty⟩)] else [] := by
      by_cases hc : r.ch = c
      · simp [owedBy, hc, hheard]
      · simp [owedBy, hc, Ne.symm hc]
    exact howed ▸ Port.gains_append hgain hlast
  · obtain h | ⟨h, hne⟩ := hrest q hq
    · exact h
    · obtain h | ⟨h, hnot⟩ := hleft q h
      · exact h
      · by_contra hphase
        exact hnot (List.mem_map.mpr ⟨q, List.mem_filter.mpr ⟨h, by simp [hphase, hne]⟩, rfl⟩)

/-- Settles O20: the units start anew, the answers leave the port, and the grants find nothing to do. -/
theorem archiveResetBeginsTheRebuildAnew : Obligations.ArchiveResetBeginsTheRebuildAnew := by
  intro ch s r ho hr hq
  obtain ⟨hreq, hheard, -⟩ := s.offers_req ho
  have hch := s.offers_channel ho
  obtain ⟨hwrites, hnotices⟩ := s.works.resetPort_frame r
  refine ⟨{ s with works := s.works.resetUnits s.ctx (s.works.resetPort r) }, ?_, ?_, fun mc => s.works.restart_chan s.ctx mc, hwrites,
    hnotices, fun hids c hlen => ?_⟩
  · rw [exec_archiveReset_of_offers ho hr, Works.archiveReset_eq, State.settled_next, settle_resetUnits _ _ _ hq]
  · exact congrArg (fun l => ({ s with works := { s.works.resetUnits s.ctx (s.works.resetPort r) with tasks := l } } : State)) hq
  · obtain ⟨⟨hout, hwait⟩, hended⟩ := Works.resetPort_gains (List.mem_of_find?_eq_some hreq) hheard hids hlen
    have hothers : (s.works.resetOthers r).filter (fun q => decide (q.ch = c) && !q.discarded) = s.works.port.reqs.filter fun q =>
        decide (q.ch = c) && decide (q.id ≠ r.id) && decide (q.phase ≠ .ended) && !q.discarded := by
      rw [Works.resetOthers, List.filter_filter]
      exact List.filter_congr fun q _ => by
        cases decide (q.ch = c) <;> cases decide (q.id ≠ r.id) <;> cases decide (q.phase ≠ .ended) <;>
      cases q.discarded <;> rfl
    rw [owedBy, hothers, hch] at hout hwait
    exact ⟨hout, hwait, hended⟩

end Sys2Proof.Machine
end

section
/-!
SUPPORT. The parcels of the Intake Unit and its requests (R56 to R69): how a parcel ends and is held back, what an open, a close and an
abandonment of a file leave behind.
-/

namespace Sys2Proof.Machine

/-! ## Tables and answers -/

theorem tblGet_modify {α : Type} (k i : Nat) (f : α → α) (t : Tbl α) :
    tblGet i (tblModify k f t) = if i = k then (tblGet i t).map f else tblGet i t := by
  induction t with
  | nil => simp [tblModify, tblGet]
  | cons q t ih =>
    obtain ⟨j, b⟩ := q
    simp only [tblModify, List.map_cons] at ih ⊢
    by_cases hj : j = k <;> by_cases hi : j = i <;> simp_all [tblGet]

/-- A request found under its number, its response wanted and with a place, is answered at once. -/
theorem Works.reply_of_heard {w : Works} {id : Nat} {q : Req} (hreq : w.req id = some q) (hheard : q.discarded = false)
    (hroom : (w.port.out.get q.ch).length < Config.outbound) (v : Verdict) (reason : Option Reason) (res : Result) :
    w.reply id v reason res false = { w with port := w.port.answered q v reason res } := by
  have hid : q.id = id := by simpa using List.find?_some hreq
  subst hid
  exact Works.reply_answered w q v reason res hreq hheard hroom

/-- A discarded request leaves progress without a response (R172, R173). -/
theorem Works.reply_of_discarded {w : Works} {id : Nat} {q : Req} (hreq : w.req id = some q) (hdisc : q.discarded = true)
    (v : Verdict) (reason : Option Reason) (res : Result) :
    w.reply id v reason res false =
      { w with port := { w.port with reqs := w.port.reqs.filter fun r => decide (r.id ≠ q.id) } } := by
  rw [Works.reply_of_req hreq, Port.offer, if_pos hdisc]
  rfl

/-- A request taken after a change of the unit's own state leaves no consequence to settle. -/
theorem State.settled_take {s : State} {r : Req} {w : Works} (hport : w.port = s.works.port) (htasks : w.tasks = []) :
    s.settled (w.take r.id) = .next { s with works := { w with port := s.works.port.taken r } } := by
  rw [Works.take_taken, hport]
  exact State.settled_quiet s _ htasks

/-- The works after a change that leaves the port alone still answer an offered request. -/
theorem State.offers_reply {ch : Fin 4} {o : Owner} {s : State} {r : Req} {w : Works} (ho : s.offers ch o r)
    (hport : w.port = s.works.port) (v : Verdict) (reason : Option Reason) (res : Result) :
    w.reply r.id v reason res false = { w with port := s.works.port.answered r v reason res } := by
  obtain ⟨hreq, hheard, hroom⟩ := s.offers_req ho
  rw [← hport]
  exact Works.reply_of_heard (by rw [Works.req, hport]; exact hreq) hheard (by rw [hport]; exact hroom) v reason res

/-! ## INGEST PARCEL (R58) -/

/-- Settles O23: the tests of a parcel are taken in their order. -/
theorem parcelIsTakenOnlyInOrder : Obligations.ParcelIsTakenOnlyInOrder := by
  intro ch s r source fileId sequence start listLength records ho hr hq wellFormed
  have hexec : exec (.ingestParcel ch) s = s.settled (s.works.ingest r source fileId sequence start listLength records) :=
    State.serve_some s ch .intake _ r _ ho.1 (by simp only [hr])
  rw [hexec]
  have hrefuse : ∀ reason, s.works.ingest r source fileId sequence start listLength records = s.works.refuse r.id reason →
      s.settled (s.works.ingest r source fileId sequence start listLength records) = .next (s.refusing r reason) :=
    fun reason h => h ▸ State.settled_refuse ho hq reason
  have hform : wellFormed ↔ ¬(records.length = 0 ∨ 4096 < records.length ∨ 2 ^ 32 < start + records.length ∨
      (r.listAddr ≠ 0 ∧ listLength < 4 * records.length)) := by
    simp only [wellFormed]
    omega
  refine ⟨fun hbad => hrefuse _ (if_pos (not_not.mp (mt hform.mpr hbad))), fun hok hnone => ?_, fun slot f hok hf => ?_⟩
  · exact hrefuse _ ((if_neg (hform.mp hok)).trans (by rw [hnone]))
  · have htests : s.works.ingest r source fileId sequence start listLength records = _ :=
      (if_neg (hform.mp hok)).trans (by rw [hf])
    refine ⟨fun hst => ?_, fun hst hbusy => ?_, fun hst hnone hord => ?_, fun hst hnone hseq hstart => ?_⟩
    · exact hrefuse _ (htests.trans (if_pos hst))
    · exact hrefuse _ (htests.trans ((if_neg (not_not.mpr hst)).trans (if_pos hbusy)))
    · exact hrefuse _ (htests.trans ((if_neg (not_not.mpr hst)).trans ((if_neg (by simp [hnone])).trans (if_pos hord))))
    · have htaken := htests.trans ((if_neg (not_not.mpr hst)).trans ((if_neg (by simp [hnone])).trans
        (if_neg (by simp [hseq, hstart]))))
      rw [htaken, State.settled_take]
      case hport => rfl
      case htasks => exact hq
      rfl

/-! ## The end of a parcel (R59, R65) -/

/-- The file of a parcel that has ended (R59). -/
def File.parcelEnded (f : File) (p : Parcel) : File :=
  { f with parcel := none, nextSeq := (f.nextSeq + 1) % 2 ^ 32, resume := resumeAfter f.resume p.consumed }

theorem Works.endParcel_eq {w : Works} {slot : Nat} {f : File} {p : Parcel} (hf : w.file slot = some f) (hp : f.parcel = some p)
    (v : Verdict) (reason : Option Reason) :
    w.endParcel slot v reason =
      (w.setFile slot (f.parcelEnded p)).reply p.req v reason (.parcel p.consumed p.written f.state p.counts) false := by
  simp only [Works.endParcel, hf, hp]
  rfl

theorem resumeAfter_of_lt {a n : Nat} (h : a + n < 2 ^ 32) : resumeAfter a n = a + n := if_pos h

/-- A record of a NORMAL file's parcel that something holds back is not consumed: the parcel waits (R64, R65). -/
theorem Works.recordIntake_of_heldBack {x : Ctx} {w : Works} {slot : Nat} {f : File} {p : Parcel} {rec : Plain} {rest : List Plain}
    {c : ParcelWait} (hf : w.file slot = some f) (ht : f.target = none) (hp : f.parcel = some p) (hrest : p.rest = rec :: rest)
    (hc : w.parcelCause p = some c) :
    w.recordIntake x slot =
      (w.setFile slot { f with parcel := some { p with wait := some ((p.wait.map (·.1)).getD x.clock, c) } }, none) := by
  simp only [Works.recordIntake, hf, ht, hp, hrest, hc]

/-- Settles O29: what holds a parcel back is found before its record is looked at, and the stall limit ends it. -/
theorem parcelHeldBackWaitsFromItsFirstHindrance : Obligations.ParcelHeldBackWaitsFromItsFirstHindrance := by
  intro slot s hq
  refine ⟨fun f p rec rest c hf ht hp hrest hcause => ?_, fun hwait => ?_,
    fun f p since c q hf hp hw hreq hheard hroom hres => ?_⟩
  · have hc : s.works.parcelCause p = some c := by
      rcases hcause with ⟨rfl, hgate⟩ | ⟨rfl, hgate, e, he, hgoing⟩
      · exact if_pos hgate
      · have : s.works.going (dayOf rec.start) = true := by simp [Works.going, he, hgoing]
        rw [Works.parcelCause, hgate, if_neg Bool.false_ne_true, hrest]
        exact if_pos this
    have hexec : exec (.recordIntakeEvent slot) s = s.settledWith (s.works.recordIntake s.ctx slot) := rfl
    rw [hexec, Works.recordIntake_of_heldBack hf ht hp hrest hc]
    exact State.settled_quiet s _ hq
  · have hnone : ((s.works.file slot).bind (·.parcel)).bind (·.stallAt s.ctx) = none := by
      refine Option.bind_eq_none_iff.mpr fun p hp => ?_
      obtain ⟨f, hf, hp⟩ := Option.bind_eq_some_iff.mp hp
      simp [Parcel.stallAt, hwait f p hf hp]
    change execStallLimit slot s = _
    rw [execStallLimit, hnone]
  · have hat : ((s.works.file slot).bind (·.parcel)).bind (·.stallAt s.ctx) = some (since + 1000 * s.cfg.settings.stall) := by
      simp [Works.file, hf, hp, Parcel.stallAt, hw]
    have hexec : exec (.stallLimit slot) s = (s.clockTo (since + 1000 * s.cfg.settings.stall)).settled
        (s.works.endParcel slot .partly (some .busy)) := by
      change execStallLimit slot s = _
      rw [execStallLimit, hat]
    rw [hexec, Works.endParcel_eq hf hp, Works.reply_of_heard (w := s.works.setFile slot _) hreq hheard hroom,
      File.parcelEnded, resumeAfter_of_lt hres]
    exact State.settled_quiet _ _ hq

/-! ## A file given up (R69) -/

/-- A file whose reception has been given up (R69). -/
def File.givenUp (f : File) : File := { f.discardSet with state := .abandoned }

theorem Works.abandon_of_idle {w : Works} {slot : Nat} {f : File} (hf : w.file slot = some f) (hp : f.parcel = none) :
    w.abandon slot = w.mapFile slot File.givenUp := by
  have hfile : (w.mapFile slot File.givenUp).file slot = some f.givenUp := by
    simp only [Works.file, Works.mapFile] at hf ⊢
    simp [tblGet_modify, hf]
  have hparcel : f.givenUp.parcel = none := hp
  change (w.mapFile slot File.givenUp).endParcel slot _ _ = _
  simp only [Works.endParcel, hfile, hparcel]

theorem Works.abandon_of_parcel {w : Works} {slot : Nat} {f : File} {p : Parcel} (hf : w.file slot = some f)
    (hp : f.parcel = some p) :
    w.abandon slot = ((w.mapFile slot File.givenUp).setFile slot (f.givenUp.parcelEnded p)).reply p.req .partly (some .state)
      (.parcel p.consumed p.written .abandoned p.counts) false := by
  have hfile : (w.mapFile slot File.givenUp).file slot = some f.givenUp := by
    simp only [Works.file, Works.mapFile] at hf ⊢
    simp [tblGet_modify, hf]
  exact Works.endParcel_eq hfile hp _ _

/-- A request that is not the one answered is found as before. -/
theorem Port.find_answered {p : Port} {q : Req} {id : Nat} (hne : q.id ≠ id) (v : Verdict) (reason : Option Reason) (res : Result) :
    (p.answered q v reason res).reqs.find? (fun r => decide (r.id = id)) = p.reqs.find? fun r => decide (r.id = id) := by
  rw [Port.answered, List.find?_filter]
  refine congrArg (fun f => p.reqs.find? f) (funext fun r => ?_)
  by_cases h : r.id = id
  · simp [h, Ne.symm hne]
  · simp [h]

/-- An offered request is still answered at once after another one of its channel has been. -/
theorem State.offers_reply_after {ch : Fin 4} {o : Owner} {s : State} {r q : Req} {w : Works} {v₁ : Verdict} {reason₁ : Option Reason}
    {res₁ : Result} (ho : s.offers ch o r) (hne : q.id ≠ r.id) (hch : q.ch = ch) (hroom : (s.works.port.out.get ch).length < 63)
    (hport : w.port = s.works.port.answered q v₁ reason₁ res₁) (v : Verdict) (reason : Option Reason) (res : Result) :
    w.reply r.id v reason res false = { w with port := (s.works.port.answered q v₁ reason₁ res₁).answered r v reason res } := by
  obtain ⟨-, hreq, hrch, hheard, -⟩ := ho
  rw [← hport]
  refine Works.reply_of_heard ?_ hheard ?_ v reason res
  · rw [Works.req, hport, Port.find_answered hne]
    exact hreq
  · rw [hport, Port.answered, hch, hrch, Quad.get_set_self, List.length_append, List.length_singleton]
    exact Nat.succ_lt_succ hroom

theorem exec_abandonFile_of_offers {ch : Fin 4} {s : State} {r : Req} {source fileId : Nat} (ho : s.offers ch .intake r)
    (hr : r.request = .abandonFile source fileId) :
    exec (.abandonFile ch) s = s.settled (s.works.abandonFile r source fileId) :=
  State.serve_some s ch .intake _ r _ ho.1 (by simp only [hr])

theorem Works.abandonFile_of_receiving {w : Works} {source fileId slot : Nat} {f : File} (r : Req)
    (hf : w.intake.find source fileId = some (slot, f)) (hst : f.state = .receiving) :
    w.abandonFile r source fileId = (w.abandon slot).done r.id .empty := by
  simp only [Works.abandonFile, hf, hst]

/-- Settles O25: the three outcomes by the file's state, and the parcel's answer before the request's own. -/
theorem abandonFileEndsAReceivingFile : Obligations.AbandonFileEndsAReceivingFile := by
  intro ch s r source fileId ho hr hq
  rw [exec_abandonFile_of_offers ho hr]
  refine ⟨fun hnone => ?_, fun slot f hf => ⟨fun hst => ?_, fun hst => ?_, fun hst hslot => ⟨fun hp => ?_, fun p q hp hreq hne hch hheard hroom => ?_⟩⟩⟩
  · have h : s.works.abandonFile r source fileId = s.works.refuse r.id .notFound := by simp only [Works.abandonFile, hnone]
    rw [h, State.settled_refuse ho hq]
  · have h : s.works.abandonFile r source fileId = s.works.refuse r.id .state := by
      rcases hst with hst | hst | hst <;> simp only [Works.abandonFile, hf, hst]
    rw [h, State.settled_refuse ho hq]
  · have h : s.works.abandonFile r source fileId = s.works.done r.id .empty := by simp only [Works.abandonFile, hf, hst]
    rw [h, State.settled_done ho]
    case hport => rfl
    case htasks => exact hq
    rfl
  · refine ⟨tblModify slot File.givenUp s.works.intake.files, ?_, ?_, fun k hk => ?_⟩
    · rw [Works.abandonFile_of_receiving r hf hst, Works.abandon_of_idle hslot hp, State.settled_done ho]
      case hport => rfl
      case htasks => exact hq
      rfl
    · simp [tblGet_modify, hslot, File.givenUp, File.discardSet]
    · simp [tblGet_modify, hk]
  · let u := (s.works.mapFile slot File.givenUp).setFile slot (f.givenUp.parcelEnded p)
    let v : Works := { u with
      port := s.works.port.answered q .partly (some .state) (.parcel p.consumed p.written .abandoned p.counts) }
    have hgone : s.works.abandon slot = v := by
      rw [Works.abandon_of_parcel hslot hp]
      exact Works.reply_of_heard (w := u) hreq hheard (show (s.works.port.out.get q.ch).length < 64 by rw [hch]; omega) _ _ _
    have hboth := State.offers_reply_after (w := v) ho hne hch hroom rfl .done none .empty
    refine ⟨{ s with works := { v with port := v.port.answered r .done none .empty } }, ?_, ?_,
      ⟨f.givenUp.parcelEnded p, ?_, rfl, rfl, rfl, rfl⟩, fun k hk => ?_⟩
    · rw [Works.abandonFile_of_receiving r hf hst, hgone, Works.done, hboth]
      exact State.settled_quiet s _ hq
    · have hrch : r.ch = ch := ho.2.2.1
      simp only [v, Port.answered, hch, hrch, Quad.get_set_self, Quad.set_set, List.append_assoc, List.singleton_append]
    · exact tblGet_put_self _ _ _
    · exact (tblGet_put_other _ _ _ _ hk).trans ((tblGet_modify _ _ _ _).trans (if_neg hk))

/-! ## Notices (R170) -/

/-- The port after a notice has been raised: on its channel's queue, or in its kind's pending flag. -/
def Port.noticed (x : Ctx) (p : Port) (k : NoticeKind) (res : Result) : Port :=
  let ch := x.set.routes.getD k.index 0
  let was := (p.notices.getD k.index none).isSome
  if (x.windows.get ch).state = .active ∧ (p.out.get ch).length < 64 then
    { p with notices := p.notices.set k.index none, out := p.out.set ch (p.out.get ch ++ [⟨0, .done, none, some k, false, was, res⟩]) }
  else { p with notices := p.notices.set k.index (some ⟨res, was⟩) }

theorem Works.notice_eq (x : Ctx) (w : Works) (k : NoticeKind) (res : Result) :
    w.notice x k res = { w with port := w.port.noticed x k res } := by
  simp only [Works.notice, Port.noticed, Works.takesNotice, Bool.and_eq_true, decide_eq_true_eq]
  by_cases h : (x.windows.get (x.set.routes.getD k.index 0)).state = .active ∧ (w.port.out.get (x.set.routes.getD k.index 0)).length < 64
  · exact (if_pos h).trans (congrArg (fun p => ({ w with port := p } : Works)) (if_pos h).symm)
  · exact (if_neg h).trans (congrArg (fun p => ({ w with port := p } : Works)) (if_neg h).symm)

@[simp] theorem Port.noticed_reqs (x : Ctx) (p : Port) (k : NoticeKind) (res : Result) : (p.noticed x k res).reqs = p.reqs := by
  unfold Port.noticed
  dsimp only
  split <;> rfl

/-- A notice takes at most one place of a queue. -/
theorem Port.length_noticed_le (x : Ctx) (p : Port) (k : NoticeKind) (res : Result) (ch : Fin 4) :
    ((p.noticed x k res).out.get ch).length ≤ (p.out.get ch).length + 1 := by
  unfold Port.noticed
  dsimp only
  split
  · rw [Quad.get_set]
    split
    · next h => subst h; simp
    · exact Nat.le_succ _
  · exact Nat.le_succ _

/-! ## CLOSE FILE (R66, R72) -/

/-- A file's record at its close: the declared totals, the new state, and no restore set for a DISCREPANT RESTORE file. -/
def File.closed (f : File) (declared : FileTotals) (st : FileState) : File :=
  let g : File := { f with declared := some declared, state := st }
  if st = .discrepant ∧ f.target.isSome then g.discardSet else g

/-- The units at the close of a file, before the answer. -/
def Works.fileClosing (x : Ctx) (w : Works) (slot : Nat) (f : File) (declared : FileTotals) (st : FileState) : Works :=
  let u := w.setFile slot (f.closed declared st)
  let u := if st = .reconciled ∨ st = .discrepant then u.fileNotice x f st else u
  if st = .settling ∧ f.target.isSome then u.task (.ask (.intake slot)) else u

theorem Works.closeFile_of_receiving {x : Ctx} {w : Works} (r : Req) {source fileId slot : Nat} {f : File} {declared : FileTotals}
    {st : FileState} (hf : w.intake.find source fileId = some (slot, f)) (hst : f.state = .receiving) (hp : f.parcel = none)
    (hclose : w.closeState f declared = st) :
    w.closeFile x r source fileId declared =
      (w.fileClosing x slot f declared st).done r.id (.fileClosed slot st f.presented) := by
  subst hclose
  simp only [Works.closeFile, hf, hst, hp, ne_eq, not_true_eq_false, Option.isSome_none, Bool.false_eq_true, if_false, Works.fileClosing,
    File.closed]
  by_cases hd : w.closeState f declared = .discrepant ∧ f.target.isSome
  · simp only [if_pos hd]
    rfl
  · simp only [if_neg hd]
    rfl

theorem Works.closeState_eq {w : Works} {f : File} {declared : FileTotals} {st : FileState}
    (h : let agree := f.saturated = false ∧ f.presented = declared
      let whole (t : Target) := (∃ e, w.entryAt t.day t.cls t.first = some e ∧ e.quarantined = true) ∧ recTotals f.restoreSet = t.totals
      (st = .discrepant ∧ (¬ agree ∨ ∃ t, f.target = some t ∧ ¬ whole t)) ∨
        (st = .reconciled ∧ agree ∧ f.target = none ∧ f.outstanding = 0) ∨
        (st = .settling ∧ agree ∧ f.target = none ∧ 0 < f.outstanding) ∨
        (st = .settling ∧ agree ∧ ∃ t, f.target = some t ∧ whole t)) :
    w.closeState f declared = st := by
  have hwhole : ∀ t : Target, (w.targetEntry t.day t.cls t.first).any (·.quarantined) = true ↔
      ∃ e, w.entryAt t.day t.cls t.first = some e ∧ e.quarantined = true := fun t => Option.any_eq_true _ _
  have hagree : ¬(f.saturated = true ∨ f.presented ≠ declared) ↔ f.saturated = false ∧ f.presented = declared := by
    simp
  rcases h with ⟨rfl, h | ⟨t, ht, h⟩⟩ | ⟨rfl, ha, ht, h⟩ | ⟨rfl, ha, ht, h⟩ | ⟨rfl, ha, t, ht, h⟩
  · exact if_pos (not_not.mp (mt hagree.mp h))
  · by_cases ha : f.saturated = true ∨ f.presented ≠ declared
    · exact if_pos ha
    · rw [Works.closeState, if_neg ha, ht]
      exact if_neg (mt (And.imp_left (hwhole t).mp) h)
  · rw [Works.closeState, if_neg (hagree.mpr ha), ht]
    exact if_pos h
  · rw [Works.closeState, if_neg (hagree.mpr ha), ht]
    exact if_neg h.ne'
  · rw [Works.closeState, if_neg (hagree.mpr ha), ht]
    exact if_pos (h.imp_left (hwhole t).mpr)

/-- Settles O24: the state follows from the totals, the notice takes at most one place, and the answer the other. -/
theorem closeFileComparesTheTotals : Obligations.CloseFileComparesTheTotals := by
  intro ch s r source fileId declared ho hr hq hroom
  have hexec : exec (.closeFile ch) s = s.settled (s.works.closeFile s.ctx r source fileId declared) :=
    State.serve_some s ch .intake _ r _ ho.1 (by simp only [hr])
  rw [hexec]
  refine ⟨fun hnone => ?_, fun slot f hf => ⟨fun hst => ?_, fun hst hbusy => ?_, ?closing⟩⟩
  · have h : s.works.closeFile s.ctx r source fileId declared = s.works.refuse r.id .notFound := by simp only [Works.closeFile, hnone]
    rw [h, State.settled_refuse ho hq]
  · have h : s.works.closeFile s.ctx r source fileId declared = s.works.refuse r.id .state := by
      simp only [Works.closeFile, hf]
      exact if_pos hst
    rw [h, State.settled_refuse ho hq]
  · have h : s.works.closeFile s.ctx r source fileId declared = s.works.refuse r.id .busy := by
      simp only [Works.closeFile, hf, hst]
      exact if_pos hbusy
    rw [h, State.settled_refuse ho hq]
  · intro st hst hp agree whole hclose notes merged noted f' w
    obtain ⟨hreq, hheard, -⟩ := s.offers_req ho
    have hrch : r.ch = ch := ho.2.2.1
    have hclosed : f.closed declared st = f' := by
      simp only [File.closed, f']
      split <;> rfl
    have hnoted : noted.reqs = s.works.port.reqs ∧ (noted.out.get r.ch).length < 64 := by
      have hlen := s.works.port.length_noticed_le s.ctx .fileSettled (.file f.source f.fileId st) r.ch
      by_cases h : st = .settling
      · rw [show noted = s.works.port from if_pos h, hrch]
        exact ⟨rfl, by omega⟩
      · rw [show noted = s.works.port.noticed s.ctx .fileSettled (.file f.source f.fileId st) from if_neg h]
        rw [hrch] at hlen ⊢
        exact ⟨Port.noticed_reqs _ _ _ _, by omega⟩
    have hnotice : (if st = .reconciled ∨ st = .discrepant then (s.works.setFile slot f').fileNotice s.ctx f st
        else s.works.setFile slot f') = { s.works.setFile slot f' with port := noted } := by
      by_cases h : st = .settling
      · rw [if_neg (by simp [h]), show noted = s.works.port from if_pos h]
        rfl
      · have hst : st = .reconciled ∨ st = .discrepant := by
          rcases hclose with ⟨h, -⟩ | ⟨h, -⟩ | ⟨h', -⟩ | ⟨h', -⟩
          · exact .inr h
          · exact .inl h
          · exact absurd h' h
          · exact absurd h' h
        rw [if_pos hst, Works.fileNotice, Works.notice_eq,
          show noted = s.works.port.noticed s.ctx .fileSettled (.file f.source f.fileId st) from if_neg h]
        rfl
    have hanswer : ∀ u : Works, u.port = noted → u.done r.id (.fileClosed slot st f.presented) =
        { u with port := noted.answered r .done none (.fileClosed slot st f.presented) } := fun u hport => by
      rw [← hport]
      exact Works.reply_answered u r _ _ _ (by rw [Works.req, hport, hnoted.1]; exact hreq) hheard (by rw [hport]; exact hnoted.2)
    rw [Works.closeFile_of_receiving r hf hst hp (Works.closeState_eq hclose), Works.fileClosing, hclosed, hnotice]
    refine ⟨fun h => ?_, fun h => ?_⟩
    · have htask : ({ s.works.setFile slot f' with port := noted } : Works).task (.ask (.intake slot)) =
          { s.works.setFile slot f' with port := noted, tasks := [.ask (.intake slot)] } :=
        congrArg (fun l => ({ s.works.setFile slot f' with port := noted, tasks := l ++ [.ask (.intake slot)] } : Works)) hq
      rw [if_pos h, htask, hanswer _ rfl]
      rfl
    · rw [if_neg h, hanswer _ rfl]
      exact State.settled_quiet s _ hq

end Sys2Proof.Machine
end

section
/-!
SUPPORT. OPEN FILE (R56, R57): the rival of a source, the target of a RESTORE open, and the one slot an open changes.
-/

namespace Sys2Proof.Machine

/-! ## The rival of a source -/

theorem mem_of_tblGet {α : Type} {k : Nat} {a : α} {t : Tbl α} (h : tblGet k t = some a) : (k, a) ∈ t := by
  induction t with
  | nil => simp [tblGet] at h
  | cons q t ih =>
    obtain ⟨j, b⟩ := q
    rw [tblGet] at h
    split at h
    · next hj =>
      subst hj
      cases h
      exact List.mem_cons_self
    · exact List.mem_cons_of_mem _ (ih h)

/-- An entry of a table that stands under another key than the one written stood there before. -/
theorem mem_tblPut_other {α : Type} {k : Nat} {a : α} {t : Tbl α} {p : Nat × α} (h : p ∈ tblPut k a t) (hne : p.1 ≠ k) : p ∈ t :=
  (mem_tblPut k a t p h).resolve_left fun he => hne (he ▸ rfl)

theorem Works.abandonRival_of_none {w : Works} {slot source : Nat} {f : File}
    (h : ∀ p ∈ w.intake.files, p.1 ≠ slot → p.2.source = source → p.2.state ≠ .receiving) :
    (w.setFile slot f).abandonRival slot source = w.setFile slot f := by
  have hnone : (w.setFile slot f).intake.files.find?
      (fun p => decide (p.1 ≠ slot) && decide (p.2.source = source) && decide (p.2.state = .receiving)) = none :=
    List.find?_eq_none.mpr fun p hp hrival => by
      simp only [Bool.and_eq_true, decide_eq_true_eq] at hrival
      obtain ⟨⟨hslot, hsource⟩, hst⟩ := hrival
      exact h p (mem_tblPut_other hp hslot) hslot hsource hst
  rw [Works.abandonRival, hnone]

theorem Works.abandonRival_of_one {w : Works} {slot source k : Nat} {f g : File} (hg : tblGet k w.intake.files = some g)
    (hk : k ≠ slot) (hsource : g.source = source) (hst : g.state = .receiving)
    (hone : ∀ p ∈ w.intake.files, p.1 ≠ slot → p.2.source = source → p.2.state = .receiving → p.1 = k) :
    (w.setFile slot f).abandonRival slot source = (w.setFile slot f).abandon k := by
  have hfind : ∃ p, (w.setFile slot f).intake.files.find?
      (fun p => decide (p.1 ≠ slot) && decide (p.2.source = source) && decide (p.2.state = .receiving)) = some p ∧ p.1 = k := by
    cases hp : (w.setFile slot f).intake.files.find?
      (fun p => decide (p.1 ≠ slot) && decide (p.2.source = source) && decide (p.2.state = .receiving)) with
    | none =>
      have hmem : (k, g) ∈ (w.setFile slot f).intake.files := mem_tblPut_of_ne (mem_of_tblGet hg) hk
      exact absurd (List.find?_eq_none.mp hp _ hmem) (by simp [hk, hsource, hst])
    | some p =>
      have hrival := List.find?_some hp
      simp only [Bool.and_eq_true, decide_eq_true_eq] at hrival
      obtain ⟨⟨hslot, hpsource⟩, hpst⟩ := hrival
      exact ⟨p, rfl, hone p (mem_tblPut_other (List.mem_of_find?_eq_some hp) hslot) hslot hpsource hpst⟩
  obtain ⟨p, hp, rfl⟩ := hfind
  rw [Works.abandonRival, hp]

/-! ## A successful open -/

theorem State.settled_opened_alone {ch : Fin 4} {s : State} {r : Req} {slot source : Nat} {f : File} (ho : s.offers ch .intake r)
    (hq : s.quiet) (hsource : f.source = source)
    (h : ∀ p ∈ s.works.intake.files, p.1 ≠ slot → p.2.source = source → p.2.state ≠ .receiving) :
    s.settled (s.works.opened r slot f) = .next
      { s with
        works := { s.works with
          intake := { s.works.intake with files := tblPut slot f s.works.intake.files }
          port := s.works.port.answered r .done none (.fileSlot slot f.state) } } := by
  rw [Works.opened, hsource, Works.abandonRival_of_none h, State.settled_done ho]
  case hport => rfl
  case htasks => exact hq
  rfl

section
variable {ch : Fin 4} {s : State} {r : Req} {slot source k : Nat} {f g : File} (ho : s.offers ch .intake r) (hq : s.quiet)
  (hsource : f.source = source) (hg : tblGet k s.works.intake.files = some g) (hk : k ≠ slot) (hgsource : g.source = source)
  (hgst : g.state = .receiving)
  (hone : ∀ p ∈ s.works.intake.files, p.1 ≠ slot → p.2.source = source → p.2.state = .receiving → p.1 = k)
include ho hq hsource hg hk hgsource hgst hone

theorem State.settled_opened_idleRival (hp : g.parcel = none) :
    ∃ files, s.settled (s.works.opened r slot f) = .next
      { s with
        works := { s.works with
          intake := { s.works.intake with files := files }
          port := s.works.port.answered r .done none (.fileSlot slot f.state) } } ∧
      tblGet slot files = some f ∧ tblGet k files = some g.givenUp ∧
      ∀ j, j ≠ slot → j ≠ k → tblGet j files = tblGet j s.works.intake.files := by
  have hfile : (s.works.setFile slot f).file k = some g := (tblGet_put_other _ _ _ _ hk).trans hg
  refine ⟨tblModify k File.givenUp (tblPut slot f s.works.intake.files), ?_, ?_, ?_, fun j hj hjk => ?_⟩
  · rw [Works.opened, hsource, Works.abandonRival_of_one hg hk hgsource hgst hone, Works.abandon_of_idle hfile hp,
      State.settled_done ho]
    case hport => rfl
    case htasks => exact hq
    rfl
  · rw [tblGet_modify, if_neg hk.symm, tblGet_put_self]
  · rw [tblGet_modify, if_pos rfl, tblGet_put_other _ _ _ _ hk, hg]
    rfl
  · rw [tblGet_modify, if_neg hjk, tblGet_put_other _ _ _ _ hj]

theorem State.settled_opened_busyRival {p : Parcel} {q : Req} (hp : g.parcel = some p) (hreq : s.works.req p.req = some q)
    (hne : q.id ≠ r.id) (hch : q.ch = ch) (hheard : q.discarded = false) (hroom : (s.works.port.out.get ch).length < 63) :
    ∃ files, s.settled (s.works.opened r slot f) = .next
      { s with
        works := { s.works with
          intake := { s.works.intake with files := files }
          port := (s.works.port.answered q .partly (some .state) (.parcel p.consumed p.written .abandoned p.counts)).answered r
            .done none (.fileSlot slot f.state) } } ∧
      tblGet slot files = some f ∧ (∀ j, j ≠ slot → j ≠ k → tblGet j files = tblGet j s.works.intake.files) ∧
      tblGet k files = some (g.givenUp.parcelEnded p) := by
  have hfile : (s.works.setFile slot f).file k = some g := (tblGet_put_other _ _ _ _ hk).trans hg
  let files := tblPut k (g.givenUp.parcelEnded p) (tblModify k File.givenUp (tblPut slot f s.works.intake.files))
  let u : Works := { s.works with intake := { s.works.intake with files := files } }
  let v : Works := { u with
    port := s.works.port.answered q .partly (some .state) (.parcel p.consumed p.written .abandoned p.counts) }
  have hrival : (s.works.setFile slot f).abandon k = v := by
    rw [Works.abandon_of_parcel hfile hp]
    exact Works.reply_of_heard (w := u) hreq hheard (show (s.works.port.out.get q.ch).length < 64 by rw [hch]; omega) _ _ _
  refine ⟨files, ?_, ?_, fun j hj hjk => ?_, tblGet_put_self _ _ _⟩
  · rw [Works.opened, hsource, Works.abandonRival_of_one hg hk hgsource hgst hone, hrival, Works.done,
      State.offers_reply_after (w := v) ho hne hch hroom rfl]
    exact State.settled_quiet s _ hq
  · rw [tblGet_put_other _ _ _ _ hk.symm, tblGet_modify, if_neg hk.symm, tblGet_put_self]
  · rw [tblGet_put_other _ _ _ _ hjk, tblGet_modify, if_neg hjk, tblGet_put_other _ _ _ _ hj]

end

/-! ## The target of an open (R57) -/

theorem Intake.targeted_iff (i : Intake) (slot : Option Nat) (day cls : Nat) (first : Key) :
    i.targeted slot day cls first = true ↔ ∃ p ∈ i.files, some p.1 ≠ slot ∧ (p.2.state = .receiving ∨ p.2.state = .settling) ∧
      ∃ t, p.2.target = some t ∧ t.day = day ∧ t.cls = cls ∧ t.first = first := by
  simp [Intake.targeted, Option.any_eq_true, and_assoc]

theorem File.sameKind_iff (f : File) {kind : Nat} (cls day : Nat) (first : Key) :
    f.sameKind kind cls day first = true ↔ (kind = 0 ∧ f.target = none) ∨
      (kind = 1 ∧ ∃ t, f.target = some t ∧ t.day = day ∧ t.cls = cls ∧ t.first = first) := by
  unfold File.sameKind
  cases f.target with
  | none => simp
  | some t => simp [and_assoc, and_left_comm]

theorem Works.kindTarget_error {w : Works} {here : Option Nat} {kind cls day : Nat} {first : Key} {why : Reason} (hkind : kind = 1)
    (h : (w.entryAt day cls first = none ∧ why = .notFound) ∨ ∃ e, w.entryAt day cls first = some e ∧
      ((e.quarantined = false ∧ why = .state) ∨ (e.quarantined = true ∧ w.intake.targeted here day cls first = true ∧ why = .busy))) :
    w.kindTarget here kind cls day first = .error why := by
  have hopen : w.openTarget here day cls first = .error why := by
    rcases h with ⟨he, rfl⟩ | ⟨e, he, ⟨hlive, rfl⟩ | ⟨hquar, hrival, rfl⟩⟩
    · simp only [Works.openTarget, Works.targetEntry, he]
    · simp only [Works.openTarget, Works.targetEntry, he, hlive, Bool.not_false, if_true]
    · simp only [Works.openTarget, Works.targetEntry, he, hquar, hrival, Bool.not_true, Bool.false_eq_true, if_false, if_true]
  rw [Works.kindTarget, if_neg (by omega), hopen]
  rfl

theorem Works.kindTarget_ok {w : Works} {here : Option Nat} {kind cls day : Nat} {first : Key} {t : Option Target}
    (h : (kind = 0 ∧ t = none) ∨ (kind = 1 ∧ ∃ e, w.entryAt day cls first = some e ∧ e.quarantined = true ∧
      ¬ w.intake.targeted here day cls first = true ∧ t = some ⟨day, cls, first, e.last, e.totals⟩)) :
    w.kindTarget here kind cls day first = .ok t := by
  rcases h with ⟨rfl, rfl⟩ | ⟨rfl, e, he, hquar, hfree, rfl⟩
  · rfl
  · have hopen : w.openTarget here day cls first = .ok ⟨day, cls, first, e.last, e.totals⟩ := by
      simp only [Works.openTarget, Works.targetEntry, he, hquar, hfree, Bool.not_true, Bool.false_eq_true, if_false]
    rw [Works.kindTarget, if_neg Nat.one_ne_zero, hopen]
    rfl

/-! ## The command -/

theorem exec_openFile_of_offers {ch : Fin 4} {s : State} {r : Req} {source fileId kind cls day : Nat} {first : Key}
    (ho : s.offers ch .intake r) (hr : r.request = .openFile source fileId kind cls day first) :
    exec (.openFile ch) s = s.settled (s.works.openFile r source fileId kind cls day first) :=
  State.serve_some s ch .intake _ r _ ho.1 (by simp only [hr])

theorem Intake.find_key {i : Intake} {source fileId slot : Nat} {f : File} (h : i.find source fileId = some (slot, f)) :
    f.source = source ∧ f.fileId = fileId := by
  simpa using List.find?_some h

/-- A file restarted is the new record of its key but for what it keeps outstanding. -/
theorem File.restart_eq (f : File) (t : Option Target) (hp : f.parcel = none) :
    f.restart t = ⟨f.source, f.fileId, .receiving, t, 0, 0, none, none, ⟨0, 0, 0⟩, false, List.replicate 11 0,
      f.outstanding - f.restoreSet.length, []⟩ := by
  simp only [File.restart, File.discardSet, hp, noCounts]

theorem File.reopen_tests {f : File} {kind : Nat} (hkind : 0 < f.outstanding → (kind = 0 ↔ f.target = none)) :
    ¬(0 < f.outstanding ∧ decide (kind = 0) ≠ f.target.isNone) := by
  rintro ⟨hout, hne⟩
  have := hkind hout
  cases htarget : f.target <;> simp_all

section
variable {w : Works} {source fileId kind cls day : Nat} {first : Key} (hform : ¬(1 < kind ∨ 4095 < source)) (r : Req)
include hform

theorem Works.openFile_absent_error {why : Reason} (hnone : w.intake.find source fileId = none)
    (h : w.kindTarget none kind cls day first = .error why) :
    w.openFile r source fileId kind cls day first = w.refuse r.id why := by
  simp only [Works.openFile, if_neg hform, hnone, h]

theorem Works.openFile_absent_full {t : Option Target} (hnone : w.intake.find source fileId = none)
    (h : w.kindTarget none kind cls day first = .ok t) (hfull : w.intake.freeSlot = none) :
    w.openFile r source fileId kind cls day first = w.refuse r.id .tableFull := by
  simp only [Works.openFile, if_neg hform, hnone, h, hfull]

theorem Works.openFile_absent_free {t : Option Target} {slot : Nat} (hnone : w.intake.find source fileId = none)
    (h : w.kindTarget none kind cls day first = .ok t) (hfree : w.intake.freeSlot = some slot) :
    w.openFile r source fileId kind cls day first = w.opened r slot (.new source fileId t) := by
  simp only [Works.openFile, if_neg hform, hnone, h, hfree]

variable {slot : Nat} {f : File} (hf : w.intake.find source fileId = some (slot, f))
include hf

theorem Works.openFile_busy (hp : f.parcel.isSome) : w.openFile r source fileId kind cls day first = w.refuse r.id .busy := by
  simp only [Works.openFile, if_neg hform, hf, if_pos hp]

variable (hp : f.parcel = none)
include hp

theorem Works.openFile_duplicate (hst : f.state = .settling ∨ f.state = .reconciled ∨ f.state = .discrepant) :
    w.openFile r source fileId kind cls day first = w.refuse r.id .duplicateFile := by
  simp only [Works.openFile, if_neg hform, hf, hp, Option.isSome_none, Bool.false_eq_true, if_false, if_pos hst]

theorem Works.openFile_otherKind (hst : f.state = .receiving) (hkind : ¬ f.sameKind kind cls day first = true) :
    w.openFile r source fileId kind cls day first = w.refuse r.id .state := by
  simp [Works.openFile, hform, hf, hp, hst, hkind]

theorem Works.openFile_restart (hst : f.state = .receiving) (hkind : f.sameKind kind cls day first = true) :
    w.openFile r source fileId kind cls day first = w.opened r slot (f.restart f.target) := by
  simp [Works.openFile, hform, hf, hp, hst, hkind]

theorem Works.openFile_outstanding (hst : f.state = .abandoned) (hout : 0 < f.outstanding)
    (hkind : kind = 0 ↔ f.target ≠ none) :
    w.openFile r source fileId kind cls day first = w.refuse r.id .state := by
  have hne : decide (kind = 0) ≠ f.target.isNone := by
    cases htarget : f.target <;> simp_all
  simp [Works.openFile, hform, hf, hp, hst, hout, hne]

variable (hst : f.state = .abandoned) (hkind : 0 < f.outstanding → (kind = 0 ↔ f.target = none))
include hst hkind

theorem Works.openFile_reopen_error {why : Reason} (h : w.kindTarget (some slot) kind cls day first = .error why) :
    w.openFile r source fileId kind cls day first = w.refuse r.id why := by
  have htests := File.reopen_tests hkind
  simp only [Works.openFile, if_neg hform, hf, hp, hst, if_neg htests, h, Option.isSome_none, Bool.false_eq_true, if_false, reduceCtorEq,
    or_self]

theorem Works.openFile_reopen {t : Option Target} (h : w.kindTarget (some slot) kind cls day first = .ok t) :
    w.openFile r source fileId kind cls day first = w.opened r slot (f.restart t) := by
  have htests := File.reopen_tests hkind
  simp only [Works.openFile, if_neg hform, hf, hp, hst, if_neg htests, h, Option.isSome_none, Bool.false_eq_true, if_false, reduceCtorEq,
    or_self]

end

/-- Settles O22: the tests of an open in their order; each success puts one record in its slot and gives up the one rival. -/
theorem newFileOpensInTheLowestFreeSlot : Obligations.NewFileOpensInTheLowestFreeSlot := by
  intro ch s r source fileId kind cls day first ho hr hq
  intro i refused named elsewhere barred aims alike anew opens
  have hexec := exec_openFile_of_offers ho hr
  have hrefused : ∀ why, s.works.openFile r source fileId kind cls day first = s.works.refuse r.id why → refused why :=
    fun why h => (hexec.trans (congrArg s.settled h)).trans (State.settled_refuse ho hq why)
  have hopens : ∀ slot f, f.source = source → f.state = .receiving →
      s.works.openFile r source fileId kind cls day first = s.works.opened r slot f → opens slot f := by
    intro slot f hsource hst h
    have hopened := hexec.trans (congrArg s.settled h)
    refine ⟨fun halone => ?_, fun k g hg hk hgsource hgst hone => ⟨fun hp => ?_, fun p q hp hreq hne hch hheard hroom => ?_⟩⟩
    · have hend := State.settled_opened_alone ho hq hsource halone
      rw [hst] at hend
      exact hopened.trans hend
    · have hend := State.settled_opened_idleRival ho hq hsource hg hk hgsource hgst hone hp
      rw [hst, ← hopened] at hend
      exact hend
    · obtain ⟨files, hend, hslot, hother, hrival⟩ :=
        State.settled_opened_busyRival ho hq hsource hg hk hgsource hgst hone hp hreq hne hch hheard hroom
      rw [hst, ← hopened] at hend
      exact ⟨files, hend, hslot, hother, _, hrival, fun hres => resumeAfter_of_lt hres⟩
  have helse : ∀ here, i.targeted here day cls first = true ↔ elsewhere here := fun here => i.targeted_iff here day cls first
  have hbarred : ∀ here why, barred here why → s.works.kindTarget here kind cls day first = .error why := by
    rintro here why ⟨hkind, h⟩
    simp only [← helse] at h
    exact Works.kindTarget_error hkind h
  have haims : ∀ here t, aims here t → s.works.kindTarget here kind cls day first = .ok t := by
    intro here t h
    simp only [aims, ← helse] at h
    exact Works.kindTarget_ok h
  have halike : ∀ f : File, f.sameKind kind cls day first = true ↔ alike f := fun f => f.sameKind_iff cls day first
  refine ⟨fun hbad => hrefused _ (if_pos hbad), fun hkind hsource => ?_⟩
  have hform : ¬(1 < kind ∨ 4095 < source) := by omega
  refine ⟨fun hnone => ⟨fun why h => ?_, fun t ht => ⟨fun hfull => ?_, fun slot hlt hfree hlow => ?_⟩⟩, fun slot f hf => ?found⟩
  · exact hrefused _ (Works.openFile_absent_error hform r hnone (hbarred _ _ h))
  · exact hrefused _ (Works.openFile_absent_full hform r hnone (haims _ _ ht) (List.find?_eq_none.mpr fun k hk => by
      simpa using Option.ne_none_iff_isSome.mpr (hfull k (List.mem_range.mp hk))))
  · exact hopens _ _ rfl rfl (Works.openFile_absent_free hform r hnone (haims _ _ ht)
      (find?_range_eq_some hlt (by simpa using hfree) fun k hk => by simpa using hlow k hk))
  case found =>
    obtain ⟨hkey, hid⟩ := Intake.find_key hf
    refine ⟨fun hp => hrefused _ (Works.openFile_busy hform r hf hp), fun hp => ⟨fun hst => ?_, fun hst hkind => ?_, fun hst hkind => ?_,
      fun hst hout hkind => ?_, fun hst hkind => ⟨fun why h => ?_, fun t ht => ?_⟩⟩⟩
    · exact hrefused _ (Works.openFile_duplicate hform r hf hp hst)
    · exact hrefused _ (Works.openFile_otherKind hform r hf hp hst (mt (halike f).mp hkind))
    · refine hopens _ _ rfl rfl ((Works.openFile_restart hform r hf hp hst ((halike f).mpr hkind)).trans ?_)
      rw [File.restart_eq f _ hp, hkey, hid]
    · exact hrefused _ (Works.openFile_outstanding hform r hf hp hst hout hkind)
    · exact hrefused _ (Works.openFile_reopen_error hform r hf hp hst hkind (hbarred _ _ h))
    · refine hopens _ _ rfl rfl ((Works.openFile_reopen hform r hf hp hst hkind (haims _ _ ht)).trans ?_)
      rw [File.restart_eq f _ hp, hkey, hid]

end Sys2Proof.Machine
end

section
/-!
SUPPORT. The record intake events (R60 to R65, R71): the outcome a record's tests give, the one file it is counted in, and the end of its
parcel.
-/

namespace Sys2Proof.Machine

/-! ## The port's part of an answer -/

/-- The port after the request of a number has been answered. -/
def Port.replied (p : Port) (id : Nat) (v : Verdict) (reason : Option Reason) (res : Result) : Port :=
  ((p.reqs.find? fun r => decide (r.id = id)).map fun r => p.offer r (responseTo r.tag v reason res false)).getD p

theorem Works.reply_eq (w : Works) (id : Nat) (v : Verdict) (reason : Option Reason) (res : Result) :
    w.reply id v reason res false = { w with port := w.port.replied id v reason res } := by
  have hreq : w.req id = w.port.reqs.find? fun r => decide (r.id = id) := rfl
  cases h : w.req id with
  | none => simp only [Works.reply, Port.replied, h, ← hreq, Option.map_none, Option.getD_none]
  | some r => simp only [Works.reply, Port.replied, h, ← hreq, Option.map_some, Option.getD_some]

theorem Works.replied_of_heard {w : Works} {id : Nat} {q : Req} (hreq : w.req id = some q) (hheard : q.discarded = false)
    (hroom : (w.port.out.get q.ch).length < 64) (v : Verdict) (reason : Option Reason) (res : Result) :
    w.port.replied id v reason res = w.port.answered q v reason res :=
  congrArg Works.port ((w.reply_eq id v reason res).symm.trans (Works.reply_of_heard hreq hheard hroom v reason res))

theorem Works.replied_of_discarded {w : Works} {id : Nat} {q : Req} (hreq : w.req id = some q) (hdisc : q.discarded = true)
    (v : Verdict) (reason : Option Reason) (res : Result) :
    w.port.replied id v reason res = { w.port with reqs := w.port.reqs.filter fun r => decide (r.id ≠ q.id) } :=
  congrArg Works.port ((w.reply_eq id v reason res).symm.trans (Works.reply_of_discarded hreq hdisc v reason res))

/-! ## A record consumed (R59) -/

/-- A file after a record of its parcel has been consumed with an outcome: the parcel goes on, or has ended with its last record. -/
def File.consumed (g : File) (p : Parcel) (fate : Fate) (written : Bool) : File :=
  if p.rest.tail = [] then (g.advance fate written).parcelEnded (p.advance fate written) else g.advance fate written

/-- The port after a record has been consumed: it changes with the last record of a parcel alone. -/
def Port.consumed (port : Port) (p : Parcel) (st : FileState) (fate : Fate) (written : Bool) : Port :=
  if p.rest.tail = [] then
    port.replied p.req .done none (.parcel (p.consumed + 1) (if written then p.written + 1 else p.written) st (addFate fate p.counts))
  else port

theorem Works.finishParcel_of_advanced {v : Works} {slot : Nat} {g : File} {p : Parcel} {fate : Fate} {written : Bool}
    (hg : v.file slot = some (g.advance fate written)) (hp : g.parcel = some p) :
    v.finishParcel slot = { v with
      intake := { v.intake with
        files := if p.rest.tail = [] then tblPut slot (g.consumed p fate written) v.intake.files else v.intake.files }
      port := v.port.consumed p g.state fate written } := by
  have hparcel : (g.advance fate written).parcel = some (p.advance fate written) := by simp [File.advance, hp]
  have hrest : (p.advance fate written).rest = p.rest.tail := rfl
  by_cases hend : p.rest.tail = []
  · have hany : (((v.file slot).bind (·.parcel)).any fun p => decide (p.rest = [])) = true := by simp [hg, hparcel, hrest, hend]
    simp only [Works.finishParcel, hany, if_true, Port.consumed, File.consumed, hend, Works.endParcel_eq hg hparcel, Works.reply_eq]
    rfl
  · have hany : (((v.file slot).bind (·.parcel)).any fun p => decide (p.rest = [])) = false := by simp [hg, hparcel, hrest, hend]
    simp only [Works.finishParcel, hany, Bool.false_eq_true, if_false, Port.consumed, hend]

section
variable {g : File} {p : Parcel} {fate : Fate} {written : Bool}

theorem File.consumed_fixed : (g.consumed p fate written).counts = addFate fate g.counts ∧
    (g.consumed p fate written).presented = g.presented ∧ (g.consumed p fate written).outstanding = g.outstanding ∧
    (g.consumed p fate written).state = g.state ∧ (g.consumed p fate written).target = g.target ∧
    (g.consumed p fate written).restoreSet = g.restoreSet := by
  unfold File.consumed
  split <;> exact ⟨rfl, rfl, rfl, rfl, rfl, rfl⟩

theorem File.consumed_more (hp : g.parcel = some p) (h : p.rest.tail ≠ []) :
    (g.consumed p fate written).nextSeq = g.nextSeq ∧ (g.consumed p fate written).resume = g.resume ∧
      (g.consumed p fate written).parcel = some (p.advance fate written) := by
  rw [File.consumed, if_neg h]
  exact ⟨rfl, rfl, by simp [File.advance, hp]⟩

theorem File.consumed_last (h : p.rest.tail = []) :
    (g.consumed p fate written).parcel = none ∧ (g.consumed p fate written).nextSeq = (g.nextSeq + 1) % 2 ^ 32 ∧
      (g.resume + (p.consumed + 1) < 2 ^ 32 → (g.consumed p fate written).resume = g.resume + (p.consumed + 1)) := by
  rw [File.consumed, if_pos h]
  exact ⟨rfl, rfl, fun hlt => resumeAfter_of_lt hlt⟩

end

/-- A record consumed changes its own file and, with the last record of its parcel, the port. -/
theorem Works.finishParcel_frame {v : Works} {slot : Nat} {g : File} {p : Parcel} {fate : Fate} {written : Bool}
    (hg : v.file slot = some (g.advance fate written)) (hp : g.parcel = some p) :
    ∃ files, v.finishParcel slot = { v with
        intake := { v.intake with files := files }, port := v.port.consumed p g.state fate written } ∧
      tblGet slot files = some (g.consumed p fate written) ∧ ∀ k, k ≠ slot → tblGet k files = tblGet k v.intake.files := by
  refine ⟨_, Works.finishParcel_of_advanced hg hp, ?_, fun k hk => ?_⟩
  · split
    · exact tblGet_put_self _ _ _
    · next h => rw [File.consumed, if_neg h]; exact hg
  · split
    · exact tblGet_put_other _ _ _ _ hk
    · rfl

/-! ## The tests of a record (R60 to R62) -/

/-- A file with one more record among those presented (R61). -/
def File.presents (f : File) (rec : Plain) : File :=
  { f with presented := (f.presented.present rec.dur rec.charge).1,
           saturated := f.saturated || (f.presented.present rec.dur rec.charge).2 }

theorem Works.recordIntake_of_placed {x : Ctx} {w u : Works} {slot : Nat} {f : File} {p : Parcel} {rec : Plain} {rest : List Plain}
    {fate : Fate} (hf : w.file slot = some f) (ht : f.target = none) (hp : f.parcel = some p) (hrest : p.rest = rec :: rest)
    (hfree : w.parcelCause p = none) (hplace : (w.setFile slot (f.presents rec)).placeRecord x slot rec = (fate, u)) :
    w.recordIntake x slot = ((u.mapFile slot fun f => f.advance fate (u.refusalWrite p fate).isSome).finishParcel slot,
      u.refusalWrite p fate) := by
  simp only [File.presents, ht, hp] at hplace
  simp only [Works.recordIntake, hf, ht, hp, hrest, hfree, hplace]

/-- A record's parcel with the gate open and its day not GOING is not held back. -/
theorem Works.parcelCause_eq_none {w : Works} {p : Parcel} {rec : Plain} {rest : List Plain} (hrest : p.rest = rec :: rest)
    (hgate : w.intake.gateClosed = false) (hday : ∀ e, w.day (dayOf rec.start) = some e → e.going = false) :
    w.parcelCause p = none := by
  have hgoing : w.going (dayOf rec.start) = false := by
    unfold Works.going
    cases h : w.day (dayOf rec.start) with
    | none => rfl
    | some e => exact hday e h
  simp only [Works.parcelCause, hgate, Bool.false_eq_true, if_false, hrest, hgoing]

/-! ### The day of a record (R37) -/

theorem Works.dayFor_of_day {x : Ctx} {w : Works} {d : Nat} {e : DayEntry} (h : w.day d = some e) : w.dayFor x d = (some e.state, w) := by
  simp only [Works.dayFor, h]

theorem Works.dayFor_of_full {x : Ctx} {w : Works} {d : Nat} (h : w.day d = none) (hfull : 4096 ≤ w.days.length) :
    w.dayFor x d = (none, w) := by
  simp only [Works.dayFor, h]
  exact if_pos hfull

theorem Works.dayFor_of_room {x : Ctx} {w : Works} {d : Nat} {st : DayState} (h : w.day d = none) (hroom : w.days.length < 4096)
    (hst : (if x.today ≤ d + x.set.closeLag then DayState.opened else .closed) = st) :
    w.dayFor x d = (some st, { w with days := tblPut d (.new st) w.days }) := by
  subst hst
  simp only [Works.dayFor, h]
  exact if_neg (not_le.mpr hroom)

section
variable {x : Ctx} {w : Works} {slot : Nat} {rec : Plain}

/-- The first failing test of a record gives its outcome, and nothing changes. -/
theorem Works.placeRecord_refused {fate : Fate}
    (h : let d := dayOf rec.start
      let cls := classOf x.cfg.classes rec.account
      let overdue := due x.set.epoch x.cfg.policies x.today d cls = true ∧ tblGet rec.account w.retention.holds = none
      let timely := rec.malformed = false ∧ d ≤ x.today + 1
      ((fate = .malformed ∧ rec.malformed = true) ∨ (fate = .future ∧ rec.malformed = false ∧ x.today + 1 < d) ∨
        (fate = .expired ∧ timely ∧ overdue) ∨
        (fate = .noDay ∧ timely ∧ ¬ overdue ∧ w.day d = none ∧ 4096 ≤ w.days.length) ∨
        (∃ twin e, w.day d = some e ∧ w.intake.twin (rec.held cls) = some twin ∧ timely ∧ ¬ overdue ∧
          ((fate = .duplicate ∧ sameCall twin (rec.held cls) = true) ∨ (fate = .conflict ∧ sameCall twin (rec.held cls) = false))))) :
    w.placeRecord x slot rec = (fate, w) := by
  dsimp only at h
  have hover : (due x.set.epoch x.cfg.policies x.today (dayOf rec.start) (classOf x.cfg.classes rec.account) &&
      (tblGet rec.account w.retention.holds).isNone) = true ↔
      due x.set.epoch x.cfg.policies x.today (dayOf rec.start) (classOf x.cfg.classes rec.account) = true ∧
        tblGet rec.account w.retention.holds = none := by simp
  rcases h with ⟨rfl, hmal⟩ | ⟨rfl, hmal, hfut⟩ | ⟨rfl, ⟨hmal, hday⟩, hdue⟩ | ⟨rfl, ⟨hmal, hday⟩, hdue, hnone, hfull⟩ |
    ⟨twin, e, he, htwin, ⟨hmal, hday⟩, hdue, hsame⟩
  · exact if_pos hmal
  · simp only [Works.placeRecord, hmal, Bool.false_eq_true, if_false, if_pos hfut]
  · simp only [Works.placeRecord, hmal, Bool.false_eq_true, if_false, if_neg (not_lt.mpr hday), if_pos (hover.mpr hdue)]
  · simp only [Works.placeRecord, hmal, Bool.false_eq_true, if_false, if_neg (not_lt.mpr hday), if_neg (mt hover.mp hdue),
      Works.dayFor_of_full hnone hfull]
  · simp only [Works.placeRecord, hmal, Bool.false_eq_true, if_false, if_neg (not_lt.mpr hday), if_neg (mt hover.mp hdue),
      Works.dayFor_of_day he, htwin]
    rcases hsame with ⟨rfl, hsame⟩ | ⟨rfl, hsame⟩ <;> simp only [hsame, if_true, Bool.false_eq_true, if_false]

end

/-! ## The entry of the refusal list (R59, R73) -/

theorem Works.heard_of_req {w : Works} {id : Nat} {q : Req} (h : w.req id = some q) : w.heard id = !q.discarded := by
  simp [Works.heard, h]

/-- The entry that a record's outcome writes, for a list given and a request still heard. -/
theorem Works.refusalWrite_eq {w : Works} {p : Parcel} {q : Req} {fate : Fate} (hreq : w.req p.req = some q) :
    w.refusalWrite p fate = if fate.refused ∧ p.listAddr ≠ 0 ∧ q.discarded = false then
      some (p.listAddr + 4 * p.written, le 2 p.consumed ++ le 1 fate.index ++ le 1 0) else none := by
  simp only [Works.refusalWrite, Works.heard_of_req hreq, Bool.and_eq_true, decide_eq_true_eq, Bool.not_eq_true', refusalEntry, and_assoc]

theorem isSome_ite_some {α : Type} (c : Prop) [Decidable c] (a : α) : (if c then some a else none).isSome = decide c := by
  split <;> simp_all

/-- What a command writes to host memory, and the units without consequences after it. -/
theorem State.settledWith_ite {s : State} {w : Works} (c : Prop) [Decidable c] (a : Nat) (b : Bytes) (hq : w.tasks = []) :
    s.settledWith (w, if c then some (a, b) else none) =
      .next { s with host := if c then hostWrite s.host a b else s.host, works := w } := by
  split
  · exact State.settled_quiet _ w hq
  · exact State.settled_quiet s w hq

theorem Works.file_mapFile (w : Works) (slot : Nat) (f : File → File) : (w.mapFile slot f).file slot = (w.file slot).map f :=
  (tblGet_modify _ _ _ _).trans (if_pos rfl)

theorem Works.file_mapFile_other (w : Works) {slot k : Nat} (f : File → File) (h : k ≠ slot) : (w.mapFile slot f).file k = w.file k :=
  (tblGet_modify _ _ _ _).trans (if_neg h)

theorem Works.file_setFile_other (w : Works) {slot k : Nat} (f : File) (h : k ≠ slot) : (w.setFile slot f).file k = w.file k :=
  tblGet_put_other _ _ _ _ h

theorem Works.file_setFile (w : Works) (slot : Nat) (f : File) : (w.setFile slot f).file slot = some f := tblGet_put_self _ _ _

/-- The port at the end of a parcel whose request is found. -/
theorem Port.consumed_last {w : Works} {p : Parcel} {q : Req} {st : FileState} {fate : Fate} {written : Bool}
    (hreq : w.req p.req = some q) (hlast : p.rest.tail = []) :
    (q.discarded = false → (w.port.out.get q.ch).length < 64 → w.port.consumed p st fate written = w.port.answered q .done none
      (.parcel (p.consumed + 1) (if written then p.written + 1 else p.written) st (addFate fate p.counts))) ∧
    (q.discarded = true →
      w.port.consumed p st fate written = { w.port with reqs := w.port.reqs.filter fun r => decide (r.id ≠ q.id) }) := by
  rw [Port.consumed, if_pos hlast]
  exact ⟨fun hheard hroom => Works.replied_of_heard hreq hheard hroom _ _ _, fun hdisc => Works.replied_of_discarded hreq hdisc _ _ _⟩

/-- Settles O27: the first failing test names the outcome, and the record is consumed under it. -/
theorem recordIntakeRefusesByTheFirstFailingStep : Obligations.RecordIntakeRefusesByTheFirstFailingStep := by
  intro slot today s f p rec rest q fate hq htoday hf ht hp hrest hgate hgoing hreq listed written d cls overdue timely hfate
  have htail : p.rest.tail = rest := by rw [hrest]; rfl
  have hctx : s.ctx.today = today := by simp [Ctx.today, htoday]
  let u := s.works.setFile slot (f.presents rec)
  have hplace : u.placeRecord s.ctx slot rec = (fate, u) := Works.placeRecord_refused (by rw [hctx]; exact hfate)
  have hrefused : fate.refused = true := by
    rcases hfate with ⟨rfl, -⟩ | ⟨rfl, -⟩ | ⟨rfl, -⟩ | ⟨rfl, -⟩ | ⟨-, -, -, -, -, -, ⟨rfl, -⟩ | ⟨rfl, -⟩⟩ <;> rfl
  have hwrite : u.refusalWrite p fate =
      if listed then some (p.listAddr + 4 * p.written, le 2 p.consumed ++ le 1 fate.index ++ le 1 0) else none := by
    rw [Works.refusalWrite_eq (w := u) hreq]
    exact if_congr (by simp [hrefused, listed]) rfl rfl
  have hparcel : (f.presents rec).parcel = some p := hp
  have hfile : (u.mapFile slot fun f => f.advance fate (decide listed)).file slot =
      some ((f.presents rec).advance fate (decide listed)) := by
    rw [Works.file_mapFile, Works.file_setFile]
    rfl
  have hwritten : (if decide listed = true then p.written + 1 else p.written) = written := if_congr (decide_eq_true_iff) rfl rfl
  obtain ⟨files, hfinish, hslot, hother⟩ := Works.finishParcel_frame hfile hparcel
  obtain ⟨hcounts, hpresented, hout, hstate, -, -⟩ := (f.presents rec).consumed_fixed (p := p) (fate := fate) (written := decide listed)
  refine ⟨files, s.works.port.consumed p f.state fate (decide listed), ?_, fun k hk => ?_, _, hslot, hpresented, hcounts, hout, hstate, fun hmore => ?_, fun hlast => ?_⟩
  · have hexec : exec (.recordIntakeEvent slot) s = s.settledWith (s.works.recordIntake s.ctx slot) := rfl
    rw [hexec, Works.recordIntake_of_placed hf ht hp hrest (Works.parcelCause_eq_none hrest hgate hgoing) hplace, hwrite,
      isSome_ite_some, hfinish, State.settledWith_ite]
    case hq => exact hq
    rfl
  · exact (hother k hk).trans ((Works.file_mapFile_other u _ hk).trans (Works.file_setFile_other s.works _ hk))
  · rw [← htail] at hmore
    obtain ⟨hseq, hresume, hnext⟩ := File.consumed_more (fate := fate) (written := decide listed) hparcel hmore
    refine ⟨if_neg hmore, hseq, hresume, hnext.trans ?_⟩
    rw [Parcel.advance, htail, hwritten, addFate]
  · rw [← htail] at hlast
    obtain ⟨hnone, hseq, hresume⟩ := (f.presents rec).consumed_last (fate := fate) (written := decide listed) hlast
    have hport := Port.consumed_last (w := u) (st := f.state) (fate := fate) (written := decide listed) hreq hlast
    rw [hwritten] at hport
    exact ⟨hnone, hseq, hresume, hport⟩

/-! ## The record intake event of a RESTORE file (R71) -/

/-- A file with a record in its restore set. -/
def File.restores (f : File) (r : Rec) : File :=
  { f with restoreSet := insertBy recLt r f.restoreSet, outstanding := f.outstanding + 1 }

/-- The first test that holds gives a restored record's outcome; only an ACCEPTED one changes the file. -/
theorem File.placeRestored_eq {f : File} {g : Target} {rec : Plain} {fate : Fate}
    (h : let call := rec.held g.cls
      let within := dayOf rec.start = g.day ∧ call.key.lt g.first = false ∧ g.last.lt call.key = false ∧ f.restoreSet.length < 512
      let twin := f.restoreSet.find? fun r => decide (r.identity = call.identity)
      ((fate = .malformed ∧ rec.malformed = true) ∨ (fate = .outOfRange ∧ rec.malformed = false ∧ ¬ within) ∨
        (∃ r, twin = some r ∧ rec.malformed = false ∧ within ∧
          ((fate = .duplicate ∧ sameCall r call = true) ∨ (fate = .conflict ∧ sameCall r call = false))) ∨
        (fate = .accepted ∧ twin = none ∧ rec.malformed = false ∧ within))) :
    f.placeRestored g rec = (fate, if fate = .accepted then f.restores (rec.held g.cls) else f) := by
  dsimp only at h
  have hout : (dayOf rec.start ≠ g.day ∨ (rec.held g.cls).key.lt g.first = true ∨ g.last.lt (rec.held g.cls).key = true ∨
      Config.sheetRecords ≤ f.restoreSet.length) ↔ ¬(dayOf rec.start = g.day ∧ (rec.held g.cls).key.lt g.first = false ∧
        g.last.lt (rec.held g.cls).key = false ∧ f.restoreSet.length < 512) := by
    simp only [not_and_or, Bool.not_eq_false, not_lt, ne_eq, Config.sheetRecords]
  rcases h with ⟨rfl, hmal⟩ | ⟨rfl, hmal, hfar⟩ | ⟨r, htwin, hmal, hin, hsame⟩ | ⟨rfl, htwin, hmal, hin⟩
  · exact if_pos hmal
  · simp only [File.placeRestored, hmal, Bool.false_eq_true, if_false, if_pos (hout.mpr hfar), reduceCtorEq]
  · simp only [File.placeRestored, hmal, Bool.false_eq_true, if_false, if_neg (mt hout.mp (not_not.mpr hin)), htwin]
    rcases hsame with ⟨rfl, hsame⟩ | ⟨rfl, hsame⟩ <;> simp only [hsame, Bool.false_eq_true, if_true, if_false, reduceCtorEq]
  · simp only [File.placeRestored, hmal, Bool.false_eq_true, if_false, if_neg (mt hout.mp (not_not.mpr hin)), htwin, if_true]
    rfl

theorem Works.restoreIntake_of_placed {w : Works} {slot : Nat} {f h : File} {g : Target} {p : Parcel} {rec : Plain} {rest : List Plain}
    {fate : Fate} (hf : w.file slot = some f) (ht : f.target = some g) (hp : f.parcel = some p) (hrest : p.rest = rec :: rest)
    (hplace : (f.presents rec).placeRestored g rec = (fate, h)) :
    w.restoreIntake slot = ((w.setFile slot (h.advance fate (w.refusalWrite p fate).isSome)).finishParcel slot,
      w.refusalWrite p fate) := by
  simp only [File.presents, ht, hp] at hplace
  simp only [Works.restoreIntake, hf, ht, hp, hrest, hplace]

/-- Settles O30: the tests name the outcome, an ACCEPTED record joins the set, and every record is consumed. -/
theorem restoredRecordJoinsTheRestoreSet : Obligations.RestoredRecordJoinsTheRestoreSet := by
  intro slot s f g p rec rest q fate hq hf ht hp hrest hreq call within twin listed written counts hfate
  have htail : p.rest.tail = rest := by rw [hrest]; rfl
  have hplace : (f.presents rec).placeRestored g rec = (fate, if fate = .accepted then (f.presents rec).restores call else f.presents rec) :=
    File.placeRestored_eq hfate
  have hrefused : fate.refused = true ↔ fate ≠ .accepted := by
    rcases hfate with ⟨rfl, -⟩ | ⟨rfl, -⟩ | ⟨-, -, -, -, ⟨rfl, -⟩ | ⟨rfl, -⟩⟩ | ⟨rfl, -⟩ <;> decide
  have hwrite : s.works.refusalWrite p fate =
      if listed then some (p.listAddr + 4 * p.written, le 2 p.consumed ++ le 1 fate.index ++ le 1 0) else none := by
    rw [Works.refusalWrite_eq hreq]
    exact if_congr (by rw [hrefused]) rfl rfl
  let h := if fate = .accepted then (f.presents rec).restores call else f.presents rec
  have hfixed : h.parcel = some p ∧ h.state = f.state ∧ h.target = f.target ∧ h.counts = f.counts ∧ h.nextSeq = f.nextSeq ∧
      h.resume = f.resume ∧ h.presented = (f.presents rec).presented := by
    simp only [h]
    split <;> exact ⟨hp, rfl, rfl, rfl, rfl, rfl, rfl⟩
  obtain ⟨hparcel, hst, htarget, hcount, hnextSeq, hres, hpres⟩ := hfixed
  have hset : h.restoreSet = (if fate = .accepted then insertBy recLt call f.restoreSet else f.restoreSet) ∧
      h.outstanding = if fate = .accepted then f.outstanding + 1 else f.outstanding := by
    simp only [h]
    split <;> exact ⟨rfl, rfl⟩
  have hwritten : (if decide listed = true then p.written + 1 else p.written) = written := if_congr (decide_eq_true_iff) rfl rfl
  obtain ⟨files, hfinish, hslot, hother⟩ := Works.finishParcel_frame (v := s.works.setFile slot (h.advance fate (decide listed)))
    (Works.file_setFile _ _ _) hparcel
  obtain ⟨hcounts, hpresented, hout, hstate, htgt, hrs⟩ := h.consumed_fixed (p := p) (fate := fate) (written := decide listed)
  refine ⟨files, s.works.port.consumed p f.state fate (decide listed), ?_, fun k hk => ?_, _, hslot, hrs.trans hset.1,
    hout.trans hset.2, hstate.trans hst, htgt.trans htarget, hpresented.trans hpres, hcounts.trans (congrArg _ hcount),
    fun hmore => ?_, fun hlast => ?_⟩
  · have hexec : exec (.restoreRecordIntake slot) s = s.settledWith (s.works.restoreIntake slot) := rfl
    rw [hexec, Works.restoreIntake_of_placed hf ht hp hrest hplace, hwrite, isSome_ite_some, hfinish, State.settledWith_ite, hst]
    case hq => exact hq
    rfl
  · exact (hother k hk).trans (Works.file_setFile_other s.works _ hk)
  · rw [← htail] at hmore
    obtain ⟨hseq, hresume, hnext⟩ := File.consumed_more (fate := fate) (written := decide listed) hparcel hmore
    refine ⟨if_neg hmore, hseq.trans hnextSeq, hresume.trans hres, hnext.trans ?_⟩
    rw [Parcel.advance, htail, hwritten, addFate]
  · rw [← htail] at hlast
    obtain ⟨hnone, hseq, hresume⟩ := h.consumed_last (fate := fate) (written := decide listed) hlast
    have hport := Port.consumed_last (w := s.works) (st := f.state) (fate := fate) (written := decide listed) hreq hlast
    rw [hnextSeq] at hseq
    rw [hres] at hresume
    rw [hwritten] at hport
    exact ⟨hnone, hseq, hresume, hport⟩

end Sys2Proof.Machine
end

section
/-!
SUPPORT. A record of a NORMAL file that is taken (R62 to R64): staged in an OPEN day, late in a CLOSING or CLOSED one.
-/

namespace Sys2Proof.Machine

/-! ## The gate (R64) -/

theorem Intake.testGate_iff (i : Intake) :
    (30198988 ≤ i.stagedCount → i.testGate.stagingHigh = true) ∧ (i.stagedCount < 26843545 → i.testGate.stagingHigh = false) ∧
      (1048576 ≤ i.late.length → i.testGate.lateFull = true) ∧ (i.late.length < 838860 → i.testGate.lateFull = false) := by
  refine ⟨fun h => if_pos h, fun h => ?_, fun h => if_pos h, fun h => ?_⟩
  · exact (if_neg (by simp only [Config.stagingSet]; omega)).trans (if_pos h)
  · exact (if_neg (by simp only [Config.lateMax]; omega)).trans (if_pos h)

/-! ## A day's account (R46) -/

/-- A record placed in a day whose counters balance leaves them balancing. -/
theorem DayEntry.place_conserved {e : DayEntry} (r : Rec) (late : Bool) (h : e.conserved) : (e.place r late).conserved := by
  have hentries : (e.place r late).entries = e.entries := by cases late <;> rfl
  rw [DayEntry.conserved, hentries]
  simp only [DayEntry.conserved, Triple.add, Triple.sub, Triple.mk.injEq] at h ⊢
  obtain ⟨hcount, hdur, hcharge⟩ := h
  cases late <;> refine ⟨?_, ?_, ?_⟩ <;> simp only [DayEntry.place, Bool.false_eq_true, if_false, if_true, Triple.add] <;> omega

/-- Of a Day Table whose day balances, the day after a record's placement balances. -/
theorem conserved_of_placed {d : Nat} {r : Rec} {late : Bool} {days : Tbl DayEntry} (h : ∀ e, tblGet d days = some e → e.conserved) :
    ∀ e, tblGet d (tblModify d (·.place r late) days) = some e → e.conserved := by
  intro e he
  rw [tblGet_modify, if_pos rfl, Option.map_eq_some_iff] at he
  obtain ⟨e', he', rfl⟩ := he
  exact DayEntry.place_conserved r late (h e' he')

/-! ## The record placed -/

/-- A file with one more record outstanding. -/
def File.owes (f : File) : File := { f with outstanding := f.outstanding + 1 }

/-- The units with a record placed in staging, the Day Table being `days` before it (R63). -/
def Works.stagedIn (w : Works) (slot d : Nat) (days : Tbl DayEntry) (call : Rec) : Works :=
  { w.mapFile slot File.owes with
    days := tblModify d (·.place call false) days
    intake := ((w.mapFile slot File.owes).intake.stage d ⟨call, slot⟩).testGate }

/-- The units with a record placed in the Late List, the Day Table being `days` before it (R64). -/
def Works.lateIn (x : Ctx) (w : Works) (slot d cls : Nat) (days : Tbl DayEntry) (call : Rec) : Works :=
  { w.mapFile slot File.owes with
    days := tblModify d (·.place call true) days
    intake := ({ (w.mapFile slot File.owes).intake with
      late := insertBy lateLt ⟨call.asLate, slot, x.clock⟩ w.intake.late } : Intake).testGate
    packer := w.packer.rearmAt d cls x.clock
    tasks := w.tasks ++ [.mergeTest d cls] }

section
variable {x : Ctx} {w : Works} {slot d cls : Nat} {rec : Plain} {days : Tbl DayEntry} {st : DayState}
  (hmal : rec.malformed = false) (hd : dayOf rec.start = d) (hcls : classOf x.cfg.classes rec.account = cls)
  (htime : d ≤ x.today + 1)
  (hdue : due x.set.epoch x.cfg.policies x.today d cls = true → (tblGet rec.account w.retention.holds).isSome)
  (hfor : w.dayFor x d = (some st, { w with days := days })) (htwin : w.intake.twin (rec.held cls) = none)
include hmal hd hcls htime hdue hfor htwin

theorem Works.placeRecord_staged (hst : st = .opened) :
    w.placeRecord x slot rec = (.accepted, w.stagedIn slot d days (rec.held cls)) := by
  subst hd hcls
  have hdue : ¬(due x.set.epoch x.cfg.policies x.today (dayOf rec.start) (classOf x.cfg.classes rec.account) &&
      (tblGet rec.account w.retention.holds).isNone) = true := by
    simp only [Bool.and_eq_true, Option.isNone_iff_eq_none, not_and]
    exact fun h => Option.ne_none_iff_isSome.mpr (hdue h)
  simp only [Works.placeRecord, hmal, Bool.false_eq_true, if_false, if_neg (not_lt.mpr htime), if_neg hdue, hfor, htwin, if_pos hst]
  rfl

theorem Works.placeRecord_late (hst : st ≠ .opened) :
    w.placeRecord x slot rec = (.late, w.lateIn x slot d cls days (rec.held cls)) := by
  subst hd hcls
  have hdue : ¬(due x.set.epoch x.cfg.policies x.today (dayOf rec.start) (classOf x.cfg.classes rec.account) &&
      (tblGet rec.account w.retention.holds).isNone) = true := by
    simp only [Bool.and_eq_true, Option.isNone_iff_eq_none, not_and]
    exact fun h => Option.ne_none_iff_isSome.mpr (hdue h)
  simp only [Works.placeRecord, hmal, Bool.false_eq_true, if_false, if_neg (not_lt.mpr htime), if_neg hdue, hfor, htwin, if_neg hst]
  rfl

end

/-- A record taken is entered in no refusal list. -/
theorem Works.refusalWrite_of_taken (w : Works) (p : Parcel) {fate : Fate} (h : fate.refused = false) : w.refusalWrite p fate = none := by
  simp [Works.refusalWrite, h]

/-- Settles O28: an OPEN day takes a new record into staging, another one into the Late List. -/
theorem acceptedRecordIsStagedOrLate : Obligations.AcceptedRecordIsStagedOrLate := by
  intro slot today s f p rec rest hq htoday hf ht hp hrest hgate hmal d cls call htime hdue htwin filed gates staged lated
  have hctx : s.ctx.today = today := by simp [Ctx.today, htoday]
  have htail : p.rest.tail = rest := by rw [hrest]; rfl
  rw [← hctx] at htime hdue
  let u := s.works.setFile slot (f.presents rec)
  let g := (f.presents rec).owes
  have hexec : exec (.recordIntakeEvent slot) s = s.settledWith (s.works.recordIntake s.ctx slot) := rfl
  have hparcel : g.parcel = some p := hp
  have hadvanced : ∀ (v : Works) (fate : Fate), v.file slot = some g →
      (v.mapFile slot fun f => f.advance fate false).file slot = some (g.advance fate false) := fun v fate hv => by
    rw [Works.file_mapFile, hv]
    rfl
  have howed : (u.mapFile slot File.owes).file slot = some g := by
    rw [Works.file_mapFile, Works.file_setFile]
    rfl
  have hothers : ∀ {files : Tbl File} (fate : Fate), (∀ k, k ≠ slot → tblGet k files =
      tblGet k ((u.mapFile slot File.owes).mapFile slot fun f => f.advance fate false).intake.files) →
      ∀ k, k ≠ slot → tblGet k files = tblGet k s.works.intake.files := fun _ h k hk =>
    (h k hk).trans ((Works.file_mapFile_other _ _ hk).trans ((Works.file_mapFile_other u _ hk).trans (Works.file_setFile_other s.works _ hk)))
  have hfiled : ∀ (w : Works) (fate : Fate) files, tblGet slot files = some (g.consumed p fate false) →
      (∀ k, k ≠ slot → tblGet k files = tblGet k s.works.intake.files) → w.intake.files = files →
      w.port = s.works.port.consumed p f.state fate false → filed w fate := by
    intro w fate files hslot hother hfiles hport
    obtain ⟨hcounts, -, hout, hstate, -, -⟩ := g.consumed_fixed (p := p) (fate := fate) (written := false)
    subst hfiles
    refine ⟨hother, _, hslot, hout, hstate, hcounts, fun hmore => ?_, fun hlast => ?_⟩
    · rw [← htail] at hmore
      obtain ⟨hseq, hresume, hnext⟩ := File.consumed_more (fate := fate) (written := false) hparcel hmore
      refine ⟨hport.trans (if_neg hmore), hseq, hresume, hnext.trans ?_⟩
      rw [Parcel.advance, htail, addFate]
      rfl
    · rw [← htail] at hlast
      obtain ⟨hnone, hseq, hresume⟩ := g.consumed_last (fate := fate) (written := false) hlast
      exact ⟨hnone, hseq, hresume, fun q hreq => hport ▸ Port.consumed_last hreq hlast⟩
  have hstaged : ∀ days st, (∀ e, s.works.day d = some e → e.going = false) → u.dayFor s.ctx d = (some st, { u with days := days }) →
      st = .opened → staged days := by
    intro days st hgoing hfor hst
    have hplace : u.placeRecord s.ctx slot rec = (.accepted, u.stagedIn slot d days call) :=
      Works.placeRecord_staged (w := u) hmal rfl rfl htime hdue hfor htwin hst
    have hrec := Works.recordIntake_of_placed hf ht hp hrest (Works.parcelCause_eq_none hrest hgate hgoing) hplace
    obtain ⟨files, hfinish, hslot, hother⟩ := Works.finishParcel_frame (hadvanced (u.stagedIn slot d days call) .accepted howed) hparcel
    rw [Works.refusalWrite_of_taken _ _ rfl, show (none : Option (Nat × Bytes)).isSome = false from rfl] at hrec
    let i := (u.mapFile slot File.owes).intake.stage d ⟨call, slot⟩
    let v : Works := { s.works with
      days := tblModify d (·.place call false) days
      intake := { i.testGate with files := files }
      port := s.works.port.consumed p f.state .accepted false }
    refine ⟨{ s with works := v }, ?_, rfl, rfl, rfl, rfl, hfiled v .accepted files hslot (hothers _ hother) rfl rfl,
      i.testGate_iff, conserved_of_placed⟩
    rw [hexec, hrec, hfinish]
    exact State.settled_quiet s _ hq
  have hlated : ∀ days st, (∀ e, s.works.day d = some e → e.going = false) → u.dayFor s.ctx d = (some st, { u with days := days }) →
      st ≠ .opened → lated days := by
    intro days st hgoing hfor hst
    have hplace : u.placeRecord s.ctx slot rec = (.late, u.lateIn s.ctx slot d cls days call) :=
      Works.placeRecord_late (w := u) hmal rfl rfl htime hdue hfor htwin hst
    have hrec := Works.recordIntake_of_placed hf ht hp hrest (Works.parcelCause_eq_none hrest hgate hgoing) hplace
    obtain ⟨files, hfinish, hslot, hother⟩ := Works.finishParcel_frame (hadvanced (u.lateIn s.ctx slot d cls days call) .late howed) hparcel
    rw [Works.refusalWrite_of_taken _ _ rfl, show (none : Option (Nat × Bytes)).isSome = false from rfl] at hrec
    let i : Intake := { (u.mapFile slot File.owes).intake with late := insertBy lateLt ⟨call.asLate, slot, s.clock⟩ s.works.intake.late }
    let v : Works := { s.works with
      days := tblModify d (·.place call true) days
      intake := { i.testGate with files := files }
      packer := s.works.packer.rearmAt d cls s.clock
      port := s.works.port.consumed p f.state .late false
      tasks := [.mergeTest d cls] }
    refine ⟨v, ?_, rfl, rfl, rfl, rfl, rfl, rfl, hfiled v .late files hslot (hothers _ hother) rfl rfl, i.testGate_iff,
      conserved_of_placed⟩
    have htasks : s.works.tasks ++ [.mergeTest d cls] = [Task.mergeTest d cls] := by rw [show s.works.tasks = [] from hq]; rfl
    rw [hexec, hrec, hfinish]
    exact congrArg (fun l => Host.Outcome.next { s with works := settle s.ctx taskBudget { v with tasks := l } }) htasks
  have hnew : ∀ st, s.works.day d = none → s.works.days.length < 4096 →
      (if today ≤ d + s.cfg.settings.closeLag then DayState.opened else .closed) = st →
      u.dayFor s.ctx d = (some st, { u with days := tblPut d (.new st) s.works.days }) := by
    intro st hnone hroom hst
    exact Works.dayFor_of_room (w := u) hnone hroom (by rw [hctx]; exact hst)
  refine ⟨fun e he hgoing => ⟨fun hst => ?_, fun hst => ?_⟩, fun hnone hroom => ⟨fun hday => ?_, fun hday => ?_⟩⟩
  · exact hstaged _ _ (fun e' he' => Option.some.inj (he.symm.trans he') ▸ hgoing) (Works.dayFor_of_day (w := u) he) hst
  · exact hlated _ _ (fun e' he' => Option.some.inj (he.symm.trans he') ▸ hgoing) (Works.dayFor_of_day (w := u) he) hst
  · exact hstaged _ _ (by simp [hnone]) (hnew _ hnone hroom (if_pos hday)) rfl
  · exact hlated _ _ (by simp [hnone]) (hnew _ hnone hroom (if_neg (by omega))) (by decide)

end Sys2Proof.Machine
end

section
/-!
SUPPORT. The Catalogue's own requests: a day closed by the host (R52), and the day-roll event with its automatic releases (R50, R51, R151).
-/

namespace Sys2Proof.Machine

/-! ## A day that begins closing (R39) -/

/-- The classes of a day with staged records. -/
def Works.stagedClasses (w : Works) (d : Nat) : List Nat := (List.range 8).filter fun c => decide (w.intake.set d c ≠ [])

/-- The consequences of a day's beginning to close. -/
def Works.closingTasks (w : Works) (d : Nat) : List Task :=
  if w.stagedClasses d = [] then (List.range 8).map (fun c => .mergeTest d c) else [.ask (.catalogue d)]

/-- A day's entry after it has begun closing. -/
def DayEntry.closed (e : DayEntry) (classes : List Nat) : DayEntry :=
  { e with state := if classes = [] then .closed else .closing, awaiting := classes }

theorem Works.beginClosing_eq (w : Works) (d : Nat) :
    w.beginClosing d = { w with
      days := tblModify d (·.closed (w.stagedClasses d)) w.days, tasks := w.tasks ++ w.closingTasks d } := by
  by_cases h : w.stagedClasses d = []
  · have hif : w.beginClosing d = (w.mapDay d fun e => { e with state := .closed, awaiting := [] }).testMerges d := if_pos h
    rw [hif, Works.closingTasks, if_pos h, h]
    rfl
  · have hif : w.beginClosing d =
        (w.mapDay d fun e => { e with state := .closing, awaiting := w.stagedClasses d }).task (.ask (.catalogue d)) := if_neg h
    rw [hif, Works.closingTasks, if_neg h]
    simp only [DayEntry.closed, if_neg h]
    rfl

/-- Settles O31: what CLOSE DAY answers follows from the day's entry after the event. -/
theorem closeDayBeginsClosing : Obligations.CloseDayBeginsClosing := by
  intro ch s r d ho hr hq
  have hexec : exec (.closeDay ch) s = s.settled (match s.works.day d with
      | none => s.works.refuse r.id .notFound
      | some e => (if e.state = .opened then s.works.beginClosing d else s.works).done r.id
          (.dayState ((((if e.state = .opened then s.works.beginClosing d else s.works).day d).map (·.state)).getD .closed))) :=
    State.serve_some s ch .catalogue _ r _ ho.1 (by simp only [hr] <;> rfl)
  have hclosing : ∀ e, s.works.day d = some e → e.state = .opened → exec (.closeDay ch) s = .next { s with
      works := settle s.ctx taskBudget { s.works with
        days := tblModify d (·.closed (s.works.stagedClasses d)) s.works.days
        tasks := s.works.closingTasks d
        port := s.works.port.answered r .done none (.dayState (e.closed (s.works.stagedClasses d)).state) } } := by
    intro e he hst
    have hday : ((s.works.beginClosing d).day d).map (·.state) = some (e.closed (s.works.stagedClasses d)).state := by
      rw [Works.beginClosing_eq]
      have hget : tblGet d s.works.days = some e := he
      simp [Works.day, tblGet_modify, hget]
    have htasks : s.works.tasks ++ s.works.closingTasks d = s.works.closingTasks d := by rw [show s.works.tasks = [] from hq]; rfl
    rw [hexec, he]
    simp only [if_pos hst, hday, Option.getD_some]
    rw [Works.beginClosing_eq, htasks, Works.done, State.offers_reply ho]
    case hport => rfl
    rfl
  refine ⟨fun hnone => ?_, fun e he => ⟨fun hst => ?_, fun hst => ?opened⟩⟩
  · rw [hexec, hnone]
    exact State.settled_refuse ho hq _
  · rw [hexec, he]
    simp only [if_neg hst, he, Option.map_some, Option.getD_some]
    exact State.settled_done (w := s.works) ho rfl hq _
  · have h := hclosing e he hst
    refine ⟨fun hsome => ?_, fun hnil => ?_⟩
    · have hsome : s.works.stagedClasses d ≠ [] := hsome
      simp only [DayEntry.closed, Works.closingTasks, if_neg hsome] at h
      exact h
    · have hnil : s.works.stagedClasses d = [] := hnil
      simp only [DayEntry.closed, Works.closingTasks, hnil, if_true] at h
      exact h

/-! ## The day-roll event (R51) -/

/-- Days that begin closing one after another: each day named is closed, and the consequences follow in the order of the days. -/
theorem Works.foldl_beginClosing (l : List Nat) (w : Works) :
    ∃ days, l.foldl (fun w d => w.beginClosing d) w = { w with days := days, tasks := w.tasks ++ l.flatMap w.closingTasks } ∧
      ∀ d, tblGet d days = if d ∈ l then (w.day d).map (·.closed (w.stagedClasses d)) else w.day d := by
  induction l generalizing w with
  | nil => exact ⟨w.days, by simp, fun d => by simp [Works.day]⟩
  | cons a l ih =>
    obtain ⟨days, hfold, hdays⟩ := ih (w.beginClosing a)
    rw [Works.beginClosing_eq] at hfold hdays
    refine ⟨days, ?_, fun d => ?_⟩
    · rw [List.foldl_cons, Works.beginClosing_eq, hfold, List.flatMap_cons, ← List.append_assoc]
      rfl
    · rw [hdays d]
      have hget : ∀ f : DayEntry → DayEntry, tblGet d (tblModify a f w.days) = if d = a then (w.day d).map f else w.day d :=
        fun f => tblGet_modify _ _ _ _
      have hclasses : ∀ t days, ({ w with tasks := t, days := days } : Works).stagedClasses d = w.stagedClasses d := fun _ _ => rfl
      simp only [Works.day, List.mem_cons] at hget ⊢
      rw [hclasses, hget]
      by_cases hda : d = a
      · subst hda
        by_cases hd : d ∈ l <;> simp [hd, DayEntry.closed, Function.comp_def]
      · by_cases hd : d ∈ l <;> simp [hd, hda]

/-! ## Automatic releases (R151) -/

/-- An entry of the Hold Table without its regulatory hold; none when nothing is left. -/
def HoldEntry.unregulated (e : HoldEntry) : Option HoldEntry := if 0 < e.disputes then some { e with reg := none } else none

/-- An account's regulatory hold ended. -/
def endRegulatory (t : Tbl HoldEntry) (a : Nat) : Tbl HoldEntry := putHold a { holdOf a t with reg := none } t

theorem tblGet_endRegulatory_other (t : Tbl HoldEntry) {a b : Nat} (h : b ≠ a) : tblGet b (endRegulatory t a) = tblGet b t := by
  unfold endRegulatory putHold
  split
  · exact tblGet_put_other _ _ _ _ h
  · exact tblGet_drop_other _ _ _ h

theorem tblGet_endRegulatory_self (t : Tbl HoldEntry) (a : Nat) :
    tblGet a (endRegulatory t a) = (tblGet a t).bind HoldEntry.unregulated := by
  unfold endRegulatory putHold holdOf HoldEntry.alive
  cases h : tblGet a t with
  | none => simp
  | some e =>
    by_cases hd : 0 < e.disputes
    · simp [HoldEntry.unregulated, hd]
    · simp [HoldEntry.unregulated, hd]

/-- Regulatory holds ended for a list of accounts: each account named loses its own, the others keep theirs. -/
theorem tblGet_foldl_endRegulatory (l : List Nat) (t : Tbl HoldEntry) (a : Nat) :
    tblGet a (l.foldl endRegulatory t) = if a ∈ l then (tblGet a t).bind HoldEntry.unregulated else tblGet a t := by
  have hidem : ∀ e : HoldEntry, e.unregulated.bind HoldEntry.unregulated = e.unregulated := by
    intro e
    unfold HoldEntry.unregulated
    split
    · next h => simp [h]
    · rfl
  induction l generalizing t with
  | nil => simp
  | cons b l ih =>
    rw [List.foldl_cons, ih]
    by_cases hab : a = b
    · subst hab
      rw [tblGet_endRegulatory_self, Option.bind_assoc]
      by_cases ha : a ∈ l <;> simp [ha, hidem]
    · rw [tblGet_endRegulatory_other _ hab]
      simp [hab]

/-- The accounts whose regulatory hold's release day has come. -/
def Retention.releases (t : Retention) (today : Nat) : List Nat := (t.holds.filter fun p => p.2.expired today).map (·.1)

theorem Works.autoRelease_eq (w : Works) (today : Nat) :
    w.autoRelease today =
      let ranges := w.retention.ranges.map fun q =>
        if (w.retention.holds.any fun p => p.2.expired today && decide (q.lo ≤ p.1) && decide (p.1 ≤ q.hi)) then { q with owed := true } else q
      { w with
        retention := { w.retention with
          holds := (w.retention.releases today).foldl endRegulatory w.retention.holds, ranges := ranges }
        tasks := w.tasks ++ (ranges.filter fun q => q.owed).map fun q => .holdStart q.lo } := by
  have hhit : ∀ q : HoldRange, (w.retention.releases today).any q.has =
      w.retention.holds.any fun p => p.2.expired today && decide (q.lo ≤ p.1) && decide (p.1 ≤ q.hi) := fun q => by
    simp only [Retention.releases, List.any_map, List.any_filter, HoldRange.has, Function.comp_def, Bool.and_assoc]
  simp only [← hhit]
  rfl

/-- A sweep started leaves Retention as it was but for the sweep. -/
theorem Works.startSweep_eq (x : Ctx) (w : Works) :
    (w.startSweep x).2 = { w with retention := { w.retention with
      sweep := some (w.retention.sweep.elim (.start x.today x.cfg.policies) fun v => { v with again := true }) } } := by
  cases h : w.retention.sweep with
  | none => simp only [Works.startSweep, h]; rfl
  | some v => simp only [Works.startSweep, h, Works.mapSweep]; simp [Works.mapRetention, h]

theorem rollRefused_iff (today new : Nat) : rollRefused today new = true ↔ new ≤ today ∨ today + 31 < new ∨ 49710 < new := by
  simp only [rollRefused, Bool.or_eq_true, decide_eq_true_eq, or_assoc]
  rfl

theorem exec_dayRoll_of_offers {ch : Fin 4} {s : State} {r : Req} {new : Nat} (ho : s.offers ch .catalogue r)
    (hr : r.request = .dayRoll new) :
    exec (.dayRoll ch) s =
      if rollRefused (s.cfg.today.getD 0) new then s.settled (s.works.refuse r.id .dayOrder)
      else
        let t : State := { s with cfg := s.cfg.roll new }
        t.settled ((s.works.roll t.ctx (s.works.daysToClose s.cfg.settings.closeLag new)).done r.id
          (.rolled new (s.works.daysToClose s.cfg.settings.closeLag new).length)) := by
  change execDayRoll ch s = _
  simp only [execDayRoll, ho.1, hr]
  rfl

/-- Settles O32: the closings, the releases and the sweep each change their own part, in the event's order. -/
theorem dayRollMovesTodayAndTheTables : Obligations.DayRollMovesTodayAndTheTables := by
  intro ch s r today new ho hr hq htoday
  rw [exec_dayRoll_of_offers ho hr, htoday, Option.getD_some]
  refine ⟨fun hbad => ?_, fun hlt hle hmax => ?rolled⟩
  · rw [if_pos ((rollRefused_iff _ _).mpr hbad)]
    exact State.settled_refuse ho hq _
  case rolled =>
    rw [if_neg (mt (rollRefused_iff _ _).mp (by omega))]
    intro closing classes freed
    let t : State := { s with cfg := s.cfg.roll new }
    let days := s.works.daysToClose s.cfg.settings.closeLag new
    obtain ⟨table, hfold, htable⟩ := s.works.foldl_beginClosing days
    let ranges := s.works.retention.ranges.map fun q => if freed q then { q with owed := true } else q
    let w : Works := { s.works with
      tasks := days.flatMap s.works.closingTasks ++ (ranges.filter fun q => q.owed).map fun q => .holdStart q.lo
      days := table
      retention := { s.works.retention with
        holds := (s.works.retention.releases new).foldl endRegulatory s.works.retention.holds
        ranges := ranges
        sweep := some (s.works.retention.sweep.elim (.start new s.cfg.pendingPolicies) fun v => { v with again := true }) }
      port := s.works.port.answered r .done none (.rolled new days.length) }
    have hsettles : Settles (t.settled ((s.works.roll t.ctx days).done r.id (.rolled new days.length))) t w := by
      have hroll : s.works.roll t.ctx days = { w with port := s.works.port } := by
        have hquiet : s.works.tasks = [] := hq
        change (((days.foldl (fun w d => w.beginClosing d) s.works).autoRelease new).startSweep t.ctx).2 = _
        rw [Works.startSweep_eq, hfold, Works.autoRelease_eq, hquiet]
        rfl
      rw [hroll, Works.done, State.offers_reply ho]
      case hport => rfl
      rfl
    have hmem : ∀ d, d ∈ days ↔ ∃ p ∈ closing, p.1 = d := fun d => by simp [days, closing, Works.daysToClose]
    have hdue : ∀ a, a ∈ s.works.retention.releases new ↔ ∃ p ∈ s.works.retention.holds, p.1 = a ∧ p.2.expired new = true := fun a => by
      simp [Retention.releases, and_comm]
    refine ⟨w, ?_, rfl, ?_, fun d hd => ?_, fun d e he hd => ?_, fun a ha => ?_, fun a e he hexp => ?_, rfl, rfl, ?_, fun hnone => ?_,
      fun v hv => ?_⟩
    · exact hsettles
    · simp only [w, days, closing, Works.daysToClose, List.length_map]
    · exact (htable d).trans (if_neg fun h => by
        obtain ⟨p, hp, rfl⟩ := (hmem d).mp h
        exact hd p hp rfl)
    · rw [Works.day, htable d, if_pos ((hmem d).mpr hd), he]
      rfl
    · exact (tblGet_foldl_endRegulatory _ _ a).trans (if_neg fun h => by
        obtain ⟨p, hp, hpa, hexp⟩ := (hdue a).mp h
        simp [ha p hp hpa] at hexp)
    · rw [show tblGet a w.retention.holds = _ from tblGet_foldl_endRegulatory _ _ a,
        if_pos ((hdue a).mpr ⟨(a, e), mem_of_tblGet he, rfl, hexp⟩), he]
      rfl
    · simp only [w, days, Works.daysToClose, List.flatMap_map]
      rfl
    · simp only [w, hnone]
      rfl
    · simp only [w, hv]
      rfl

end Sys2Proof.Machine
end

section
/-!
SUPPORT. The Enquiry Unit's cursors and their limits (R113, R114, R118, R121, R122), and the lookups (R123).
-/

namespace Sys2Proof.Machine

/-! ## READ CURSOR (R114) -/

section
variable {w : Works} {r : Req} {number generation n : Nat} {mode : ReadMode}

/-- The ranges that a READ CURSOR's fields and buffer are tested for. -/
def readFits (r : Req) (number n : Nat) (mode : ReadMode) : Prop :=
  number ≤ 15 ∧ (mode.peeks = true ∨ (1 ≤ n ∧ n ≤ 256)) ∧ r.addr ≠ 0 ∧ (if mode.peeks then 64 else 64 * n) ≤ r.length

theorem readFits_iff : readFits r number n mode ↔
    ¬(15 < number ∨ ((!mode.peeks) = true ∧ (!within 1 n 256) = true) ∨ (!r.holds (if mode.peeks then 64 else 64 * n)) = true) := by
  simp only [readFits, not_or, not_and, not_lt, Bool.not_eq_true', Bool.not_eq_false, Req.holds_iff, within, Bool.and_eq_true,
    decide_eq_true_eq]
  refine and_congr_right fun _ => and_congr_left fun _ => ?_
  cases mode.peeks <;> simp

theorem Works.readCursor_malformed (h : ¬ readFits r number n mode) :
    w.readCursor r number generation mode n = w.refuse r.id .malformed :=
  if_pos (not_not.mp (mt readFits_iff.mpr h))

theorem Works.readCursor_state (h : readFits r number n mode)
    (hc : (w.cursor number).opened = false ∨ (w.cursor number).generation ≠ generation) :
    w.readCursor r number generation mode n = w.refuse r.id .state := by
  have hhandle : (!w.handle number generation) = true := by
    rcases hc with hc | hc <;> simp [Works.handle, hc]
  exact (if_neg (readFits_iff.mp h)).trans (if_pos hhandle)

variable (h : readFits r number n mode) (hopen : (w.cursor number).opened = true) (hgen : (w.cursor number).generation = generation)
include h hopen hgen

theorem Works.readCursor_busy (hread : (w.cursor number).reading.isSome) :
    w.readCursor r number generation mode n = w.refuse r.id .busy := by
  have hhandle : ¬(!w.handle number generation) = true := by simp [Works.handle, hopen, hgen]
  exact (if_neg (readFits_iff.mp h)).trans ((if_neg hhandle).trans (if_pos hread))

theorem Works.readCursor_taken (hread : (w.cursor number).reading = none) :
    w.readCursor r number generation mode n = (w.setCursor number ((w.cursor number).beginRead r.id mode n)).take r.id := by
  have hhandle : ¬(!w.handle number generation) = true := by simp [Works.handle, hopen, hgen]
  exact (if_neg (readFits_iff.mp h)).trans ((if_neg hhandle).trans (if_neg (by simp [hread])))

end

/-- Settles O44: the four commands differ in the mode alone. -/
theorem readCursorIsTakenInItsMode : Obligations.ReadCursorIsTakenInItsMode := by
  intro ch s r number generation code n k ho hr hq
  refine ⟨fun hcode => ?_, fun command mode hmode => ?taken⟩
  · have hexec : exec (.forward ch) s = s.settled (s.works.refuse r.id .malformed) :=
      State.serve_some s ch .enquiry _ r _ ho.1 (by simp only [hr, if_neg (show ¬code = 0 by omega), if_pos hcode])
    rw [hexec]
    exact State.settled_refuse ho hq _
  case taken =>
    intro c fits
    have hcommand : exec command s = s.settled (s.works.readCursor r number generation mode n) ∧ (mode.peeks = true ↔ code = 3) ∧
        c.beginRead r.id mode n = { c with
          reading := some
            { req := r.id, mode := mode, n := n, used := 0, images := [], failed := [], gaps := [],
              search := ⟨c.position, decide ((code = 2 ∧ c.meetsBack = false) ∨ (code = 3 ∧ k < 0))⟩,
              skip := decide (code = 1), advancing := false, heldPlace := none, wait := .none } } := by
      rcases hmode with ⟨rfl, rfl, rfl⟩ | ⟨rfl, rfl, rfl⟩ | ⟨rfl, rfl, rfl⟩ | ⟨rfl, rfl, rfl⟩
      · exact ⟨State.serve_some s ch .enquiry _ r _ ho.1 (by simp [hr]), by simp [ReadMode.peeks], by simp [Cursor.beginRead]⟩
      · exact ⟨State.serve_some s ch .enquiry _ r _ ho.1 (by simp [hr]), by simp [ReadMode.peeks], by simp [Cursor.beginRead]⟩
      · exact ⟨State.serve_some s ch .enquiry _ r _ ho.1 (by simp [hr]), by simp [ReadMode.peeks], by
          cases hback : c.meetsBack <;> simp [Cursor.beginRead, hback]⟩
      · exact ⟨State.serve_some s ch .enquiry _ r _ ho.1 (by simp [hr]), by simp [ReadMode.peeks], by simp [Cursor.beginRead]⟩
    obtain ⟨hexec, hpeeks, hbegin⟩ := hcommand
    have hfits : fits ↔ readFits r number n mode := by
      simp only [fits, readFits, hpeeks]
    rw [hexec, hfits]
    refine ⟨fun hbad => ?_, fun hok hc => ?_, fun hok hopen hgen hread => ?_, fun hok hopen hgen hread => ?_⟩
    · rw [Works.readCursor_malformed hbad]
      exact State.settled_refuse ho hq _
    · rw [Works.readCursor_state hok hc]
      exact State.settled_refuse ho hq _
    · rw [Works.readCursor_busy hok hopen hgen hread]
      exact State.settled_refuse ho hq _
    · rw [Works.readCursor_taken hok hopen hgen hread, State.settled_take]
      case hport => rfl
      case htasks => exact hq
      exact congrArg (fun c : Cursor => Host.Outcome.next { s with
        works := { s.works.setCursor number c with port := s.works.port.taken r } }) hbegin

/-! ## Cursors freed (R121, R122) -/

/-- What a prefetch dropped leaves of the Array Controller: a READY image is unpinned. -/
theorem Works.dropPrefetch_array (w : Works) (n : Nat) :
    (∀ t pin since, (w.cursor n).prefetch = .ready t pin since → (w.dropPrefetch n).array = (w.unpin pin).array) ∧
      ((∀ t pin since, (w.cursor n).prefetch ≠ .ready t pin since) → (w.dropPrefetch n).array = w.array) := by
  unfold Works.dropPrefetch
  refine ⟨fun t pin since h => ?_, fun h => ?_⟩
  · simp only [h]
    rfl
  · dsimp only
    split
    · next heq => exact absurd heq (h _ _ _)
    · rfl

/-- A cursor freed: FREE with its generation, its READY image unpinned. -/
theorem Works.freeCursor_frees (w : Works) (n : Nat) :
    (w.freeCursor n).enquiry = { w.enquiry with
      cursors := w.enquiry.cursors.set n { Cursor.free with generation := (w.cursor n).generation } } ∧
    (∀ t pin since, (w.cursor n).prefetch = .ready t pin since → (w.freeCursor n).array = (w.unpin pin).array) ∧
    ((∀ t pin since, (w.cursor n).prefetch ≠ .ready t pin since) → (w.freeCursor n).array = w.array) := by
  obtain ⟨hready, hnone⟩ := w.dropPrefetch_array n
  have harray : (w.freeCursor n).array = (w.dropPrefetch n).array := rfl
  exact ⟨congrArg Works.enquiry (w.freeCursor_eq n), fun t pin since h => harray.trans (hready t pin since h),
    fun h => harray.trans (hnone h)⟩

theorem Works.freeCursor_frame (w : Works) (n : Nat) :
    w.freeCursor n = { w with enquiry := (w.freeCursor n).enquiry, array := (w.freeCursor n).array } := by
  rw [Works.freeCursor_eq]

/-- Settles O43: both commands free a cursor in one way. -/
theorem closedAndIdleCursorsAreFree : Obligations.ClosedAndIdleCursorsAreFree := by
  intro s hq free
  have hfree : ∀ n w, w.enquiry = (s.works.freeCursor n).enquiry → w.array = (s.works.freeCursor n).array → free n w := by
    intro n w henq harr
    obtain ⟨h₁, h₂, h₃⟩ := s.works.freeCursor_frees n
    exact ⟨henq.trans h₁, fun t pin since h => harr.trans (h₂ t pin since h), fun h => harr.trans (h₃ h)⟩
  refine ⟨fun ch r n generation ho hr => ?_, fun n => ⟨fun hidle => ?_, fun hopen hread => ?_⟩⟩
  · have hexec : exec (.closeCursor ch) s = s.settled (s.works.closeCursor r n generation) :=
      State.serve_some s ch .enquiry _ r _ ho.1 (by simp only [hr])
    have hrefuse : ∀ reason, s.works.closeCursor r n generation = s.works.refuse r.id reason →
        exec (.closeCursor ch) s = .next (s.refusing r reason) := fun reason h => by
      rw [hexec, h]
      exact State.settled_refuse ho hq reason
    refine ⟨fun hn => hrefuse _ (if_pos hn), fun hn hc => ?_, fun hn hopen hgen => ⟨fun hread => ?_, fun hread => ?_⟩⟩
    · have hhandle : (!s.works.handle n generation) = true := by
        rcases hc with hc | hc <;> simp [Works.handle, hc]
      exact hrefuse _ ((if_neg (not_lt.mpr hn)).trans (if_pos hhandle))
    all_goals have hhandle : ¬(!s.works.handle n generation) = true := by simp [Works.handle, hopen, hgen]
    · exact hrefuse _ ((if_neg (not_lt.mpr hn)).trans ((if_neg hhandle).trans (if_pos hread)))
    · have hclose : s.works.closeCursor r n generation = (s.works.freeCursor n).done r.id .empty :=
        (if_neg (not_lt.mpr hn)).trans ((if_neg hhandle).trans (if_neg (by simp [hread])))
      refine ⟨{ s.works.freeCursor n with port := s.works.port.answered r .done none .empty }, ?_, hfree n _ rfl rfl, ?_⟩
      · rw [hexec, hclose, State.settled_done ho]
        case hport => exact (congrArg Works.port (s.works.freeCursor_eq n)).trans rfl
        case htasks => exact (congrArg Works.tasks (s.works.freeCursor_eq n)).trans hq
      · rw [Works.freeCursor_eq]
  · have hnone : (s.works.cursor n.val).idleAt s.ctx = none := by
      refine if_neg ?_
      rcases hidle with h | h
      · simp [h]
      · simp [Option.isSome_iff_ne_none.mp h]
    change execIdleExpiry n s = _
    rw [execIdleExpiry, hnone]
  · have hat : (s.works.cursor n.val).idleAt s.ctx = some ((s.works.cursor n.val).lastUse + 1000 * s.cfg.settings.idle) :=
      if_pos ⟨hopen, by simp [hread]⟩
    refine ⟨s.works.freeCursor n.val, ?_, hfree n.val _ rfl rfl, Works.freeCursor_frame _ _⟩
    change execIdleExpiry n s = _
    rw [execIdleExpiry, hat]
    exact State.settled_quiet _ _ ((congrArg Works.tasks (s.works.freeCursor_eq n.val)).trans hq)

end Sys2Proof.Machine
end

section
/-!
SUPPORT. Reads asked of the Array Controller (R100), the waits of reads and lookups at their limits (R118, R121, R123), OPEN CURSOR (R113)
and the steps of a lookup (R123).
-/

namespace Sys2Proof.Machine

/-! ## Reads asked (R100) -/

/-- An image entered in the sheet cache changes the cache alone. -/
theorem Works.enterCache_frame (w : Works) (a : SlotAddr) (image : Bytes) :
    ∃ serial cache, (w.enterCache a image).2 = { w with serial := serial, array := { w.array with cache := cache } } := by
  unfold Works.enterCache
  split
  · split <;> exact ⟨_, _, rfl⟩
  · exact ⟨_, _, rfl⟩

/-- An image served to a requester is answered as a consequence, and may be pinned. -/
theorem Works.serve_frame (w : Works) (who : Requester) (id : Nat) (image : Bytes) :
    ∃ tasks cache, w.serve who id image = { w with tasks := tasks, array := { w.array with cache := cache } } := by
  unfold Works.serve
  split <;> exact ⟨_, _, rfl⟩

/-- A read asked changes the Array Controller, and leaves consequences. -/
theorem Works.askRead_frame (w : Works) (a : SlotAddr) (who : Requester) :
    ∃ tasks serial array, w.askRead a who = { w with tasks := tasks, serial := serial, array := array } := by
  have hserved : ∀ (image : Bytes) (id : Nat),
      ∃ tasks serial array, (w.enterCache a image).2.serve who id image = { w with tasks := tasks, serial := serial, array := array } := by
    intro image id
    obtain ⟨serial, cache, henter⟩ := w.enterCache_frame a image
    obtain ⟨tasks, cache', hserve⟩ := (w.enterCache a image).2.serve_frame who id image
    exact ⟨tasks, serial, { w.array with cache := cache' }, by rw [hserve, henter]⟩
  unfold Works.askRead
  dsimp only
  split
  · split
    · exact hserved _ _
    · exact ⟨_, _, _, rfl⟩
  · split
    · exact hserved _ _
    · split
      · exact ⟨_, _, _, rfl⟩
      · split <;> exact ⟨_, _, _, rfl⟩

/-! ## A read's end (R119, R120) -/

theorem Works.cursor_set_self (w : Works) (n : Nat) : w.enquiry.cursors.set n (w.cursor n) = w.enquiry.cursors := by
  by_cases h : n < w.enquiry.cursors.length
  · simp [Works.cursor, List.getElem?_eq_getElem h]
  · exact List.set_eq_of_length_le (Nat.le_of_not_lt h)

/-- A cursor set stands under its number, in a table that has it. -/
theorem Works.cursor_setCursor {w : Works} {n : Nat} (h : n < w.enquiry.cursors.length) (c : Cursor) : (w.setCursor n c).cursor n = c := by
  simp [Works.cursor, Works.setCursor, h]

/-- A prefetch started anew changes its cursor's prefetch, and the Array Controller. -/
theorem Works.prefetch_frame (x : Ctx) {w : Works} {n : Nat} (h : n < w.enquiry.cursors.length) (rd : Reading) :
    ∃ tasks serial array p, w.prefetch x n rd = { w with
      tasks := tasks, serial := serial, array := array
      enquiry := { w.enquiry with cursors := w.enquiry.cursors.set n { w.cursor n with prefetch := p } } } := by
  unfold Works.prefetch
  dsimp only
  split
  · exact ⟨_, _, _, _, w.dropPrefetch_eq n⟩
  · next t slot _ =>
    split
    · exact ⟨_, _, _, (w.cursor n).prefetch, by
        rw [show ({ w.cursor n with prefetch := (w.cursor n).prefetch } : Cursor) = w.cursor n from rfl, w.cursor_set_self]⟩
    · have hlen : n < (w.dropPrefetch n).next.2.enquiry.cursors.length := by
        rw [Works.dropPrefetch_eq]
        simpa using h
      have hcursor : (w.dropPrefetch n).next.2.cursor n = { w.cursor n with prefetch := .none } := by
        rw [Works.dropPrefetch_eq]
        simp [Works.cursor, h]
      obtain ⟨tasks, serial, array, hask⟩ := Works.askRead_frame ((w.dropPrefetch n).next.2.setCursor n
        { (w.dropPrefetch n).next.2.cursor n with prefetch := .fetching t (w.dropPrefetch n).next.1 }) slot
        (.prefetch ⟨n % 16, Nat.mod_lt _ (by decide)⟩ (w.dropPrefetch n).next.1)
      refine ⟨tasks, serial, array, .fetching t (w.dropPrefetch n).next.1, hask.trans ?_⟩
      rw [hcursor, Works.dropPrefetch_eq]
      simp only [Works.setCursor, Works.next, List.set_set]

/-- A cursor whose read has ended at a position (R119). -/
def Cursor.readEnded (c : Cursor) (position : Position) (meetsBack : Bool) (clock : Nat) (p : Prefetch) : Cursor :=
  { c with position := position, meetsBack := meetsBack, reading := none, lastUse := clock, prefetch := p }

/-- The items that the end of a read reports. -/
def Reading.reported (rd : Reading) (v : Verdict) (endMark : Bool) : Nat :=
  match rd.mode with | .peek _ => if v = .done ∧ !endMark then 1 else 0 | _ => rd.used

/-- A read ended: the cursor is READING no more and stands at the position given, its request is answered, and only its prefetch and the
Array Controller may change besides. -/
theorem Works.endRead_frame (x : Ctx) {w : Works} {n : Nat} {rd : Reading} (h : n < w.enquiry.cursors.length)
    (hrd : (w.cursor n).reading = some rd) (v : Verdict) (reason : Option Reason) (position : Position) (meetsBack endMark : Bool) :
    ∃ tasks serial array p, w.endRead x n v reason position meetsBack endMark = { w with
      tasks := tasks, serial := serial, array := array
      enquiry := { w.enquiry with cursors := w.enquiry.cursors.set n ((w.cursor n).readEnded position meetsBack x.clock p) }
      port := (w.reply rd.req v reason (.read (rd.reported v endMark) position) endMark).port } := by
  let u := w.setCursor n ((w.cursor n).readEnded position meetsBack x.clock (w.cursor n).prefetch)
  let res : Result := .read (rd.reported v endMark) position
  let t := u.reply rd.req v reason res endMark
  have hreply : t = { u with port := (w.reply rd.req v reason res endMark).port } := by
    have hreq : u.req rd.req = w.req rd.req := rfl
    cases hq : w.req rd.req with
    | none => simp only [t, Works.reply, hreq, hq]; rfl
    | some q => simp only [t, Works.reply, hreq, hq]; rfl
  have hend : w.endRead x n v reason position meetsBack endMark =
      if rd.mode.peeks ∨ v = .refused then t else if endMark then t.dropPrefetch n else t.prefetch x n rd := by
    simp only [Works.endRead, hrd]
    rfl
  have hlen : n < t.enquiry.cursors.length := by
    rw [hreply]
    simpa [u, Works.setCursor] using h
  have hcursor : t.cursor n = (w.cursor n).readEnded position meetsBack x.clock (w.cursor n).prefetch := by
    rw [hreply]
    exact Works.cursor_setCursor h _
  have hset : ∀ p, t.enquiry.cursors.set n { t.cursor n with prefetch := p } =
      w.enquiry.cursors.set n ((w.cursor n).readEnded position meetsBack x.clock p) := by
    intro p
    rw [hcursor, hreply]
    exact List.set_set _
  rw [hend]
  split
  · exact ⟨_, _, _, (w.cursor n).prefetch, hreply⟩
  · split
    · refine ⟨t.tasks, t.serial, { t.array with cache := (t.dropPrefetch n).array.cache }, .none, (t.dropPrefetch_eq n).trans ?_⟩
      rw [hset, hreply]
      rfl
    · obtain ⟨tasks, serial, array, p, hpre⟩ := Works.prefetch_frame x hlen rd
      refine ⟨tasks, serial, array, p, hpre.trans ?_⟩
      rw [hset, hreply]
      rfl

/-! ## The limits of the waits (R118, R121, R123) -/

theorem Works.dropPrefetch_of_ready {w : Works} {n : Nat} {t : SheetRef} {pin since : Nat}
    (h : (w.cursor n).prefetch = .ready t pin since) :
    w.dropPrefetch n = { w with
      array := (w.unpin pin).array
      enquiry := { w.enquiry with cursors := w.enquiry.cursors.set n { w.cursor n with prefetch := .none } } } := by
  have harray : { w.array with cache := (w.dropPrefetch n).array.cache } = (w.unpin pin).array := by
    rw [(w.dropPrefetch_array n).1 t pin since h]
    rfl
  rw [Works.dropPrefetch_eq, harray]

/-- Settles O47: the wait's end is the read's end at the place kept, and a lookup's end is its refusal. -/
theorem enquiryWaitsEndAtTheirLimits : Obligations.EnquiryWaitsEndAtTheirLimits := by
  intro s hq
  refine ⟨fun n => ?cursor, fun req l hl => ⟨fun hno => ?_, fun id since q hw hreq hheard hroom => ?_⟩⟩
  case cursor =>
    intro c
    refine ⟨fun hno => ?_, fun rd id since q hrd hw hreq hheard hroom hlen => ?_, fun hno => ?_, fun t pin since hpre => ?_⟩
    · have hnone : (s.works.cursor n.val).waitAt s.ctx = none := by
        unfold Cursor.waitAt
        split
        · next rd hrd =>
          split
          · next id since hw => exact absurd hw (hno rd id since hrd)
          · rfl
        · rfl
      change execWaitLimit (.cursor n) s = _
      simp only [execWaitLimit, hnone]
    · have hat : (s.works.cursor n.val).waitAt s.ctx = some (since + 1000 * s.cfg.settings.idle) := by
        have hrd' : (s.works.cursor n.val).reading = some rd := hrd
        simp only [Cursor.waitAt, hrd', hw]
        rfl
      let t := s.clockTo (since + 1000 * s.cfg.settings.idle)
      let p := rd.leaves c ((rd.heldPlace.map Position.place).getD c.position)
      have hends : s.works.waitEnds t.ctx n.val =
          s.works.endRead t.ctx n.val .partly (some .busy) p (!rd.mode.peeks || c.meetsBack) false := by
        have hrd' : (s.works.cursor n.val).reading = some rd := hrd
        simp only [Works.waitEnds, hrd']
        rfl
      have hn : n.val < s.works.enquiry.cursors.length := by rw [hlen]; exact n.isLt
      obtain ⟨tasks, serial, array, pf, hframe⟩ := Works.endRead_frame t.ctx hn hrd .partly (some .busy) p
        (!rd.mode.peeks || c.meetsBack) false
      rw [Works.reply_of_heard hreq hheard hroom] at hframe
      have hcursor : ∀ cs, cs = s.works.enquiry.cursors.set n.val (c.readEnded p (!rd.mode.peeks || c.meetsBack) t.ctx.clock pf) →
          cs.getD n.val .free = c.readEnded p (!rd.mode.peeks || c.meetsBack) t.ctx.clock pf := by
        rintro cs rfl
        simp [hn]
      refine ⟨s.works.waitEnds t.ctx n.val, ?_, ?_, ?_, ?_, ?_, fun hmode place hplace => ?_, fun k hmode => ?_⟩
      · change execWaitLimit (.cursor n) s = _
        simp only [execWaitLimit, hat]
        rfl
      all_goals rw [hends, hframe]
      · exact congrArg Cursor.reading (hcursor _ rfl)
      · have hpeeks : rd.mode.peeks = false := by
          cases hm : rd.mode with
          | peek k => exact absurd hm (hmode k)
          | _ => rfl
        have hp : p = .place place := by simp [p, Reading.leaves, hpeeks, hplace]
        have hitems : rd.reported .partly false = rd.used := by
          unfold Reading.reported
          split
          · next k hm => exact absurd hm (hmode k)
          · rfl
        refine ⟨(congrArg Cursor.position (hcursor _ rfl)).trans hp, ?_⟩
        simp only [hitems, hp]
      · have hp : p = c.position := by simp [p, Reading.leaves, hmode, ReadMode.peeks]
        have hitems : rd.reported .partly false = 0 := by simp [Reading.reported, hmode]
        refine ⟨(congrArg Cursor.position (hcursor _ rfl)).trans hp, ?_⟩
        simp only [hitems, hp]
    · have hnone : (s.works.cursor n.val).holdAt s.ctx = none := by
        unfold Cursor.holdAt
        split
        · next hpre => exact absurd hpre (hno _ _ _)
        · rfl
      change execHoldWindowExpiry n s = _
      simp only [execHoldWindowExpiry, hnone]
    · have hat : (s.works.cursor n.val).holdAt s.ctx = some (since + 1000 * s.cfg.settings.hold) := by
        have hpre' : (s.works.cursor n.val).prefetch = .ready t pin since := hpre
        simp only [Cursor.holdAt, hpre']
        rfl
      change execHoldWindowExpiry n s = _
      simp only [execHoldWindowExpiry, hat]
      rw [Works.dropPrefetch_of_ready hpre]
      exact State.settled_quiet _ _ hq
  · have hnone : l.waitAt s.ctx = none := by
      unfold Lookup.waitAt
      split
      · next id since hw => exact absurd hw (hno id since)
      · rfl
    change execWaitLimit (.lookup req) s = _
    simp only [execWaitLimit, hl, Option.bind_some, hnone]
  · have hat : l.waitAt s.ctx = some (since + 1000 * s.cfg.settings.idle) := by
      simp only [Lookup.waitAt, hw]
      rfl
    change execWaitLimit (.lookup req) s = _
    simp only [execWaitLimit, hl, Option.bind_some, hat]
    rw [Works.lookupRefused, Works.refuseWith, Works.reply_of_heard (w := s.works.dropLookup req) hreq hheard hroom]
    exact State.settled_quiet _ _ hq

end Sys2Proof.Machine
end

section
/-!
SUPPORT. The refutation of O42: a lookup that waits for a pending entry is noted by its own identity in every lookup of its request's
number, so two lookups of one number part the model from the statement.
-/

namespace Sys2Proof.Machine

/-- A staged record of day 0, of the identity that the first of the two lookups seeks. -/
def twinRecord : Rec := ⟨1, 0, 0, 0, 0, .voice, 0, 0, none, none, none, 0, ⟨false, false, false, false⟩⟩

/-- A lookup of request 0 that waits for pending entries. -/
def twinLookup (account : Nat) : Lookup := ⟨0, ⟨0, account, 0, 0⟩, .wait, [], [], .none⟩

/-- The request of both lookups. -/
def twinRequest : Req := ⟨0, 0, 1, .lookupCall ⟨0, 1, 0, 0⟩ 0, 64, 64, 0, .taken, false⟩

/-- The units with two lookups of one request number, of the accounts 1 and 2, and a pending entry for the first one's identity. -/
def twinWorks : Works :=
  let w := State.reset.works
  { w with
    port := { w.port with reqs := [twinRequest] }
    days := [(0, .new .closed)]
    intake := { w.intake with staging := [(0, [⟨twinRecord, 0⟩])] }
    enquiry := { w.enquiry with lookups := [twinLookup 1, twinLookup 2] }
    amend := { w.amend with pending := [⟨⟨0, 1, 0, 0⟩, 0, 0, .void, 0, .zero⟩] } }

/-- The wait noted for the second lookup of one request number. -/
def Works.secondWait (w : Works) : Option EnquiryWait := (w.enquiry.lookups[1]?).map (·.wait)

/-- Refutes O42: of two lookups of one request number, the step of the first notes for the second that one's own identity, not the one
stated. -/
theorem not_cursorsOpenAndLookupsBegin : ¬ Obligations.CursorsOpenAndLookupsBegin := by
  intro h
  obtain ⟨-, hsteps⟩ := h
  have hstep := hsteps State.reset.ctx twinWorks (twinLookup 1) twinRequest (by decide) (by decide) (by decide) (by decide)
  obtain ⟨-, hlive, -⟩ := hstep
  obtain ⟨-, -, hheld⟩ := hlive (by decide)
  obtain ⟨hstaged, -, -⟩ := hheld (by decide) (by decide)
  obtain ⟨-, -, hwait⟩ := hstaged twinRecord (by decide)
  have hsecond := congrArg Works.secondWait (hwait ⟨_, List.mem_singleton_self _, by decide⟩ (by decide))
  exact absurd hsecond (by decide)

end Sys2Proof.Machine
end

section
/-!
SUPPORT. An index entry changed and found again (R42 to R44), the audit's taking of entries and its statement (R159 to R163), and the scrub
walk (R164, R165).
-/

namespace Sys2Proof.Machine

/-! ## Entries changed and found (R42) -/

/-- A change that a search cannot see: the element found is the one found before, changed. -/
theorem find?_updateWhere {α : Type} {p q : α → Bool} {f : α → α} (h : ∀ a, p (f a) = p a) (l : List α) :
    (updateWhere q f l).find? p = (l.find? p).map fun a => if q a then f a else a := by
  have hp : ∀ a, p (if q a then f a else a) = p a := fun a => by
    split
    · exact h a
    · rfl
  simp only [updateWhere, List.find?_map, Function.comp_def, hp]

theorem DayEntry.entry_mapEntry (e : DayEntry) (cls : Nat) (first : Key) {f : Entry → Entry} (hf : ∀ s, (f s).first = s.first) :
    (e.mapEntry cls first f).entry cls first = (e.entry cls first).map f := by
  have hrun : (e.mapEntry cls first f).run cls = (e.run cls).map fun r =>
      if decide (r.cls = cls) then { r with entries := updateWhere (fun s => decide (s.first = first)) f r.entries } else r :=
    find?_updateWhere (f := fun r : Run => { r with entries := updateWhere (fun s => decide (s.first = first)) f r.entries })
      (fun _ => rfl) e.runs
  unfold DayEntry.entry DayEntry.runEntries
  rw [hrun]
  cases h : e.run cls with
  | none => rfl
  | some r =>
    have hcls : r.cls = cls := by simpa [DayEntry.run] using List.find?_some h
    simp only [Option.map_some, Option.getD_some, hcls, decide_true, if_true]
    rw [find?_updateWhere fun s => by rw [hf]]
    cases hs : r.entries.find? fun s => decide (s.first = first) with
    | none => rfl
    | some s =>
      have hfirst : s.first = first := by simpa using List.find?_some hs
      simp [hfirst]

theorem Works.liveDay_mapDay (w : Works) (d : Nat) {f : DayEntry → DayEntry} (hf : ∀ e, (f e).going = e.going) :
    (w.mapDay d f).liveDay d = (w.liveDay d).map f := by
  simp only [Works.liveDay, Works.day, Works.mapDay_days, tblGet_modify, if_true, Option.filter_map, Function.comp_def, hf]

/-- An entry changed, found under its day, class and first key again. -/
theorem Works.entryAt_mapEntry (w : Works) (d cls : Nat) (first : Key) {f : Entry → Entry} (hf : ∀ s, (f s).first = s.first) :
    (w.mapEntry d cls first f).entryAt d cls first = (w.entryAt d cls first).map f := by
  unfold Works.mapEntry Works.entryAt
  rw [Works.liveDay_mapDay]
  case hf => exact fun _ => rfl
  cases w.liveDay d with
  | none => rfl
  | some e => simp only [Option.map_some, Option.bind_some, DayEntry.entry_mapEntry e cls first hf]

/-- An entry found under a first key has that first key. -/
theorem Works.first_of_entryAt {w : Works} {d cls : Nat} {first : Key} {e : Entry} (h : w.entryAt d cls first = some e) :
    e.first = first := by
  obtain ⟨de, -, he⟩ := Option.bind_eq_some_iff.mp h
  simpa [DayEntry.entry] using List.find?_some he

theorem Works.current_of_entryAt {w : Works} {r : SheetRef} {e : Entry} (h : w.entryAt r.day r.cls r.first = some e)
    (hg : e.group = r.group) : w.current r = some e := by
  simp [Works.current, h, Option.filter, hg]

theorem Works.entryAt_of_current {w : Works} {r : SheetRef} {e : Entry} (h : w.current r = some e) :
    w.entryAt r.day r.cls r.first = some e := (Option.filter_eq_some_iff.mp h).1

/-! ## AUDIT DAY (R159) -/

theorem Works.liveDay_eq_none {w : Works} {d : Nat} (h : ∀ e, tblGet d w.days = some e → e.going = true) : w.liveDay d = none := by
  cases hd : tblGet d w.days with
  | none => simp [Works.liveDay, Works.day, hd]
  | some e => simp [Works.liveDay, Works.day, hd, h e hd]

theorem Works.liveDay_eq_some {w : Works} {d : Nat} {e : DayEntry} (h : tblGet d w.days = some e) (hgoing : e.going = false) :
    w.liveDay d = some e := by
  simp [Works.liveDay, Works.day, h, hgoing]

/-- Settles O54: the tests in their order, and the audit as it begins. -/
theorem auditDayMarksTheDayUnderAudit : Obligations.AuditDayMarksTheDayUnderAudit := by
  intro ch s r d ho hr hq fits
  have hexec : exec (.auditDay ch) s = s.settled (s.works.auditDay r d) :=
    State.serve_some s ch .audit _ r _ ho.1 (by simp only [hr])
  rw [hexec]
  have hrefuse : ∀ reason, s.works.auditDay r d = s.works.refuse r.id reason →
      s.settled (s.works.auditDay r d) = .next (s.refusing r reason) := fun reason h => h ▸ State.settled_refuse ho hq reason
  have hfits : fits ↔ ¬(Config.maxDay < d ∨ (!r.holds 1328) = true) := by
    simp only [fits, not_or, not_lt, Bool.not_eq_true', Bool.not_eq_false, Req.holds_iff]
    rfl
  refine ⟨fun hbad => hrefuse _ (if_pos (not_not.mp (mt hfits.mpr hbad))), fun hok hbusy => ?_, fun hok hnone hgone => ?_,
    fun hok hnone e he hgoing => ?_⟩
  · exact hrefuse _ ((if_neg (hfits.mp hok)).trans (if_pos hbusy))
  · exact hrefuse _ ((if_neg (hfits.mp hok)).trans ((if_neg (by simp [hnone])).trans (by rw [Works.liveDay_eq_none hgone])))
  · unfold Works.auditDay
    rw [if_neg (hfits.mp hok), if_neg (by simp [hnone]), Works.liveDay_eq_some he hgoing]
    exact State.settled_take rfl hq

/-! ## Quarantine (R44) -/

theorem Works.quarantineNotice_eq (x : Ctx) (w : Works) (d cls : Nat) (first : Key) :
    w.quarantineNotice x d cls first = { w with port := w.port.noticed x .quarantined (.sheet d cls first) } :=
  w.notice_eq x _ _

/-- A quarantine asked changes the entry and may raise its notice. -/
theorem Works.quarantine_frame (x : Ctx) (w : Works) (r : SheetRef) :
    ∃ days port, w.quarantine x r = { w with days := days, port := port } := by
  unfold Works.quarantine
  split
  · exact ⟨_, _, rfl⟩
  · split
    · exact ⟨_, _, rfl⟩
    · split
      · rw [Works.quarantineNotice_eq]
        exact ⟨_, _, rfl⟩
      · exact ⟨_, _, rfl⟩

/-- A quarantine asked for an entry that the index still names: at once, or at the release of its busy mark. -/
theorem Works.quarantine_entryAt {x : Ctx} {w : Works} {r : SheetRef} {e : Entry} (h : w.current r = some e) :
    (w.quarantine x r).entryAt r.day r.cls r.first = some
      (if e.quarantined then e else if e.busy = none then { e with quarantined := true } else { e with quarantineAsked := true }) := by
  have hentry := Works.entryAt_of_current h
  by_cases hquar : e.quarantined = true
  · simp only [Works.quarantine, h, hquar, if_true, hentry]
  · by_cases hbusy : e.busy = none
    · simp only [Works.quarantine, h, hquar, hbusy, Bool.false_eq_true, if_true, if_false, Works.quarantineNotice_eq]
      exact (w.entryAt_mapEntry r.day r.cls r.first (f := fun e => { e with quarantined := true }) fun _ => rfl).trans
        (by simp [hentry, hbusy])
    · simp only [Works.quarantine, h, hquar, hbusy, Bool.false_eq_true, if_false]
      exact (w.entryAt_mapEntry r.day r.cls r.first (f := fun e => { e with quarantineAsked := true }) fun _ => rfl).trans
        (by simp [hentry, hquar])

/-! ## The checks of a sheet (R161) -/

theorem repeats_eq_false_iff (l : List Rec) : repeats l = false ↔ (l.map Rec.identity).Nodup := by
  induction l with
  | nil => simp [repeats]
  | cons r l ih => simp [repeats, ih]

/-- What a sheet's header and its keys are checked for. -/
def sheetHeaderOk (d cls : Nat) (e : Entry) (h : Header) (recs : List Rec) : Prop :=
  h.day = d ∧ h.cls = cls ∧ h.group = e.group ∧ (h.count : Int) = e.totals.count ∧ h.bodyLen = e.bodyLen ∧
    recs.head?.map Rec.key = some e.first ∧ recs.getLast?.map Rec.key = some e.last

section
variable {d cls : Nat} {e : Entry} {b : Bytes} {others : List Identity}

theorem sheetFinding_of_other (h : ∀ h recs, readSheet b ≠ some (.data h recs)) : sheetFinding d cls e b others = some .header := by
  unfold sheetFinding
  split
  · next heq => exact absurd heq (h _ _)
  · rfl

variable {h : Header} {recs : List Rec} (hread : readSheet b = some (.data h recs))
include hread

theorem sheetFinding_header (hbad : ¬ sheetHeaderOk d cls e h recs) : sheetFinding d cls e b others = some .header := by
  simp only [sheetFinding, hread]
  by_cases h₁ : h.day ≠ d ∨ h.cls ≠ cls ∨ h.group ≠ e.group
  · rw [if_pos h₁]
  · by_cases h₂ : (h.count : Int) ≠ e.totals.count ∨ h.bodyLen ≠ e.bodyLen
    · rw [if_neg h₁, if_pos h₂]
    · have h₃ : (recs.head?).map (·.key) ≠ some e.first ∨ (recs.getLast?).map (·.key) ≠ some e.last := by
        unfold sheetHeaderOk at hbad
        tauto
      rw [if_neg h₁, if_neg h₂, if_pos h₃]

/-- The later checks of a sheet whose header and keys agree. -/
theorem sheetFinding_of_header (hok : sheetHeaderOk d cls e h recs) :
    sheetFinding d cls e b others = if recTotals recs ≠ e.totals then some .totals
      else if (recs.map Rec.identity).Nodup ∧ ∀ i ∈ recs.map Rec.identity, i ∉ others then none else some .identity := by
  obtain ⟨h₁, h₂, h₃, h₄, h₅, h₆, h₇⟩ := hok
  have hany : recs.any (fun r => others.contains r.identity) = true ↔ ¬∀ i ∈ recs.map Rec.identity, i ∉ others := by simp
  have hrep := repeats_eq_false_iff recs
  simp only [sheetFinding, hread]
  rw [if_neg (by simp [h₁, h₂, h₃]), if_neg (by simp [h₄, h₅]), if_neg (not_or.mpr ⟨not_not.mpr h₆, not_not.mpr h₇⟩)]
  by_cases ht : recTotals recs ≠ e.totals
  · rw [if_pos ht, if_pos ht]
  · rw [if_neg ht, if_neg ht]
    cases hr : repeats recs with
    | true =>
      rw [if_pos rfl, if_neg fun hf => by simp [hrep.mpr hf.1] at hr]
    | false =>
      rw [if_neg Bool.false_ne_true]
      by_cases ha : recs.any (fun r => others.contains r.identity) = true
      · rw [if_pos ha, if_neg fun hf => hany.mp ha hf.2]
      · rw [if_neg ha, if_pos ⟨hrep.mp hr, not_not.mp (mt hany.mpr ha)⟩]

end

theorem sheetFinding_eq_none_iff {d cls : Nat} {e : Entry} {b : Bytes} {others : List Identity} :
    sheetFinding d cls e b others = none ↔ ∃ h recs, readSheet b = some (.data h recs) ∧ sheetHeaderOk d cls e h recs ∧
      recTotals recs = e.totals ∧ (recs.map Rec.identity).Nodup ∧ ∀ i ∈ recs.map Rec.identity, i ∉ others := by
  constructor
  · intro hnone
    by_cases hdata : ∃ h recs, readSheet b = some (.data h recs)
    · obtain ⟨h, recs, hread⟩ := hdata
      by_cases hok : sheetHeaderOk d cls e h recs
      · rw [sheetFinding_of_header hread hok] at hnone
        by_cases ht : recTotals recs ≠ e.totals
        · rw [if_pos ht] at hnone
          cases hnone
        · rw [if_neg ht] at hnone
          by_cases hfresh : (recs.map Rec.identity).Nodup ∧ ∀ i ∈ recs.map Rec.identity, i ∉ others
          · exact ⟨h, recs, hread, hok, not_not.mp ht, hfresh⟩
          · rw [if_neg hfresh] at hnone
            cases hnone
      · rw [sheetFinding_header hread hok] at hnone
        cases hnone
    · rw [sheetFinding_of_other fun h recs hread => hdata ⟨h, recs, hread⟩] at hnone
      cases hnone
  · rintro ⟨h, recs, hread, hok, ht, hfresh⟩
    rw [sheetFinding_of_header hread hok, if_neg (not_not.mpr ht), if_pos hfresh]

/-! ## The scrub walk (R164) -/

theorem Works.scrubs_iff (w : Works) (p : Nat × Nat × Entry) :
    w.scrubs p = true ↔ p.2.2.quarantined = false ∧ p.2.2.busy = none ∧
      (∀ e, tblGet p.1 w.days = some e → e.underAudit = false) ∧ (w.chan p.2.2.slot.ch).online = true := by
  have hday : (!((w.day p.1).any (·.underAudit))) = true ↔ ∀ e, tblGet p.1 w.days = some e → e.underAudit = false := by
    unfold Works.day
    cases tblGet p.1 w.days with
    | none => simp
    | some e => simp
  simp only [Works.scrubs, Bool.and_eq_true, hday, Bool.not_eq_true', Option.isNone_iff_eq_none, and_assoc]

theorem Scrub.before_iff (s : Scrub) (p : Nat × Nat × Entry) :
    s.before p = true ↔ ∀ q, s.position = some q →
      q.1 < p.1 ∨ (q.1 = p.1 ∧ (q.2.1 < p.2.1 ∨ (q.2.1 = p.2.1 ∧ q.2.2.lt p.2.2.first = true))) := by
  unfold Scrub.before
  cases s.position with
  | none => simp
  | some q => simp [decide_eq_true_eq]

/-- The first element of a list that a test takes. -/
theorem find?_append_cons {α : Type} {f : α → Bool} {before behind : List α} {p : α} (hp : f p = true) (h : ∀ q ∈ before, ¬ f q = true) :
    (before ++ p :: behind).find? f = some p :=
  List.find?_eq_some_iff_append.mpr ⟨hp, before, behind, rfl, fun q hq => by simpa using h q hq⟩

@[simp] theorem Works.mapScrub_current (w : Works) (f : Scrub → Scrub) (r : SheetRef) : (w.mapScrub f).current r = w.current r := rfl

/-- The scrub walk with its read ended. -/
def Works.scrubEnded (w : Works) : Works := w.mapScrub fun s => { s with outstanding := none }

theorem Works.scrubAnswer_lost {x : Ctx} {w : Works} {r : SheetRef} {slot : SlotAddr} {a : ReadAnswer}
    (hout : w.scrub.outstanding = some (r, slot)) (h : (w.current r).filter (fun e => decide (e.slot = slot)) = none) :
    w.scrubAnswer x a = w.scrubEnded := by
  simp only [Works.scrubAnswer, hout, Works.mapScrub_current, h]
  rfl

/-- What the answer to a scrub read does once its entry still stands in the slot read (R165). -/
def Works.scrubJudged (x : Ctx) (w : Works) (r : SheetRef) (e : Entry) : ReadAnswer → Works
  | .media _ => w
  | .gone => w
  | .failed => w.mapScrub fun s => { s with scrubbed := s.scrubbed + 1, failures := s.failures + 1 }
  | .image b _ =>
    if e.quarantined then w
    else if sheetFinding r.day r.cls e b [] = none then w.mapScrub fun s => { s with scrubbed := s.scrubbed + 1 }
    else (w.mapScrub fun s => { s with scrubbed := s.scrubbed + 1, failures := s.failures + 1 }).quarantine x r

theorem Works.scrubAnswer_found {x : Ctx} {w : Works} {r : SheetRef} {slot : SlotAddr} {a : ReadAnswer} {e : Entry}
    (hout : w.scrub.outstanding = some (r, slot)) (h : (w.current r).filter (fun e => decide (e.slot = slot)) = some e) :
    w.scrubAnswer x a = w.scrubEnded.scrubJudged x r e a := by
  simp only [Works.scrubAnswer, hout, Works.mapScrub_current, h]
  cases a with
  | image b pin =>
    simp only [Works.scrubJudged]
    cases sheetFinding r.day r.cls e b [] <;> rfl
  | failed => rfl
  | media mc => rfl
  | gone => rfl

/-- Settles O56: an expiry takes the first entry that the two tests leave; the answer counts or quarantines. -/
theorem scrubTimerTakesTheNextEntry : Obligations.ScrubTimerTakesTheNextEntry := by
  refine ⟨fun s hq => ⟨fun hidle => if_pos hidle, fun hrun hint => ?expiry⟩, fun x w r slot a hout => ?answer⟩
  case expiry =>
    intro now t scrub works takes after taken
    have htakes : ∀ p, s.works.scrubs p = true ↔ takes p := s.works.scrubs_iff
    have hafter : ∀ p, scrub.before p = true ↔ after p := scrub.before_iff
    have hexec : exec .scrubTimerExpiry s = t.settled (s.works.scrubExpiry now) :=
      if_neg (by simp only [hrun, ne_eq, not_true_eq_false, false_or]; omega)
    have hquiet : t.settled (works scrub) = .next { t with works := works scrub } := State.settled_quiet t _ hq
    refine ⟨fun hbusy => ?_, fun hfree => ⟨fun before behind p hcat hp haft hno => ?_, fun before behind p hcat hp hno hnone => ?_,
      fun hnone => ?_⟩⟩
    · rw [hexec, ← hquiet]
      exact congrArg t.settled (if_pos hbusy)
    all_goals have hnot : ¬ s.works.scrub.outstanding.isSome = true := by simp [hfree]
    · have hfind : (s.works.catalogue.filter s.works.scrubs).find? scrub.before = some p := by
        rw [List.find?_filter, hcat]
        exact find?_append_cons (by simp [(htakes p).mpr hp, (hafter p).mpr haft]) fun q hq hf => hno q hq (by
          simpa only [decide_eq_true_eq, htakes, hafter] using hf)
      have hstep : s.works.scrubExpiry now = taken scrub p := (if_neg hnot).trans (by
        change (match (s.works.catalogue.filter s.works.scrubs).find? scrub.before with | some p => _ | none => _) = _
        rw [hfind]
        rfl)
      rw [hexec, hstep]
      exact State.settled_next t _
    · have hfind : (s.works.catalogue.filter s.works.scrubs).find? scrub.before = none := by
        rw [List.find?_filter]
        exact List.find?_eq_none.mpr fun q hq hf => hnone q hq (by simpa only [decide_eq_true_eq, htakes, hafter] using hf)
      have hhead : (s.works.catalogue.filter s.works.scrubs).head? = some p := by
        rw [List.head?_filter, hcat]
        exact find?_append_cons ((htakes p).mpr hp) fun q hq hf => hno q hq ((htakes q).mp hf)
      have hstep : s.works.scrubExpiry now = taken { scrub with position := none, passes := s.works.scrub.passes + 1 } p :=
        (if_neg hnot).trans (by
          change (match (s.works.catalogue.filter s.works.scrubs).find? scrub.before with
            | some p => _
            | none => match (s.works.catalogue.filter s.works.scrubs).head? with | some p => _ | none => _) = _
          rw [hfind, hhead]
          rfl)
      rw [hexec, hstep]
      exact State.settled_next t _
    · have hnil : s.works.catalogue.filter s.works.scrubs = [] :=
        List.filter_eq_nil_iff.mpr fun q hq hf => hnone q hq ((htakes q).mp hf)
      have hstep : s.works.scrubExpiry now = works scrub := (if_neg hnot).trans (by
        change (match (s.works.catalogue.filter s.works.scrubs).find? scrub.before with
          | some p => _
          | none => match (s.works.catalogue.filter s.works.scrubs).head? with | some p => _ | none => _) = _
        rw [hnil]
        rfl)
      rw [hexec, hstep, hquiet]
  case answer =>
    intro t counted discarded
    have hrun : t = w.scrubAnswer x a := rfl
    refine ⟨fun hgone => hrun.trans (Works.scrubAnswer_lost hout ?_), fun ha => ?_, fun e he hslot => ⟨fun ha => ?_, fun b pin ha => ?image⟩⟩
    · exact Option.filter_eq_none_iff.mpr fun e he => by simpa using hgone e he
    · cases hc : (w.current r).filter fun e => decide (e.slot = slot) with
      | none => exact hrun.trans (Works.scrubAnswer_lost hout hc)
      | some e =>
        change t = _
        rw [hrun, Works.scrubAnswer_found hout hc]
        rcases ha with ⟨mc, rfl⟩ | rfl <;> rfl
    all_goals have hc : (w.current r).filter (fun e => decide (e.slot = slot)) = some e := by simp [he, hslot]
    · rw [hrun, Works.scrubAnswer_found hout hc, ha]
      rfl
    case image =>
      intro agrees
      have hagrees : sheetFinding r.day r.cls e b [] = none ↔ agrees := by
        simp only [sheetFinding_eq_none_iff, sheetHeaderOk, agrees, List.not_mem_nil, not_false_eq_true, implies_true, and_true, and_assoc]
      rw [Works.scrubAnswer_found hout hc, ha] at hrun
      refine ⟨fun hquar => hrun.trans (if_pos hquar), fun hlive hag => ?_, fun hlive hag => ?_⟩
      · exact hrun.trans ((if_neg (by simp [hlive])).trans (if_pos (hagrees.mpr hag)))
      · let u := w.scrubEnded.mapScrub fun s => { s with scrubbed := s.scrubbed + 1, failures := s.failures + 1 }
        have ht : t = u.quarantine x r := hrun.trans ((if_neg (by simp [hlive])).trans (if_neg (mt hagrees.mp hag)))
        have hcurrent : u.current r = some e := he
        have hentry := Works.quarantine_entryAt (x := x) hcurrent
        obtain ⟨days, port, hframe⟩ := u.quarantine_frame x r
        rw [← ht] at hentry hframe
        refine ⟨(congrArg Works.scrub hframe).trans rfl, hentry.trans ?_⟩
        simp [hlive]

end Sys2Proof.Machine
end

section
/-!
SUPPORT. The audit's walk (R160 to R163): an entry taken, released and checked, and the statement of its end.
-/

namespace Sys2Proof.Machine

/-! ## An entry taken (R160) -/

/-- A reference made to an entry, as the audit's record shows it (R162). -/
theorem Audit.refer_eq (a : Audit) (cls : Nat) (e : Entry) (f : Finding) :
    a.refer cls e f = if a.refs.length < 32 then { a with refs := a.refs ++ [⟨cls, e.first, e.group, e.slot, f⟩] }
      else { a with omitted := a.omitted + 1 } := rfl

section
variable {w : Works} {a : Audit} {d cls : Nat} {e : Entry} (ha : w.audit = some a)
include ha

theorem Works.auditTake_quarantined (hquar : e.quarantined = true) :
    w.auditTake d cls e =
      { w with audit := some { ({ a with wait := .none } : Audit).refer cls e .priorQuarantine with unproved := true } } := by
  unfold Works.auditTake
  rw [if_pos hquar]
  simp only [Works.mapAudit, ha]
  rfl

variable (hlive : e.quarantined = false)
include hlive

theorem Works.auditTake_offline (hoff : (w.chan e.slot.ch).online = false) :
    w.auditTake d cls e = { w with
      audit := some { ({ a with wait := .none } : Audit).refer cls e .unread with unread := a.unread + 1, unproved := true } } := by
  unfold Works.auditTake
  rw [if_neg (by simp [hlive]), if_pos (by simp [hoff])]
  simp only [Works.mapAudit, ha]
  rfl

variable (hon : (w.chan e.slot.ch).online = true)
include hon

theorem Works.auditTake_busy (hbusy : e.busy.isSome) :
    w.auditTake d cls e = { w with audit := some { a with wait := .release (e.ref d cls) } } := by
  unfold Works.auditTake
  rw [if_neg (by simp [hlive]), if_neg (by simp [hon]), if_pos hbusy]
  simp only [Works.mapAudit, ha]
  rfl

theorem Works.auditTake_free (hfree : e.busy = none) :
    w.auditTake d cls e =
      (({ w with audit := some { a with wait := .reading (e.ref d cls) } } : Works).mapEntry d cls e.first fun e =>
        { e with busy := some .audit }).askRead e.slot (.audit (e.ref d cls)) := by
  unfold Works.auditTake
  rw [if_neg (by simp [hlive]), if_neg (by simp [hon]), if_neg (by simp [hfree])]
  congr 1
  simp only [Works.claim, Works.mapAudit, Works.mapEntry, Works.mapDay, ha]
  rfl

end

/-! ## The walk -/

/-- Whether an entry of the walk's day lies after a walk position. -/
def Audit.beyond (a : Audit) (p : Nat × Entry) : Bool := a.position.all fun q =>
  decide (q.1 < p.1) || (decide (q.1 = p.1) && q.2.lt p.2.first)

theorem Audit.beyond_iff (a : Audit) (p : Nat × Entry) :
    a.beyond p = true ↔ ∀ q, a.position = some q → q.1 < p.1 ∨ (q.1 = p.1 ∧ q.2.lt p.2.first = true) := by
  unfold Audit.beyond
  cases a.position with
  | none => simp
  | some q => simp [decide_eq_true_eq]

section
variable {x : Ctx} {w : Works} {a : Audit} (ha : w.audit = some a)
include ha

theorem Works.auditWalk_idle (h : a.draining = true ∨ ∃ r, a.wait = .reading r) : w.auditWalk x = w := by
  by_cases hd : a.draining = true
  · simp only [Works.auditWalk, ha, hd, if_true]
  · obtain ⟨r, hr⟩ := h.resolve_left hd
    simp only [Works.auditWalk, ha, hd, Bool.false_eq_true, if_false, hr]

variable (hd : a.draining = false)
include hd

theorem Works.auditWalk_lost {r : SheetRef} (hr : a.wait = .release r) (hnone : w.entryAt r.day r.cls r.first = none) :
    w.auditWalk x = { w with audit := some { a with wait := .none } } := by
  simp only [Works.auditWalk, ha, hd, Bool.false_eq_true, if_false, hr, hnone, Works.mapAudit, Option.map_some]

theorem Works.auditWalk_waits {r : SheetRef} {e : Entry} (hr : a.wait = .release r) (he : w.entryAt r.day r.cls r.first = some e)
    (hbusy : e.busy.isSome) : w.auditWalk x = w := by
  simp only [Works.auditWalk, ha, hd, Bool.false_eq_true, if_false, hr, he, if_pos hbusy]

theorem Works.auditWalk_again {r : SheetRef} {e : Entry} (hr : a.wait = .release r) (he : w.entryAt r.day r.cls r.first = some e)
    (hfree : e.busy = none) : w.auditWalk x = w.auditTake r.day r.cls e := by
  simp only [Works.auditWalk, ha, hd, Bool.false_eq_true, if_false, hr, he, hfree, Option.isSome_none]

variable (hwait : a.wait = .none) {de : DayEntry} (hday : w.liveDay a.day = some de)
include hwait hday

theorem Works.auditWalk_next {p : Nat × Entry} (hp : de.walk.find? a.beyond = some p) :
    w.auditWalk x = ({ w with audit := some { a with position := some (p.1, p.2.first), met := a.met + 1 } } : Works).auditTake a.day p.1 p.2 := by
  have hp : de.walk.find? (fun p : Nat × Entry => a.position.all fun q =>
      decide (q.1 < p.1) || (decide (q.1 = p.1) && q.2.lt p.2.first)) = some p := hp
  simp only [Works.auditWalk, ha, hd, Bool.false_eq_true, if_false, hwait, hday, Option.map_some, Option.getD_some, hp, Works.mapAudit]

theorem Works.auditWalk_ends (hp : de.walk.find? a.beyond = none) : w.auditWalk x = w.auditState x a := by
  have hp : de.walk.find? (fun p : Nat × Entry => a.position.all fun q =>
      decide (q.1 < p.1) || (decide (q.1 = p.1) && q.2.lt p.2.first)) = none := hp
  simp only [Works.auditWalk, ha, hd, Bool.false_eq_true, if_false, hwait, hday, Option.map_some, Option.getD_some, hp]

end

/-! ## The statement (R163) -/

/-- The port when a request's report begins its write, or when a discarded request leaves progress without one. -/
def Port.stated (p : Port) (r : Req) (bytes : Bytes) (res : Result) : Port :=
  if r.discarded then { p with reqs := p.reqs.filter fun q => decide (q.id ≠ r.id) } else p.reporting r bytes res

theorem Works.report_stated (w : Works) (r : Req) (bytes : Bytes) (res : Result) (hr : w.req r.id = some r) :
    w.report r.id bytes res = { w with port := w.port.stated r bytes res } := by
  by_cases hd : r.discarded = true
  · simp only [Works.report, hr, hd, if_true, Port.stated, Port.leave]
  · rw [Works.report_reporting w r bytes res hr (by simpa using hd), Port.stated, if_neg hd]

/-- The end of the walk: the verdict stated, UNDER_AUDIT clear, the consequences after those before them. -/
theorem Works.auditState_eq (x : Ctx) {w : Works} {a : Audit} {d : DayEntry} {r : Req} (hday : w.day a.day = some d)
    (hr : w.req a.req = some r) :
    w.auditState x a = { w with
      tasks := w.tasks ++ [.scan, .auditCleared a.day]
      days := tblModify a.day (fun e => { e with underAudit := false }) w.days
      audit := none
      port := w.port.stated r (a.statement { d with underAudit := false } x.cfg.today (a.verdict d)) (.audited (a.verdict d)) } := by
  have hid : r.id = a.req := by simpa using List.find?_some hr
  unfold Works.auditState
  simp only [hday]
  rw [← hid]
  exact Works.report_stated _ r _ _ (by rw [hid]; exact hr)

/-! ## The release -/

/-- With no relocation a release concerns none. -/
theorem Works.relocationReleased_of_none (x : Ctx) {w : Works} (h : ∀ mc, (w.chan mc).relocation = none) (d cls : Nat) (first : Key) :
    w.relocationReleased x d cls first = w := by
  have hstep : ∀ l : List (Fin 4), l.foldl (fun w mc =>
      let freed (i : Nat) : Bool :=
        (w.entryOfSlot ⟨mc, i⟩).any (fun t => decide (t.1 = d ∧ t.2.1 = cls ∧ t.2.2.first = first)) && decide (w.walkAct mc i ≠ .later)
      match (w.chan mc).relocation with
      | none => w
      | some r =>
        if r.next < Config.extentSlots ∨ r.copy.isSome ∨ r.paused ∨ (w.chan mc).online = false then w
        else match r.revisit.find? freed with
          | some i => w.handleSlot x mc i
          | none => w) w = w := by
    intro l
    induction l with
    | nil => rfl
    | cons mc l ih => simpa only [List.foldl_cons, h mc] using ih
  exact hstep channels

/-- A revisit changes the sweep and the consequences alone. -/
theorem Works.revisit_frame (w : Works) (d c : Nat) (cause : Cause) :
    ∃ retention tasks, w.revisit d c cause = { w with retention := retention, tasks := tasks } := by
  unfold Works.revisit
  split
  · exact ⟨_, _, rfl⟩
  · split
    · exact ⟨_, _, rfl⟩
    · dsimp only
      split
      · exact ⟨_, _, rfl⟩
      · exact ⟨_, _, rfl⟩

/-- A release told, no relocation standing: the audit that waited for it takes its entry afresh. -/
theorem Works.releaseTold_auditTake {x : Ctx} {w : Works} {a : Audit} {r : SheetRef} {y : Entry} (ha : w.audit = some a)
    (hr : a.wait = .release r) (hy : w.entryAt r.day r.cls r.first = some y) (hrel : ∀ mc, (w.chan mc).relocation = none) :
    (w.runTask x (.releaseTold r.day r.cls r.first)).audit = (w.auditTake r.day r.cls y).audit ∧
      (w.runTask x (.releaseTold r.day r.cls r.first)).days = (w.auditTake r.day r.cls y).days := by
  have htake : w.auditReleased r.day r.cls r.first = w.auditTake r.day r.cls y := by
    simp only [Works.auditReleased, ha, hr, hy, and_self, if_true]
  have htask : w.runTask x (.releaseTold r.day r.cls r.first) = (w.auditTake r.day r.cls y).revisit r.day r.cls .busy := by
    simp only [Works.runTask, Works.relocationReleased_of_none x hrel, htake]
  obtain ⟨retention, tasks, h⟩ := (w.auditTake r.day r.cls y).revisit_frame r.day r.cls .busy
  rw [htask, h]
  exact ⟨rfl, rfl⟩

/-! ## The check (R161) -/

/-- The entry once its mark is released, a quarantine asked applied. -/
def Entry.freed (e : Entry) : Entry :=
  { e with busy := none, quarantined := e.quarantined || e.quarantineAsked, quarantineAsked := false }

/-- A mark released leaves the audit, sets its entry free and is told. -/
theorem Works.release_frees {x : Ctx} {w : Works} {d cls : Nat} {first : Key} {e : Entry} (he : w.entryAt d cls first = some e) :
    (w.release x d cls first).audit = w.audit ∧ .released d cls first ∈ (w.release x d cls first).tasks ∧
      (w.release x d cls first).entryAt d cls first = some e.freed := by
  have hmap := w.entryAt_mapEntry d cls first (f := Entry.freed) fun _ => rfl
  rw [he] at hmap
  simp only [Works.release, he]
  split
  · rw [Works.quarantineNotice_eq]
    exact ⟨rfl, List.mem_append_right _ (List.mem_singleton.mpr rfl), hmap⟩
  · exact ⟨rfl, List.mem_append_right _ (List.mem_singleton.mpr rfl), hmap⟩

/-- The audit's own mark released: the audit waits for nothing. -/
theorem Works.auditRelease_frees {x : Ctx} {w : Works} {a : Audit} {r : SheetRef} {e : Entry} (ha : w.audit = some a)
    (he : w.entryAt r.day r.cls r.first = some e) (hbusy : e.busy = some .audit) :
    (w.auditRelease x r).audit = some { a with wait := .none } ∧ .released r.day r.cls r.first ∈ (w.auditRelease x r).tasks ∧
      (w.auditRelease x r).entryAt r.day r.cls r.first = some e.freed := by
  have he' : (w.mapAudit fun a => { a with wait := .none }).entryAt r.day r.cls r.first = some e := he
  obtain ⟨haudit, htask, hentry⟩ := Works.release_frees (x := x) he'
  have hrel : w.auditRelease x r = (w.mapAudit fun a => { a with wait := .none }).release x r.day r.cls r.first := by
    simp only [Works.auditRelease, he', hbusy, if_true]
  rw [hrel]
  refine ⟨haudit.trans ?_, htask, hentry⟩
  simp only [Works.mapAudit, ha, Option.map_some]

section
variable {x : Ctx} {w : Works} {a : Audit} {r : SheetRef} {e : Entry} (ha : w.audit = some a) (hr : a.wait = .reading r)
  (he : w.entryAt r.day r.cls r.first = some e)
include ha hr he

theorem Works.auditAnswer_failed : w.auditAnswer x r .failed =
    ({ w with audit := some { a.refer r.cls e .readFailed with read := a.read + 1, failure := true } } : Works).auditRelease x r := by
  simp only [Works.auditAnswer, ha, hr, ne_eq, not_true_eq_false, if_false, he, Works.mapAudit, Option.map_some]

theorem Works.auditAnswer_media (mc : Fin 4) : w.auditAnswer x r (.media mc) =
    ({ w with audit := some { a.refer r.cls e .unread with unread := a.unread + 1, unproved := true } } : Works).auditRelease x r := by
  simp only [Works.auditAnswer, ha, hr, ne_eq, not_true_eq_false, if_false, he, Works.mapAudit, Option.map_some]

theorem Works.auditAnswer_passes {b : Bytes} {pin : Option Nat}
    (h : sheetFinding r.day r.cls e b (a.ids ++ w.intake.stagedIdentities r.day) = none) : w.auditAnswer x r (.image b pin) =
    ({ w with audit := some { a with
        read := a.read + 1, passed := a.passed + 1, held := a.held.add (recTotals (imageRecs b)),
        ids := a.ids ++ (imageRecs b).map Rec.identity } } : Works).auditRelease x r := by
  simp only [Works.auditAnswer, ha, hr, ne_eq, not_true_eq_false, if_false, he, h, Works.mapAudit, Option.map_some]

theorem Works.auditAnswer_fails {b : Bytes} {pin : Option Nat} {f : Finding}
    (h : sheetFinding r.day r.cls e b (a.ids ++ w.intake.stagedIdentities r.day) = some f) : w.auditAnswer x r (.image b pin) =
    (({ w with audit := some { a.refer r.cls e f with read := a.read + 1, failure := true, asked := a.asked ++ [r] } } :
      Works).quarantine x r).auditRelease x r := by
  simp only [Works.auditAnswer, ha, hr, ne_eq, not_true_eq_false, if_false, he, h, Works.mapAudit, Option.map_some]

end

/-- What the walk leaves behind after a sheet read: the audit waits for nothing, the entry is free, quarantined when the sheet failed,
and its release is told. -/
def Works.AuditGives (t : Works) (r : SheetRef) (e : Entry) (a : Audit) (quarantined : Bool) : Prop :=
  t.audit = some { a with wait := .none } ∧ .released r.day r.cls r.first ∈ t.tasks ∧
    t.entryAt r.day r.cls r.first = some
      { e with busy := none, quarantined := e.quarantined || e.quarantineAsked || quarantined, quarantineAsked := false }

section
variable {x : Ctx} {w : Works} {a : Audit} {r : SheetRef} {e : Entry} (he : w.entryAt r.day r.cls r.first = some e)
  (hbusy : e.busy = some .audit)
include he hbusy

theorem Works.auditRelease_gives (b : Audit) : (({ w with audit := some b } : Works).auditRelease x r).AuditGives r e b false := by
  obtain ⟨haudit, htask, hentry⟩ :=
    Works.auditRelease_frees (x := x) (w := { w with audit := some b }) (a := b) (r := r) (e := e) rfl he hbusy
  refine ⟨haudit, htask, hentry.trans ?_⟩
  simp only [Entry.freed, Bool.or_false]

/-- A sheet that failed: its quarantine, asked while the audit's mark stands, is applied at the release. -/
theorem Works.auditRelease_quarantines (hg : e.group = r.group) (b : Audit) :
    ((({ w with audit := some b } : Works).quarantine x r).auditRelease x r).AuditGives r e b true := by
  have hcurrent : ({ w with audit := some b } : Works).current r = some e := Works.current_of_entryAt (w := { w with audit := some b }) he hg
  have hentry := Works.quarantine_entryAt (x := x) hcurrent
  rw [if_neg (by simp [hbusy] : ¬ e.busy = none)] at hentry
  obtain ⟨days, port, hframe⟩ := Works.quarantine_frame x { w with audit := some b } r
  have haudit : (({ w with audit := some b } : Works).quarantine x r).audit = some b := by rw [hframe]
  by_cases hquar : e.quarantined = true
  · rw [if_pos hquar] at hentry
    obtain ⟨h₁, h₂, h₃⟩ := Works.auditRelease_frees (x := x) haudit hentry hbusy
    refine ⟨h₁, h₂, h₃.trans ?_⟩
    simp only [Entry.freed, hquar, Bool.true_or]
  · rw [if_neg hquar] at hentry
    obtain ⟨h₁, h₂, h₃⟩ := Works.auditRelease_frees (x := x) haudit hentry hbusy
    refine ⟨h₁, h₂, h₃.trans ?_⟩
    simp only [Entry.freed, Bool.or_true]

end

theorem mem_stagedIdentities {i : Intake} {d : Nat} {id : Identity} :
    id ∈ i.stagedIdentities d ↔ ∃ c < 8, ∃ q ∈ i.set d c, q.call.identity = id := by
  simp [Intake.stagedIdentities]

/-- A sheet repeats no identity, its own, one already met or one staged. -/
theorem fresh_iff {met : List Identity} {i : Intake} {d : Nat} {ids : List Identity} :
    (ids.Nodup ∧ ∀ id ∈ ids, id ∉ met ∧ ∀ c < 8, ∀ q ∈ i.set d c, q.call.identity ≠ id) ↔
      ids.Nodup ∧ ∀ id ∈ ids, id ∉ met ++ i.stagedIdentities d := by
  simp only [List.mem_append, not_or, mem_stagedIdentities, not_exists, not_and]

/-- Settles O55: the walk's entry is taken by its state; the answer to its read is checked, and the mark released. -/
theorem auditWalkTakesTheNextEntryOrStates : Obligations.AuditWalkTakesTheNextEntryOrStates := by
  refine ⟨fun s hq => ⟨fun hnone => ?none, fun a ha => ⟨fun hidle => ?idle, ?walk⟩⟩, fun x w a r y ha hr hy hrel => ?released,
    fun x w a r e ha hr he hg hb => ?answered⟩
  case none =>
    have hstep : s.works.auditWalk s.ctx = s.works := by simp only [Works.auditWalk, hnone]
    exact (congrArg s.settled hstep).trans (State.settled_quiet s _ hq)
  case idle =>
    exact (congrArg s.settled (Works.auditWalk_idle ha hidle)).trans (State.settled_quiet s _ hq)
  case walk =>
    intro took
    have htook : ∀ d c y (met : Audit), met.refs = a.refs → met.omitted = a.omitted → met.unread = a.unread →
        s.works.auditWalk s.ctx = ({ s.works with audit := some met } : Works).auditTake d c y →
        took d c y { met with wait := .none } := by
      intro d c y met hrefs homit hunread hwalk
      have hquiet : ∀ b : Audit, s.works.auditWalk s.ctx = { s.works with audit := some b } →
          exec .auditWalk s = .next { s with works := { s.works with audit := some b } } := fun b h =>
        (congrArg s.settled h).trans (State.settled_quiet s _ hq)
      refine ⟨fun hquar => hquiet _ ?_, fun hlive hoff => hquiet _ ?_, fun hlive hon hbusy => hquiet _ ?_, fun hlive hon hfree => ?_⟩
      · rw [hwalk, Works.auditTake_quarantined (w := { s.works with audit := some met }) (a := met) rfl hquar, Audit.refer_eq]
        simp only [hrefs, homit]
        split <;> rfl
      · rw [hwalk, Works.auditTake_offline (w := { s.works with audit := some met }) (a := met) rfl hlive hoff, Audit.refer_eq]
        simp only [hrefs, homit, hunread]
        split <;> rfl
      · rw [hwalk, Works.auditTake_busy (w := { s.works with audit := some met }) (a := met) rfl hlive hon hbusy]
        rfl
      · exact congrArg s.settled (hwalk.trans (Works.auditTake_free (w := { s.works with audit := some met }) (a := met) rfl hlive hon hfree))
    refine ⟨fun r hd hr => ⟨fun hnone => ?_, fun y hy => ⟨fun hbusy => ?_, fun hfree => ?_⟩⟩, fun hd hwait e he hgoing => ?next⟩
    · exact (congrArg s.settled (Works.auditWalk_lost ha hd hr hnone)).trans (State.settled_quiet s _ hq)
    · exact (congrArg s.settled (Works.auditWalk_waits ha hd hr hy hbusy)).trans (State.settled_quiet s _ hq)
    · refine htook r.day r.cls y a rfl rfl rfl ((Works.auditWalk_again ha hd hr hy hfree).trans ?_)
      rw [← ha]
    case next =>
      intro after
      have hday := Works.liveDay_eq_some he hgoing
      refine ⟨fun before behind p hwalk hp hno => ?_, fun hno r hreq => ?ends⟩
      · have hfind : e.walk.find? a.beyond = some p := by
          rw [hwalk]
          exact find?_append_cons ((a.beyond_iff p).mpr hp) fun q hq hf => hno q hq ((a.beyond_iff q).mp hf)
        exact htook a.day p.1 p.2 { a with position := some (p.1, p.2.first), met := a.met + 1 } rfl rfl rfl
          (Works.auditWalk_next ha hd hwait hday hfind)
      case ends =>
        intro counted verdict
        have hfind : e.walk.find? a.beyond = none :=
          List.find?_eq_none.mpr fun q hq hf => hno q hq ((a.beyond_iff q).mp hf)
        have hends := (Works.auditWalk_ends (x := s.ctx) ha hd hwait hday hfind).trans (Works.auditState_eq s.ctx he hreq)
        rw [show s.works.tasks = [] from hq] at hends
        exact congrArg s.settled hends
  case released =>
    intro t ref referred
    obtain ⟨haudit, hdays⟩ := Works.releaseTold_auditTake (x := x) ha hr hy hrel
    refine ⟨fun hquar => haudit.trans ?_, fun hlive hoff => haudit.trans ?_, fun hlive hon hbusy => haudit.trans ?_,
      fun hlive hon hfree => ?_⟩
    · rw [Works.auditTake_quarantined ha hquar, Audit.refer_eq]
      simp only [referred]
      split <;> rfl
    · rw [Works.auditTake_offline ha hlive hoff, Audit.refer_eq]
      simp only [referred]
      split <;> rfl
    · rw [Works.auditTake_busy ha hlive hon hbusy]
      rfl
    · have hfirst := Works.first_of_entryAt hy
      rw [Works.auditTake_free ha hlive hon hfree, hfirst] at haudit hdays
      obtain ⟨tasks, serial, array, hask⟩ := Works.askRead_frame
        (({ w with audit := some { a with wait := .reading (y.ref r.day r.cls) } } : Works).mapEntry r.day r.cls r.first fun e =>
          { e with busy := some .audit }) y.slot (.audit (y.ref r.day r.cls))
      rw [hask] at haudit hdays
      refine ⟨haudit, ?_⟩
      have hentry := w.entryAt_mapEntry r.day r.cls r.first (f := fun e => { e with busy := some .audit }) fun _ => rfl
      rw [hy] at hentry
      refine Eq.trans ?_ hentry
      simp only [Works.entryAt, Works.liveDay, Works.day, t, hdays]
      rfl
  case answered =>
    intro freed referred gives
    have hfailed : ∀ f asked, { a.refer r.cls e f with read := a.read + 1, failure := true, asked := asked } =
        referred f { a with read := a.read + 1, failure := true, asked := asked } := by
      intro f asked
      rw [Audit.refer_eq]
      simp only [referred]
      split <;> rfl
    have hunread : { a.refer r.cls e .unread with unread := a.unread + 1, unproved := true } =
        referred .unread { a with unread := a.unread + 1, unproved := true } := by
      rw [Audit.refer_eq]
      simp only [referred]
      split <;> rfl
    have hread : { a.refer r.cls e .readFailed with read := a.read + 1, failure := true } =
        referred .readFailed { a with read := a.read + 1, failure := true } := by
      rw [Audit.refer_eq]
      simp only [referred]
      split <;> rfl
    have hgives : ∀ (ans : ReadAnswer) (b : Audit) (quarantined : Bool), (w.auditAnswer x r ans).AuditGives r e b quarantined →
        gives ans b quarantined := fun _ _ _ h => h
    refine ⟨?failed, fun mc => ?media, ?checked⟩
    case failed =>
      refine hgives _ _ _ ?_
      rw [Works.auditAnswer_failed ha hr he, ← hread]
      exact Works.auditRelease_gives he hb _
    case media =>
      refine hgives _ _ _ ?_
      rw [Works.auditAnswer_media ha hr he, ← hunread]
      exact Works.auditRelease_gives he hb _
    case checked =>
      intro failing
      have hfails : ∀ (b : Bytes) (pin : Option Nat) (f : Finding),
          sheetFinding r.day r.cls e b (a.ids ++ w.intake.stagedIdentities r.day) = some f → gives (.image b pin) (failing f) true := by
        intro b pin f h
        refine hgives _ _ _ ?_
        rw [Works.auditAnswer_fails ha hr he h]
        exact hfailed f (a.asked ++ [r]) ▸ Works.auditRelease_quarantines he hb hg _
      refine ⟨fun b pin hother => hfails b pin _ (sheetFinding_of_other hother), fun b pin h recs hdata => ?_⟩
      intro header ids fresh fails
      refine ⟨fun hok htotals hfresh => hgives _ _ _ ?_, fun hbad => hfails b pin _ (sheetFinding_header hdata hbad),
        fun hok htotals => hfails b pin _ ?_, fun hok htotals hrepeat => hfails b pin _ ?_⟩
      · have hnone := (sheetFinding_of_header (others := a.ids ++ w.intake.stagedIdentities r.day) hdata hok).trans
          ((if_neg (not_not.mpr htotals)).trans (if_pos (fresh_iff.mp hfresh)))
        have hrecs : imageRecs b = recs := by simp only [imageRecs, hdata]
        rw [Works.auditAnswer_passes ha hr he hnone, hrecs, htotals]
        exact Works.auditRelease_gives he hb _
      · exact (sheetFinding_of_header hdata hok).trans (if_pos htotals)
      · exact (sheetFinding_of_header hdata hok).trans ((if_neg (not_not.mpr htotals)).trans (if_neg (mt fresh_iff.mpr hrepeat)))

end Sys2Proof.Machine
end

section
/-!
SUPPORT. Key order and result order (R110), and the first item that a forward search of a day comes to (R112).
-/

namespace Sys2Proof.Machine

/-! ## Key order -/

theorem Key.lt_iff (a b : Key) : a.lt b = true ↔
    a.account < b.account ∨ (a.account = b.account ∧
      (a.start < b.start ∨ (a.start = b.start ∧ (a.switch < b.switch ∨ (a.switch = b.switch ∧ a.seq < b.seq))))) := by
  simp only [Key.lt, Bool.or_eq_true, Bool.and_eq_true, decide_eq_true_eq]

theorem Key.not_lt_iff (a b : Key) : a.lt b = false ↔
    ¬(a.account < b.account ∨ (a.account = b.account ∧
      (a.start < b.start ∨ (a.start = b.start ∧ (a.switch < b.switch ∨ (a.switch = b.switch ∧ a.seq < b.seq)))))) := by
  rw [← Key.lt_iff, Bool.not_eq_true]

theorem Key.lt_irrefl (a : Key) : a.lt a = false := by
  rw [Key.not_lt_iff]
  omega

theorem Key.lt_trans {a b c : Key} (hab : a.lt b = true) (hbc : b.lt c = true) : a.lt c = true := by
  rw [Key.lt_iff] at *
  omega

/-- Keys not below and not above each other are equal. -/
theorem Key.eq_of_not_lt {a b : Key} (hab : a.lt b = false) (hba : b.lt a = false) : a = b := by
  rw [Key.not_lt_iff] at hab hba
  obtain ⟨account, start, switch, seq⟩ := a
  obtain ⟨account', start', switch', seq'⟩ := b
  simp only [Key.mk.injEq]
  dsimp only at hab hba
  omega

theorem Key.lt_of_not_lt_of_lt {a b c : Key} (hba : b.lt a = false) (hbc : b.lt c = true) : a.lt c = true := by
  by_cases hab : a.lt b = true
  · exact Key.lt_trans hab hbc
  · exact Key.eq_of_not_lt (Bool.not_eq_true _ ▸ hab) hba ▸ hbc

theorem Key.not_lt_trans {a b c : Key} (hba : b.lt a = false) (hcb : c.lt b = false) : c.lt a = false := by
  rw [Bool.eq_false_iff] at *
  exact fun hca => hba (Key.lt_of_not_lt_of_lt (Bool.eq_false_iff.mpr hcb) hca)

theorem Key.not_max_lt_left (a b : Key) : (a.max b).lt a = false := by
  unfold Key.max
  split
  · next hab => exact Bool.eq_false_iff.mpr fun hba => Bool.eq_false_iff.mp (Key.lt_irrefl a) (Key.lt_trans hab hba)
  · exact Key.lt_irrefl a

/-- The key after a key lies above it. -/
theorem Key.lt_next (k : Key) : k.lt k.next = true := by
  rw [Key.lt_iff]
  unfold Key.next
  split
  · dsimp only
    omega
  · split
    · dsimp only
      omega
    · dsimp only
      omega

/-! ## Result order -/

theorem Place.lt_iff (a b : Place) : a.lt b = true ↔
    a.day < b.day ∨ (a.day = b.day ∧ (a.key.lt b.key = true ∨ (a.key = b.key ∧
      ((a.gap = true ∧ b.gap = false) ∨ (a.gap = b.gap ∧ a.cls < b.cls))))) := by
  simp only [Place.lt, Bool.or_eq_true, Bool.and_eq_true, decide_eq_true_eq, Bool.not_eq_true']

/-- Result order is asymmetric. -/
theorem Place.lt_asymm {a b : Place} (hab : a.lt b = true) : b.lt a = false := by
  rw [Bool.eq_false_iff]
  intro hba
  rw [Place.lt_iff] at hab hba
  have hkey : ¬(a.key.lt b.key = true ∧ b.key.lt a.key = true) := fun h =>
    Bool.eq_false_iff.mp (Key.lt_irrefl a.key) (Key.lt_trans h.1 h.2)
  have hirrefl : a.key = b.key → ¬(a.key.lt b.key = true ∨ b.key.lt a.key = true) := by
    intro h
    simp [h, Key.lt_irrefl]
  have hsymm : b.key = a.key → a.key = b.key := Eq.symm
  cases a.gap <;> cases b.gap <;> grind

/-- A place not above another is not above what that other is not above. -/
theorem Place.not_lt_trans {a b c : Place} (hba : b.lt a = false) (hcb : c.lt b = false) : c.lt a = false := by
  rw [Bool.eq_false_iff, ne_eq, Place.lt_iff] at hba hcb ⊢
  intro hca
  have hkey₁ : b.key.lt a.key = false → c.key.lt b.key = false → c.key.lt a.key = false := Key.not_lt_trans
  have hkey₂ : b.key.lt a.key = false → a.key.lt b.key = false → b.key = a.key := Key.eq_of_not_lt
  have hkey₃ : b.key.lt a.key = false → b.key.lt c.key = true → a.key.lt c.key = true := Key.lt_of_not_lt_of_lt
  have hkey₄ : c.key.lt b.key = false → b.key.lt c.key = false → c.key = b.key := Key.eq_of_not_lt
  have hirrefl := Key.lt_irrefl c.key
  cases a.gap <;> cases b.gap <;> cases c.gap <;> grind

/-! ## The least of some elements -/

/-- The least of some elements is one of them, and none lies before it. -/
theorem least_spec {α : Type} {lt : α → α → Bool} (hasymm : ∀ a b, lt a b = true → lt b a = false)
    (htrans : ∀ a b c, lt b a = false → lt c b = false → lt c a = false) {l : List α} {a : α} (h : least lt l = some a) :
    a ∈ l ∧ ∀ b ∈ l, lt b a = false := by
  have hirrefl : ∀ c, lt c c = false := fun c => by
    cases hc : lt c c with
    | false => rfl
    | true => exact (hasymm c c hc).symm.trans hc |>.symm
  induction l generalizing a with
  | nil => cases h
  | cons c l ih =>
    unfold least at h
    split at h
    · next hnone =>
      cases h
      cases l with
      | nil => simp [hirrefl]
      | cons _ _ =>
        unfold least at hnone
        split at hnone
        · cases hnone
        · split at hnone <;> cases hnone
    · next m hm =>
      obtain ⟨hmem, hmin⟩ := ih hm
      split at h
      · next hlt =>
        cases h
        exact ⟨List.mem_cons_of_mem _ hmem, List.forall_mem_cons.mpr ⟨hasymm _ _ hlt, hmin⟩⟩
      · next hlt =>
        cases h
        exact ⟨List.mem_cons_self, List.forall_mem_cons.mpr ⟨hirrefl _, fun b hb =>
          htrans _ _ _ (Bool.not_eq_true _ ▸ hlt) (hmin b hb)⟩⟩

/-! ## The search of a day -/

theorem Place.least_spec {α : Type} (f : α → Place) {l : List α} {a : α} (h : least (fun a b => (f a).lt (f b)) l = some a) :
    a ∈ l ∧ ∀ b ∈ l, (f b).lt (f a) = false :=
  Sys2Proof.Machine.least_spec (lt := fun a b => (f a).lt (f b)) (fun _ _ => Place.lt_asymm) (fun _ _ _ => Place.not_lt_trans) h

/-- The place from which an unread sheet of the day may next give an item lies beyond the start. -/
theorem Place.lt_lower {from_ p : Place} (hday : p.day = from_.day) (hkey : p.key.lt from_.key = false) :
    from_.lt (if reaches true (some (from_, true)) p then p else { p with key := p.key.next }) = true := by
  split
  · next hreaches => exact hreaches
  · exact (Place.lt_iff _ _).mpr (.inr ⟨hday.symm, .inl (Key.lt_of_not_lt_of_lt hkey (Key.lt_next p.key))⟩)

/-- Settles O46: the least of the items beyond the start is the one found, and a sheet's place is at a key beyond the start's. -/
theorem theItemFoundIsTheNextInResultOrder : Obligations.TheItemFoundIsTheNextInResultOrder := by
  refine ⟨fun v account d from_ p i hfind => ?_, fun v account d from_ p r e hday hfind => ?_⟩
  · unfold findUp at hfind
    dsimp only at hfind
    split at hfind
    · cases hfind
    · unfold settleFind at hfind
      split at hfind
      · cases hfind
      · next q hcand =>
        split at hfind
        · cases hfind
        · cases hfind
          obtain ⟨hmem, hleast⟩ := Place.least_spec Prod.fst hcand
          obtain ⟨hitem, hbeyond⟩ := List.mem_filter.mp hmem
          exact ⟨hitem, hbeyond, fun q hq hlt => hleast q (List.mem_filter.mpr ⟨hq, hlt⟩)⟩
  · unfold findUp at hfind
    dsimp only at hfind
    split at hfind
    · next u hneeded =>
      cases hfind
      refine ⟨(List.mem_filter.mp (Place.least_spec _ hneeded).1).1, ?_⟩
      exact Place.lt_lower hday.symm
        (Key.not_lt_trans (Key.not_max_lt_left from_.key _) (Key.not_max_lt_left _ _))
    · unfold settleFind at hfind
      split at hfind
      · cases hfind
      · next q hcand =>
        split at hfind
        · next u hu =>
          cases hfind
          obtain ⟨hmem, hleast⟩ := Place.least_spec Prod.fst hcand
          obtain ⟨hitem, hbeyond⟩ := List.mem_filter.mp hmem
          refine ⟨?_, hbeyond⟩
          split at hu
          · exact List.mem_of_head? hu
          · cases hu
        · cases hfind

end Sys2Proof.Machine
end

section
/-!
SUPPORT. The Array Controller's bookkeeping on one channel: what its tests of space, failures and sources may change (R96, R105, R108), the
ends of clears and marks (R104, R107), and the probes (R94).
-/

namespace Sys2Proof.Machine

/-! ## Bookkeeping on one channel -/

/-- A step that changes one channel, as the relation says, and besides it only the consequences, the serial numbers, the port and whether
ARRAY_FULL is armed. -/
def Works.OnChan (R : MediaChan → MediaChan → Prop) (mc : Fin 4) (w v : Works) : Prop :=
  (∃ more serial port full, v = { w with
    tasks := w.tasks ++ more, serial := serial, port := port, array := { w.array with chans := v.array.chans, fullArmed := full } }) ∧
  R (w.chan mc) (v.chan mc) ∧ ∀ m, m ≠ mc → v.chan m = w.chan m

section
variable {R S T : MediaChan → MediaChan → Prop} {mc : Fin 4} {w v u : Works}

theorem Works.OnChan.trans (h : w.OnChan R mc v) (k : v.OnChan S mc u) (hT : ∀ c d e, R c d → S d e → T c e) : w.OnChan T mc u := by
  obtain ⟨⟨more, serial, port, full, hv⟩, hR, hother⟩ := h
  obtain ⟨⟨more', serial', port', full', hu⟩, hS, hother'⟩ := k
  refine ⟨⟨more ++ more', serial', port', full', ?_⟩, hT _ _ _ hR hS, fun m hm => (hother' m hm).trans (hother m hm)⟩
  rw [hu, hv, List.append_assoc]

theorem Works.OnChan.mono (h : w.OnChan R mc v) (hRS : R (w.chan mc) (v.chan mc) → S (w.chan mc) (v.chan mc)) :
    w.OnChan S mc v := ⟨h.1, hRS h.2.1, h.2.2⟩

theorem Works.OnChan.refl (mc : Fin 4) (w : Works) : w.OnChan Eq mc w :=
  ⟨⟨[], w.serial, w.port, w.array.fullArmed, by rw [List.append_nil]⟩, rfl, fun _ _ => rfl⟩

theorem Works.OnChan.tell (mc : Fin 4) (w : Works) (l : List Task) : w.OnChan Eq mc (w.addTasks l) :=
  ⟨⟨l, w.serial, w.port, w.array.fullArmed, rfl⟩, rfl, fun _ _ => rfl⟩

theorem Works.OnChan.notify (mc : Fin 4) (x : Ctx) (w : Works) (k : NoticeKind) (res : Result) : w.OnChan Eq mc (w.notice x k res) := by
  rw [w.notice_eq]
  exact ⟨⟨[], w.serial, _, w.array.fullArmed, by rw [List.append_nil]⟩, rfl, fun _ _ => rfl⟩

theorem Works.OnChan.arm (mc : Fin 4) (w : Works) (full : Bool) :
    w.OnChan Eq mc { w with array := { w.array with fullArmed := full } } :=
  ⟨⟨[], w.serial, w.port, full, by rw [List.append_nil]⟩, rfl, fun _ _ => rfl⟩

theorem Works.mapChan_chan_self (w : Works) (mc : Fin 4) (f : MediaChan → MediaChan) : (w.mapChan mc f).chan mc = f (w.chan mc) :=
  Quad.get_modify_self _ _ _

theorem Works.mapChan_chan_other (w : Works) {mc m : Fin 4} (f : MediaChan → MediaChan) (h : m ≠ mc) :
    (w.mapChan mc f).chan m = w.chan m := by
  simp only [Works.mapChan, Works.chan, Quad.get_modify, h, if_false]

theorem Works.OnChan.map (w : Works) (mc : Fin 4) (f : MediaChan → MediaChan) (h : R (w.chan mc) (f (w.chan mc))) :
    w.OnChan R mc (w.mapChan mc f) :=
  ⟨⟨[], w.serial, w.port, w.array.fullArmed, by rw [List.append_nil]; rfl⟩, by rw [w.mapChan_chan_self]; exact h,
    fun _ hm => w.mapChan_chan_other f hm⟩

theorem Works.OnChan.ask (w : Works) (mc : Fin 4) (kind : OpKind) (fg : Bool)
    (h : R (w.chan mc) ((w.askOp mc kind fg).chan mc)) : w.OnChan R mc (w.askOp mc kind fg) :=
  ⟨⟨[.grant mc], w.serial + 1, w.port, w.array.fullArmed, rfl⟩, h, fun _ hm => w.askOp_chan_other kind fg hm⟩

theorem Works.OnChan.mem_tasks (h : w.OnChan R mc v) {t : Task} (ht : t ∈ w.tasks) : t ∈ v.tasks := by
  obtain ⟨⟨more, serial, port, full, hv⟩, -⟩ := h
  rw [hv]
  exact List.mem_append_left _ ht

theorem Works.OnChan.days (h : w.OnChan R mc v) : v.days = w.days := by
  obtain ⟨⟨more, serial, port, full, hv⟩, -⟩ := h
  rw [hv]

theorem Works.OnChan.cache (h : w.OnChan R mc v) : v.array.cache = w.array.cache := by
  obtain ⟨⟨more, serial, port, full, hv⟩, -⟩ := h
  rw [hv]

end

/-- A channel whose space notice alone has been armed or raised. -/
def MediaChan.Rearmed (c d : MediaChan) : Prop := d = { c with lowArmed := d.lowArmed }

theorem MediaChan.Rearmed.refl (c : MediaChan) : c.Rearmed c := rfl

theorem MediaChan.Rearmed.trans {c d e : MediaChan} (h : c.Rearmed d) (k : d.Rearmed e) : c.Rearmed e := by
  unfold MediaChan.Rearmed at *
  rw [k, h]

theorem Works.OnChan.rearm {mc : Fin 4} {w v u : Works} {R : MediaChan → MediaChan → Prop} (h : w.OnChan R mc v)
    (k : v.OnChan MediaChan.Rearmed mc u) (hR : ∀ c d l, R c d → R c { d with lowArmed := l }) : w.OnChan R mc u :=
  h.trans k fun c d e hcd hde => by
    rw [show e = { d with lowArmed := e.lowArmed } from hde]
    exact hR c d _ hcd

theorem Works.OnChan.rearmed {mc : Fin 4} {w v : Works} (h : w.OnChan Eq mc v) : w.OnChan MediaChan.Rearmed mc v :=
  h.mono fun h => h ▸ MediaChan.Rearmed.refl _

theorem Works.lowTest_onChan (x : Ctx) (w : Works) (mc : Fin 4) : w.OnChan MediaChan.Rearmed mc (w.lowTest x mc) := by
  unfold Works.lowTest
  dsimp only
  split
  · exact (Works.OnChan.refl mc w).rearmed
  · split
    · exact (Works.OnChan.map w mc (R := MediaChan.Rearmed) (fun c => { c with lowArmed := false }) rfl).trans
        (Works.OnChan.notify mc x _ _ _) fun _ _ _ h e => e ▸ h
    · split
      · exact Works.OnChan.map w mc (R := MediaChan.Rearmed) (fun c => { c with lowArmed := true }) rfl
      · exact (Works.OnChan.refl mc w).rearmed

theorem Works.fullArm_onChan (x : Ctx) (w : Works) (mc : Fin 4) : w.OnChan Eq mc (w.fullArm x) := by
  unfold Works.fullArm
  split
  · exact Works.OnChan.arm mc w true
  · exact Works.OnChan.refl mc w

theorem Works.fullTest_onChan (x : Ctx) (w : Works) (mc : Fin 4) : w.OnChan Eq mc (w.fullTest x) := by
  unfold Works.fullTest
  split
  · exact Works.OnChan.refl mc w
  · split
    · split
      · exact (Works.OnChan.arm mc w false).trans (Works.OnChan.notify mc x _ _ _) fun _ _ _ h k => h.trans k
      · exact Works.OnChan.refl mc w
    · exact Works.OnChan.arm mc w true

theorem Works.OnChan.then_eq {mc : Fin 4} {w v u : Works} {R : MediaChan → MediaChan → Prop} (h : w.OnChan R mc v)
    (k : v.OnChan Eq mc u) : w.OnChan R mc u := h.trans k fun _ _ _ hR e => e ▸ hR

theorem Works.spaceChanged_onChan (x : Ctx) (w : Works) (mc : Fin 4) : w.OnChan MediaChan.Rearmed mc (w.spaceChanged x mc) :=
  ((w.lowTest_onChan x mc).then_eq (Works.fullArm_onChan x _ mc)).then_eq (Works.OnChan.tell mc _ [_])

/-! ## The next source (R105) -/

/-- A channel after its next source has been sought: none taken, or one of those that could be, which becomes RELOCATING. -/
def MediaChan.Sourced (c d : MediaChan) : Prop :=
  (d = { c with relocation := none, lowArmed := d.lowArmed }) ∨
    ∃ e, (∃ i, (e, i) ∈ c.exts ∧ i.state = .filled) ∧
      d = { c.setExt e .relocating with relocation := some ⟨e, 0, [], none, false⟩, lowArmed := d.lowArmed }

theorem mem_of_firstMax {α : Type} {f : α → Nat} {l : List α} {a : α} (h : firstMax f l = some a) : a ∈ l := by
  induction l generalizing a with
  | nil => cases h
  | cons b l ih =>
    unfold firstMax at h
    split at h
    · cases h
      exact List.mem_cons_self
    · next c hc =>
      split at h
      · cases h
        exact List.mem_cons_self
      · cases h
        exact List.mem_cons_of_mem _ (ih hc)

theorem Works.filled_of_chooseSource {w : Works} {mc : Fin 4} {e : Nat} (h : w.chooseSource mc = some e) :
    ∃ i, (e, i) ∈ (w.chan mc).exts ∧ i.state = .filled := by
  have hsource : ∀ p ∈ w.sources mc, ∃ i, (p.1, i) ∈ (w.chan mc).exts ∧ i.state = .filled := by
    intro p hp
    obtain ⟨hmem, hcond⟩ := List.mem_filter.mp hp
    simp only [Bool.and_eq_true, decide_eq_true_eq] at hcond
    obtain ⟨⟨hfilled, -⟩, -⟩ := hcond
    exact ⟨p.2, hmem, hfilled⟩
  unfold Works.chooseSource at h
  dsimp only at h
  split at h
  · next p hp =>
    cases h
    exact hsource p (List.mem_of_find?_eq_some hp)
  · have hmem := (List.mem_filter.mp (mem_of_firstMax h)).1
    obtain ⟨p, hp, rfl⟩ := List.mem_map.mp hmem
    exact hsource p hp

theorem Works.nextSource_onChan (x : Ctx) (w : Works) (mc : Fin 4) (mark : Nat) :
    w.OnChan MediaChan.Sourced mc (w.nextSource x mc mark) := by
  have hnone : w.OnChan MediaChan.Sourced mc (w.mapChan mc fun c => { c with relocation := none }) :=
    Works.OnChan.map w mc _ (.inl rfl)
  unfold Works.nextSource
  dsimp only
  split
  · split
    · next e he =>
      refine Works.OnChan.then_eq (Works.OnChan.rearm (Works.OnChan.map w mc _ (.inr ⟨e, Works.filled_of_chooseSource he, rfl⟩))
        (Works.lowTest_onChan x _ mc) ?_) (Works.fullArm_onChan x _ mc)
      rintro c d l (hd | ⟨e, he, hd⟩)
      · exact .inl (by rw [hd])
      · exact .inr ⟨e, he, by rw [hd]⟩
    · exact hnone
  · exact hnone

/-! ## Tables -/

/-- A table of the entries whose keys pass a test. -/
theorem tblGet_filter_key {α : Type} (f : Nat → Bool) (i : Nat) (t : Tbl α) :
    tblGet i (t.filter fun p => f p.1) = if f i then tblGet i t else none := by
  induction t with
  | nil => simp [tblGet]
  | cons p t ih =>
    obtain ⟨k, a⟩ := p
    by_cases hk : k = i
    · subst hk
      by_cases hf : f k = true
      · simp [hf, tblGet]
      · simp [hf, ih]
    · by_cases hf : f k = true
      · simp [hf, tblGet, hk, ih]
      · simp [hf, tblGet, hk, ih]

/-- A table put in key order has one entry of the key put. -/
theorem eq_of_mem_tblPut_self {α : Type} {k : Nat} {a b : α} {t : Tbl α} (hs : tblSorted t = true) (h : (k, b) ∈ tblPut k a t) :
    b = a := by
  induction t with
  | nil => simpa [tblPut] using h
  | cons q t ih =>
    obtain ⟨j, c⟩ := q
    obtain ⟨hj, ht⟩ := (tblSorted_cons j c t).mp hs
    simp only [tblPut] at h
    split at h
    · rcases List.mem_cons.mp h with heq | h
      · exact (Prod.mk.inj heq).2
      · rcases List.mem_cons.mp h with heq | h
        · have := (Prod.mk.inj heq).1
          omega
        · have := hj _ h
          dsimp only at this
          omega
    · split at h
      · rcases List.mem_cons.mp h with heq | h
        · exact (Prod.mk.inj heq).2
        · have := hj _ h
          dsimp only at this
          omega
      · rcases List.mem_cons.mp h with heq | h
        · have := (Prod.mk.inj heq).1
          omega
        · exact ih ht h

/-! ## Extents cleared and retired (R107) -/

/-- A channel once an extent's clear or retire mark has ended: as it was, its relocation from elsewhere, or with its next source. -/
def MediaChan.DoneWith (e : Nat) (c d : MediaChan) : Prop :=
  c.Sourced d ∨ (d = c ∧ ∀ r, c.relocation = some r → r.source ≠ e)

theorem Works.sourceDone_onChan (x : Ctx) (w : Works) (mc : Fin 4) (e : Nat) :
    w.OnChan (MediaChan.DoneWith e) mc (w.sourceDone x mc e) := by
  unfold Works.sourceDone
  split
  · exact (w.nextSource_onChan x mc _).mono .inl
  · next hany =>
    refine (Works.OnChan.tell mc w [.relocationTest mc]).mono fun h => .inr ⟨h.symm, fun r hr hsource => hany ?_⟩
    rw [hr]
    exact decide_eq_true hsource

/-- Its slots, and the entry of an extent that is not FILLED, stay as they were. -/
theorem MediaChan.DoneWith.keeps {e : Nat} {c d : MediaChan} (h : c.DoneWith e d) (he : ∀ i, (e, i) ∈ c.exts → i.state ≠ .filled) :
    d.slots = c.slots ∧ d.ext e = c.ext e ∧ ∀ r, d.relocation = some r → r.source ≠ e := by
  obtain (hd | ⟨f, ⟨i, hi, hfilled⟩, hd⟩) | ⟨hd, hsource⟩ := h
  · rw [hd]
    exact ⟨rfl, rfl, fun r hr => by cases hr⟩
  · have hne : f ≠ e := fun hfe => he i (hfe ▸ hi) hfilled
    rw [hd]
    refine ⟨rfl, ?_, ?_⟩
    · exact congrArg (fun o => o.getD ⟨.clear, 0⟩) (tblGet_put_other f e _ c.exts (Ne.symm hne))
    · intro r hr
      cases hr
      exact hne
  · rw [hd]
    exact ⟨rfl, rfl, hsource⟩

/-- The end of an operation leaves its channel idle, and tells that the next may be granted. -/
theorem Works.opEnded_onChan (w : Works) (mc : Fin 4) :
    w.OnChan (fun c d => d = { c with busy := none }) mc (w.opEnded mc) :=
  (Works.OnChan.map w mc (R := fun c d => d = { c with busy := none }) _ rfl).then_eq (Works.OnChan.tell mc _ [.grant mc])

/-- A channel with an extent cleared: its entry, its slots' entries and its excluded slots gone. -/
def MediaChan.wiped (c : MediaChan) (e : Nat) : MediaChan :=
  { c with exts := tblDrop e c.exts, slots := c.slots.filter fun p => decide (extOf p.1 ≠ e),
           excluded := c.excluded.filter fun i => decide (extOf i ≠ e) }

theorem Works.cleared_onChan (x : Ctx) (w : Works) (mc : Fin 4) (e : Nat) :
    w.OnChan (fun c d => ∃ l b, { c.wiped e with lowArmed := l }.DoneWith e { d with busy := b } ∧ d.busy = none) mc (w.cleared x mc e) ∧
      .allocate ∈ (w.cleared x mc e).tasks := by
  have hwiped : w.OnChan (fun c d => ∃ l, d = { c.wiped e with lowArmed := l }) mc
      (((w.mapChan mc fun c => c.wiped e).lowTest x mc).fullArm x) :=
    ((Works.OnChan.map w mc (R := fun c d => ∃ l, d = { c.wiped e with lowArmed := l }) (fun c => c.wiped e) ⟨_, rfl⟩).rearm
      (Works.lowTest_onChan x _ mc) fun c d l ⟨_, h⟩ => ⟨l, by rw [h]⟩).then_eq (Works.fullArm_onChan x _ mc)
  have hdone := (hwiped.trans (Works.sourceDone_onChan x _ mc e) (T := fun c d => ∃ l, { c.wiped e with lowArmed := l }.DoneWith e d)
    fun c d f ⟨l, hd⟩ h => ⟨l, hd ▸ h⟩).then_eq (Works.OnChan.tell mc _ [.allocate])
  have hended := Works.opEnded_onChan ((((w.mapChan mc fun c => c.wiped e).lowTest x mc).fullArm x).sourceDone x mc e |>.addTasks [.allocate]) mc
  refine ⟨hdone.trans hended ?_, hended.mem_tasks (List.mem_append_right _ (List.mem_singleton.mpr rfl))⟩
  rintro c d f ⟨l, hd⟩ hf
  exact ⟨l, d.busy, by rw [hf]; exact hd, by rw [hf]⟩

/-- The slots of an extent made BAD, and no other. -/
theorem tblGet_foldl_put {α : Type} (a : α) (base n : Nat) (t : Tbl α) (i : Nat) :
    tblGet i ((List.range n).foldl (fun t k => tblPut (base + k) a t) t) =
      if base ≤ i ∧ i < base + n then some a else tblGet i t := by
  induction n with
  | zero => simp
  | succ n ih =>
    rw [List.range_succ, List.foldl_append]
    simp only [List.foldl_cons, List.foldl_nil]
    by_cases hi : i = base + n
    · subst hi
      rw [tblGet_put_self, if_pos (by omega)]
    · rw [tblGet_put_other _ _ _ _ hi, ih]
      exact if_congr (by omega) rfl rfl

theorem MediaChan.makeBad_slot (c : MediaChan) (e i : Nat) :
    (c.makeBad e).slot i = if i / 64 = e then some ⟨.bad, .data⟩ else c.slot i := by
  simp only [MediaChan.makeBad, MediaChan.slot, tblGet_foldl_put]
  exact if_congr (by simp only [Config.extentSlots]; omega) rfl rfl

theorem MediaChan.setExt_ext_self (c : MediaChan) (e : Nat) (st : ExtState) : (c.setExt e st).ext e = { c.ext e with state := st } := by
  simp only [MediaChan.setExt, MediaChan.ext, tblGet_put_self, Option.getD_some]

theorem MediaChan.setExt_ext_other (c : MediaChan) {e f : Nat} (st : ExtState) (h : f ≠ e) : (c.setExt e st).ext f = c.ext f :=
  congrArg (fun o => o.getD ⟨.clear, 0⟩) (tblGet_put_other e f _ c.exts h)

theorem Works.retired_onChan (x : Ctx) (w : Works) (mc : Fin 4) (e : Nat) :
    w.OnChan (fun c d => ∃ b, (c.makeBad e).DoneWith e { d with busy := b } ∧ d.busy = none) mc (w.retired x mc e) := by
  have hdone := (Works.OnChan.map w mc (R := fun c d => d = c.makeBad e) (fun c => c.makeBad e) rfl).trans
    (Works.sourceDone_onChan x _ mc e) (T := fun c d => (c.makeBad e).DoneWith e d) fun c d f hd h => hd ▸ h
  refine hdone.trans (Works.opEnded_onChan _ mc) ?_
  intro c d f hd hf
  exact ⟨d.busy, by rw [hf]; exact hd, by rw [hf]⟩

/-! ## Operations asked in a row -/

/-- Operations asked in a row, BACKGROUND all, of one channel. -/
def Works.askAll (w : Works) (mc : Fin 4) (l : List OpKind) : Works := l.foldl (fun w k => w.askOp mc k false) w

theorem Works.askAll_onChan (w : Works) (mc : Fin 4) (l : List OpKind) :
    w.OnChan (fun c d => d = { c with queue := d.queue, waiting := d.waiting } ∧
      (c.queue.length + l.length ≤ 512 → d.queue.map (fun o => o.kind) = c.queue.map (fun o => o.kind) ++ l)) mc (w.askAll mc l) := by
  induction l generalizing w with
  | nil => exact (Works.OnChan.refl mc w).mono fun h => by rw [← h]; simp
  | cons k l ih =>
    refine (Works.OnChan.ask w mc k false (R := fun c d => d = { c with queue := d.queue, waiting := d.waiting } ∧
      (c.queue.length < 512 → d.queue.map (fun o => o.kind) = c.queue.map (fun o => o.kind) ++ [k])) ?_).trans (ih _) ?_
    · rw [Works.askOp_chan_self]
      split
      · exact ⟨rfl, fun _ => by simp⟩
      · next hfull => exact ⟨rfl, fun h => absurd h hfull⟩
    · rintro c d e ⟨hd, hqueue⟩ ⟨he, hqueue'⟩
      refine ⟨by rw [he, hd], fun hlen => ?_⟩
      rw [List.length_cons] at hlen
      have hkinds := hqueue (by omega)
      have hlen' : d.queue.length = c.queue.length + 1 := by simpa using congrArg List.length hkinds
      rw [hqueue' (by omega), hkinds, List.append_assoc]
      rfl

/-! ## Probes (R94) -/

/-- The operations that a channel ONLINE again asks anew, in order. -/
def MediaChan.again (c : MediaChan) : List OpKind :=
  c.owed.map (fun m => OpKind.voidMark m.idx m.who false) ++ c.clearAgain.map OpKind.clear ++
    c.retireAgain.map fun e => OpKind.retireMark e false

theorem Works.probeReady_eq (x : Ctx) (w : Works) (mc : Fin 4) :
    w.probeReady x mc =
      (((w.mapChan mc fun c => { c with online := true, probing := false, owed := [], clearAgain := [], retireAgain := [] }).askAll mc
        (w.chan mc).again).fullArm x).addTasks [.online mc, .allocate, .relocationTest mc, .grant mc] := by
  simp only [Works.probeReady, Works.askAll, MediaChan.again, List.foldl_append, List.foldl_map]

/-- Settles O40: the operations asked again join the empty queue one after another. -/
theorem probesBringAChannelBack : Obligations.ProbesBringAChannelBack := by
  intro mc s hq c with_
  have hquiet : ∀ (t : State) (f : MediaChan → MediaChan), t.works = s.works →
      t.settled (s.works.mapChan mc f) = .next { t with works := s.works.mapChan mc f } := fun t f _ =>
    State.settled_quiet t _ hq
  refine ⟨fun h => if_pos h, fun hext hoff hidle => ?_, fun hidle => ⟨if_neg ?_, if_neg ?_⟩, fun hprobing => ?_, fun hprobing => ?_⟩
  · refine (if_neg ?_).trans (hquiet (s.clockTo c.probeDue) _ rfl)
    simp [hext.ne', hoff, hidle, c]
  · simpa using hidle
  · simpa using hidle
  · exact (if_pos hprobing).trans (hquiet s _ rfl)
  · have hstep : s.works.OnChan (fun _ d => d.online = true ∧ d.probing = false ∧ d.owed = [] ∧ d.clearAgain = [] ∧ d.retireAgain = [] ∧
        (c.queue.length + c.again.length ≤ 512 → d.queue.map (fun o => o.kind) = c.queue.map (fun o => o.kind) ++ c.again)) mc
        (s.works.probeReady s.ctx mc) := by
      rw [Works.probeReady_eq]
      refine (((Works.OnChan.map s.works mc (R := fun _ d =>
        d = { c with online := true, probing := false, owed := [], clearAgain := [], retireAgain := [] }) _ rfl).trans
          (Works.askAll_onChan _ mc _) ?_).then_eq (Works.fullArm_onChan _ _ mc)).then_eq (Works.OnChan.tell mc _ _)
      rintro - d e hd ⟨he, hqueue⟩
      rw [hd] at he hqueue
      exact ⟨by rw [he], by rw [he], by rw [he], by rw [he], by rw [he], hqueue⟩
    have htold : ∀ t ∈ [Task.online mc, .allocate, .relocationTest mc, .grant mc], t ∈ (s.works.probeReady s.ctx mc).tasks := by
      intro t ht
      rw [Works.probeReady_eq]
      exact List.mem_append_right _ ht
    obtain ⟨⟨more, serial, port, full, heq⟩, ⟨honline, hidle, howed, hclear, hretire, hqueue⟩, hother⟩ := hstep
    refine ⟨_, if_pos hprobing, by rw [heq], by rw [heq], by rw [heq], honline, hidle, howed, hclear, hretire, hother,
      htold _ (by simp), htold _ (by simp), fun hempty hlen => ?_⟩
    have hlen' : c.again.length < 512 := by simpa [MediaChan.again, Nat.add_assoc] using hlen
    have hkinds := hqueue (by simp [hempty, hlen'.le])
    rwa [hempty] at hkinds

/-! ## The ends of clears and retire marks (R107) -/

section
variable {mc : Fin 4} {s : State} {o : Op} {e : Nat} (hbusy : (s.works.chan mc).busy = some o) (hstray : o.stray = false)
include hbusy hstray

theorem exec_clearDone (hkind : o.kind = .clear e) (r : ClearEnd) :
    exec (.clearDone mc r) s = (s.mapMedia mc fun m => m.clearDone e r).settled
      (if clearOk r then s.works.cleared s.ctx mc e else (s.works.askOp mc (.retireMark e false) false).opEnded mc) := by
  change execClearDone mc r s = _
  simp only [execClearDone, hbusy, hkind, hstray, Bool.false_eq_true, if_false]
  rfl

theorem exec_retireMarkDone {again : Bool} (hkind : o.kind = .retireMark e again) (r : MarkEnd) :
    exec (.retireMarkDone mc r) s = (s.mapMedia mc fun m => m.retireMarked e r).settled
      (if markOk r || again then s.works.retired s.ctx mc e else s.works.markAgain mc { o with kind := .retireMark e true }) := by
  change execRetireMarkDone mc r s = _
  simp only [execRetireMarkDone, hbusy, hkind, hstray, Bool.false_eq_true, if_false]
  rfl

end

theorem State.mapMedia_eq (s : State) (mc : Fin 4) (f : Media → Media) :
    s.mapMedia mc f = { s with media := s.media.set mc (f (s.media.get mc)) } := rfl

/-- A mark that may or may not stand, put on the media of its channel. -/
theorem State.mapMedia_ite (s : State) (mc : Fin 4) (marked : Bool) (f : Media → Media) :
    (s.mapMedia mc fun m => if marked then f m else m) =
      if marked then { s with media := s.media.set mc (f (s.media.get mc)) } else s := by
  cases marked with
  | true => rfl
  | false =>
    rw [State.mapMedia_eq]
    simp only [Bool.false_eq_true, if_false, Quad.set_get]

theorem Media.clearExt_cell (m : Media) (e i : Nat) : (m.clearExt e).cell i = if i / 64 = e then ⟨none, false⟩ else m.cell i := by
  have hget := tblGet_filter_key (fun k => decide (k / Config.extentSlots ≠ e)) i m.cells
  simp only [Media.cell, Media.clearExt, hget]
  by_cases h : i / Config.extentSlots = e
  · rw [if_neg (by simp [h])]
    exact (if_pos h).symm
  · rw [if_pos (by simp [h])]
    exact (if_neg h).symm

theorem Media.mem_retire_self (m : Media) (e : Nat) : e ∈ (m.retire e).retired :=
  List.mem_map.mpr ⟨(e, ()), mem_of_tblGet (tblGet_put_self e () _), rfl⟩

/-- What stands of a channel, its extents listed once each, whose extent has been cleared. -/
theorem MediaChan.wiped_facts (c : MediaChan) (e : Nat) :
    (c.wiped e).ext e = ⟨.clear, 0⟩ ∧ (∀ i, (e, i) ∈ (c.wiped e).exts → i.state ≠ .filled) ∧
      ∀ i, (c.wiped e).slot i = if i / 64 = e then none else c.slot i := by
  refine ⟨?_, fun i hi => absurd rfl (mem_tblDrop _ _ _ hi).2, fun i => ?_⟩
  · simp only [MediaChan.ext, MediaChan.wiped, tblGet_drop_self, Option.getD_none]
  · refine (tblGet_filter_key (fun k => decide (extOf k ≠ e)) i c.slots).trans ?_
    by_cases h : extOf i = e
    · rw [if_neg (by simp [h])]
      exact (if_pos h).symm
    · rw [if_pos (by simp [h])]
      exact (if_neg h).symm

theorem MediaChan.not_filled_of_makeBad {c : MediaChan} {e : Nat} (hs : tblSorted c.exts = true) :
    ∀ i, (e, i) ∈ (c.makeBad e).exts → i.state ≠ .filled := by
  intro i hi
  rw [eq_of_mem_tblPut_self hs hi]
  exact fun h => by cases h

/-- A mark made once more joins the queue in its original place, of which the first 512 stand queued. -/
theorem Works.markAgain_eq (w : Works) (mc : Fin 4) (o : Op) (htasks : w.tasks = []) :
    let repeated := insertBy (fun a b => decide (a.arrival < b.arrival)) o (w.chan mc).queue
    w.markAgain mc o = { w with
      tasks := [.grant mc]
      array := { w.array with
        chans := w.array.chans.set mc
          { w.chan mc with busy := none, queue := repeated.take 512, waiting := repeated.drop 512 ++ (w.chan mc).waiting } } } := by
  intro repeated
  refine Eq.trans (b := { w with
      tasks := w.tasks ++ [.grant mc]
      array := { w.array with
        chans := w.array.chans.set mc
          { w.chan mc with busy := none, queue := repeated.take 512, waiting := repeated.drop 512 ++ (w.chan mc).waiting } } }) rfl ?_
  rw [htasks]
  rfl

/-- Settles O38: a cleared or BAD extent is not FILLED, so that the next source taken is another. -/
theorem clearedExtentIsClearAndAFailedOneIsRetired : Obligations.ClearedExtentIsClearAndAFailedOneIsRetired := by
  intro mc s o e hq hbusy hstray hsorted
  have hmedia : ∀ f : Media → Media, (s.mapMedia mc f).media.get mc = f (s.media.get mc) ∧
      ∀ c, c ≠ mc → (s.mapMedia mc f).media.get c = s.media.get c := fun f =>
    ⟨Quad.get_modify_self _ _ _, fun c hc => Quad.get_set_other _ _ _ _ hc⟩
  refine ⟨fun hkind => ⟨?passed, fun found => ?failed⟩, fun again hkind => ?retire⟩
  case passed =>
    obtain ⟨hself, hothers⟩ := hmedia fun m => m.clearDone e .passed
    obtain ⟨hstep, halloc⟩ := Works.cleared_onChan s.ctx s.works mc e
    obtain ⟨-, ⟨l, b, hdone, hidle⟩, -⟩ := hstep
    obtain ⟨hext, hfilled, hslot⟩ := (s.works.chan mc).wiped_facts e
    obtain ⟨hslots, hext', hsource⟩ := hdone.keeps hfilled
    have hslot' : ∀ i, (s.works.cleared s.ctx mc e).slot ⟨mc, i⟩ = if i / 64 = e then none else s.works.slot ⟨mc, i⟩ := fun i =>
      (congrArg (tblGet i) hslots).trans (hslot i)
    refine ⟨_, s.works.cleared s.ctx mc e, (exec_clearDone hbusy hstray hkind .passed).trans rfl, rfl, hothers, by rw [hself]; rfl,
      fun i hi => ⟨?_, ?_⟩, fun i hi => ⟨?_, ?_⟩, hidle, (Works.cleared_onChan s.ctx s.works mc e).1.days, hext'.trans hext, hsource, halloc⟩
    · rw [hself]
      exact (Media.clearExt_cell _ _ _).trans (if_pos hi)
    · exact (hslot' i).trans (if_pos hi)
    · rw [hself]
      exact (Media.clearExt_cell _ _ _).trans (if_neg hi)
    · exact (hslot' i).trans (if_neg hi)
  case failed =>
    obtain ⟨hself, hothers⟩ := hmedia fun m => m.clearDone e (.failed found)
    obtain ⟨hret, hcell⟩ := (s.media.get mc).putAll_frame e found
    refine ⟨_, _, (exec_clearDone hbusy hstray hkind (.failed found)).trans rfl, rfl, hothers, by rw [hself]; exact hret, fun i hi => ?_,
      rfl, ?_⟩
    · rw [hself]
      exact hcell i fun p _ hp => by
        simp only [Config.extentSlots] at hp ⊢
        omega
    · intro asked c
      obtain ⟨-, hchan, -⟩ := Works.opEnded_onChan (s.works.askOp mc (.retireMark e false) false) mc
      refine hchan.trans ?_
      rw [Works.askOp_chan_self]
      show _ = if c.queue.length < Config.opQueue then _ else _
      split <;> rfl
  case retire =>
    intro left bad
    have hbad : bad (s.works.retired s.ctx mc e) := by
      obtain ⟨-, ⟨b, hdone, hidle⟩, -⟩ := Works.retired_onChan s.ctx s.works mc e
      obtain ⟨hslots, hext, hsource⟩ := hdone.keeps (MediaChan.not_filled_of_makeBad hsorted)
      have hslot : ∀ i, (s.works.retired s.ctx mc e).slot ⟨mc, i⟩ = if i / 64 = e then some ⟨.bad, .data⟩ else s.works.slot ⟨mc, i⟩ :=
        fun i => (congrArg (tblGet i) hslots).trans ((s.works.chan mc).makeBad_slot e i)
      refine ⟨?_, hidle, (Works.retired_onChan s.ctx s.works mc e).days, fun i hi => ?_, fun i hi => ?_⟩
      · have hstate := congrArg ExtInfo.state ((s.works.chan mc).setExt_ext_self e .bad)
        exact (congrArg ExtInfo.state hext).trans hstate
      · rw [hslot, if_pos hi]
        rfl
      · rw [hslot, if_neg hi]
    have hleft : ∀ marked, (s.mapMedia mc fun m => m.retireMarked e (.failed marked)) = left marked := fun marked =>
      State.mapMedia_ite s mc marked fun m => m.retire e
    refine ⟨⟨_, (exec_retireMarkDone hbusy hstray hkind .passed).trans rfl, hbad, ?_, ?_⟩, fun marked => ⟨fun hagain => ?_, fun hagain => ?_⟩⟩
    · exact (congrArg (fun m => e ∈ m.retired) (Quad.get_set_self s.media mc _)).mpr (Media.mem_retire_self _ _)
    · exact (congrArg Media.cells (Quad.get_set_self s.media mc ((s.media.get mc).retire e))).trans rfl
    · intro repeated
      have hexec := exec_retireMarkDone hbusy hstray hkind (.failed marked)
      rw [hleft, if_neg (by simp [markOk, hagain])] at hexec
      exact hexec.trans (congrArg (fun w => (left marked).settled w) (s.works.markAgain_eq mc _ hq))
    · have hexec := exec_retireMarkDone hbusy hstray hkind (.failed marked)
      rw [hleft, if_pos (by simp [hagain])] at hexec
      exact ⟨_, hexec, hbad⟩

end Sys2Proof.Machine
end

section
/-!
SUPPORT. Void marks (R104): their ends, what they owe to a day, and a day's removal by steps (R49).
-/

namespace Sys2Proof.Machine

/-! ## Failures counted (R96, R99) -/

/-- A channel with one failure more of an extent. -/
def MediaChan.Failed (e : Nat) (c d : MediaChan) : Prop :=
  d = { c with exts := d.exts, openExt := d.openExt, lowArmed := d.lowArmed } ∧
    (d.ext e).failures = min 2 ((c.ext e).failures + 1)

theorem Works.failExt_onChan (x : Ctx) (w : Works) (mc : Fin 4) (e : Nat) :
    w.OnChan (MediaChan.Failed e) mc (w.failExt x mc e) := by
  have hfail : w.OnChan (MediaChan.Failed e) mc (w.mapChan mc fun c =>
      { c with exts := tblPut e ⟨((w.chan mc).ext e).state, min 2 (((w.chan mc).ext e).failures + 1)⟩ c.exts }) := by
    refine Works.OnChan.map w mc _ ⟨rfl, ?_⟩
    simp only [MediaChan.ext, tblGet_put_self, Option.getD_some]
  unfold Works.failExt
  dsimp only
  split
  · exact hfail
  · refine Works.OnChan.rearm (R := MediaChan.Failed e) ?_ (Works.spaceChanged_onChan x _ mc) fun c d l h => ⟨?_, h.2⟩
    · split
      · refine hfail.trans (Works.OnChan.map _ mc (R := fun c d => d = { c.setExt e .filled with openExt := none }) _ rfl) ?_
        rintro c d f ⟨hd, hcount⟩ hf
        refine ⟨by rw [hf, hd]; rfl, ?_⟩
        rw [hf]
        exact (congrArg ExtInfo.failures (d.setExt_ext_self e .filled)).trans hcount
      · exact hfail
    · rw [h.1]

/-! ## The end of a void mark (R104) -/

/-- The cache with no attached image of a slot. -/
theorem Works.detach_cache (w : Works) (a : SlotAddr) : ∀ i ∈ (w.detach a).array.cache, i.slot = a → i.attached = false := by
  intro i hi hslot
  obtain ⟨j, -, rfl⟩ := List.mem_map.mp (List.mem_filter.mp hi).1
  split
  · rfl
  · next hne =>
    rw [if_neg hne] at hslot
    exact absurd (decide_eq_true hslot) hne

/-- What the end of a void mark leaves: its slot STALE and detached, those told who asked, the channel idle. -/
theorem Works.voidEnded_facts (x : Ctx) (w : Works) (mc : Fin 4) (idx : Nat) (who : List VoidOwner) (failed : Bool) :
    let t := w.voidEnded x mc idx who failed
    (t.slot ⟨mc, idx⟩).map (fun i => i.state) = some .stale ∧ (∀ i ∈ t.array.cache, i.slot = ⟨mc, idx⟩ → i.attached = false) ∧
      (failed = true → ((t.chan mc).ext (extOf idx)).failures = min 2 (((w.chan mc).ext (extOf idx)).failures + 1)) ∧
      (∀ v ∈ who, .voidDone v ⟨mc, idx⟩ ∈ t.tasks) ∧ (t.chan mc).busy = none ∧ t.days = w.days := by
  intro t
  let w₁ : Works := (w.mapChan mc fun c => c.stale idx).detach ⟨mc, idx⟩
  let w₂ : Works := if failed then w₁.failExt x mc (extOf idx) else w₁
  have hchan : w₁.chan mc = (w.chan mc).stale idx := w.mapChan_chan_self mc _
  have hstep : w₁.OnChan (fun c d => d.slots = c.slots ∧ (failed = true → (d.ext (extOf idx)).failures = min 2 ((c.ext (extOf idx)).failures + 1)))
      mc w₂ := by
    cases failed with
    | true =>
      refine (w₁.failExt_onChan x mc (extOf idx)).mono fun h => ⟨?_, fun _ => h.2⟩
      rw [h.1]
    | false => exact (Works.OnChan.refl mc w₁).mono fun h => ⟨by rw [h], fun hf => by cases hf⟩
  have htold := (hstep.then_eq (Works.OnChan.tell mc w₂ (who.map fun o => Task.voidDone o ⟨mc, idx⟩))).then_eq
    (Works.OnChan.tell mc _ [.relocationTest mc, .relocationSettle mc])
  have hended := Works.opEnded_onChan
    ((w₂.addTasks (who.map fun o => Task.voidDone o ⟨mc, idx⟩)).addTasks [.relocationTest mc, .relocationSettle mc]) mc
  have hall : w₁.OnChan (fun c d => d.slots = c.slots ∧
      (failed = true → (d.ext (extOf idx)).failures = min 2 ((c.ext (extOf idx)).failures + 1)) ∧ d.busy = none) mc t :=
    htold.trans hended fun c d e h he => by rw [he]; exact ⟨h.1, h.2, rfl⟩
  have hdays := hall.days
  have hcache := hall.cache
  obtain ⟨-, ⟨hslots, hcount, hidle⟩, -⟩ := hall
  refine ⟨?_, ?_, fun hf => ?_, fun v hv => ?_, hidle, hdays⟩
  · have hslot : t.slot ⟨mc, idx⟩ = tblGet idx (w₁.chan mc).slots := congrArg (tblGet idx) hslots
    rw [hslot, hchan]
    simp only [MediaChan.stale, MediaChan.setSlot, tblGet_put_self, Option.map_some]
  · rw [hcache]
    exact Works.detach_cache _ _
  · have := hcount hf
    rw [hchan] at this
    exact this
  · exact hended.mem_tasks (List.mem_append_left _ (List.mem_append_right _ (List.mem_map.mpr ⟨v, hv, rfl⟩)))

theorem exec_voidMarkDone {mc : Fin 4} {s : State} {o : Op} {idx : Nat} {who : List VoidOwner} {again : Bool}
    (hbusy : (s.works.chan mc).busy = some o) (hstray : o.stray = false) (hkind : o.kind = .voidMark idx who again) (r : MarkEnd) :
    exec (.voidMarkDone mc r) s = (s.mapMedia mc fun m => m.voided idx r).settled
      (if markOk r || again then s.works.voidEnded s.ctx mc idx who !(markOk r)
        else s.works.markAgain mc { o with kind := .voidMark idx who true }) := by
  change execVoidMarkDone mc r s = _
  simp only [execVoidMarkDone, hbusy, hkind, hstray, Bool.false_eq_true, if_false]
  rfl

/-! ## A day's marks and its removal -/

theorem tblGet_map_snd {α β : Type} (f : α → β) (k : Nat) (t : Tbl α) :
    tblGet k (t.map fun p => (p.1, f p.2)) = (tblGet k t).map f := by
  induction t with
  | nil => rfl
  | cons p t ih =>
    by_cases hk : p.1 = k
    · simp [tblGet, hk]
    · simpa [tblGet, hk] using ih

theorem Works.markPaid_eq {w : Works} {d : Nat} {e : DayEntry} (h : w.day d = some e) :
    w.markPaid d = if e.owed ≤ 1 then (w.mapDay d fun e => { e with owed := e.owed - 1 }).task .scan
      else w.mapDay d fun e => { e with owed := e.owed - 1 } := by
  have hday : (w.mapDay d fun e => { e with owed := e.owed - 1 }).day d = some { e with owed := e.owed - 1 } := by
    simp only [Works.day, Works.mapDay_days, tblGet_modify, if_true]
    exact congrArg (Option.map _) h
  simp only [Works.markPaid, hday, Option.any_some, decide_eq_true_eq]
  exact if_congr (by omega) rfl rfl

/-- A file whose waiting parcel is reconsidered: it waits on for what holds it back now, from when it has waited. -/
def Works.reconsider (w : Works) (f : File) : File :=
  let again (p : Parcel) : Parcel := { p with wait := p.wait.bind fun t => (w.parcelCause p).map fun c => (t.1, c) }
  { f with parcel := f.parcel.map again }

theorem Works.rewait_file (w : Works) (slot : Nat) :
    tblGet slot w.rewait.intake.files = (tblGet slot w.intake.files).map w.reconsider :=
  tblGet_map_snd w.reconsider slot w.intake.files

/-- Settles O37: a void mark's end makes its slot STALE whichever way it ends; the owner's next step follows. -/
theorem voidMarkMakesTheSlotStale : Obligations.VoidMarkMakesTheSlotStale := by
  refine ⟨fun mc s o idx who again hq hbusy hkind hstray => ?_, fun w a who i hasked hon hslot hlive hlen => ?_, fun x w d a => ?_⟩
  · intro left
    have hexec := exec_voidMarkDone hbusy hstray hkind
    have hleft : ∀ marked, (s.mapMedia mc fun m => m.voided idx (.failed marked)) = left marked := fun marked =>
      State.mapMedia_ite s mc marked fun m => m.mark idx
    refine ⟨?passed, fun marked => ⟨fun hagain => ?repeats, fun hagain => ?failed⟩⟩
    case passed =>
      obtain ⟨hslot, hcache, -, htold, hidle, hdays⟩ := Works.voidEnded_facts s.ctx s.works mc idx who false
      exact ⟨_, hexec .passed, hslot, hcache, htold, hidle, hdays⟩
    case repeats =>
      have hmade := hexec (.failed marked)
      rw [hleft, if_neg (by simp [markOk, hagain])] at hmade
      exact hmade.trans (congrArg (fun w => (left marked).settled w) (s.works.markAgain_eq mc _ hq))
    case failed =>
      have hmade := hexec (.failed marked)
      rw [hleft, if_pos (by simp [hagain])] at hmade
      obtain ⟨hslot, hcache, hcount, htold, hidle, hdays⟩ := Works.voidEnded_facts s.ctx s.works mc idx who true
      exact ⟨_, hmade, hslot, hcache, hcount rfl, htold, hidle, hdays⟩
  · simp only [MediaChan.voidAsked, Bool.or_eq_false_iff] at hasked
    obtain ⟨hops, howed⟩ := hasked
    have hread : ((w.chan a.ch).slot a.idx).any (·.readable) = true := by
      rw [show (w.chan a.ch).slot a.idx = some i from hslot]
      simp [SlotInfo.readable, hlive]
    have hask : w.voidMark a who = w.askOp a.ch (.voidMark a.idx [who] false) false := by
      simp only [Works.voidMark, hops, howed, hon, hread, Bool.false_eq_true, if_false, Bool.not_true, Bool.or_self, if_true]
    rw [hask, Works.askOp_chan_self, if_pos (show _ < Config.opQueue from hlen)]
  · intro with_
    refine ⟨fun e hday => ?_, fun e p hday hsum => ?_, fun e hday hsum => ?_, fun e b hday hgone => ?_, rfl,
      fun slot f p since rec rest hday hgate hfile hparcel hwait hrest hstart => ?_⟩
    · exact Works.markPaid_eq hday
    · simp only [Works.runTask, Works.postedLive, Works.dayGoneLive, hday, hsum]
      rfl
    · simp only [Works.runTask, Works.postedLive, Works.dayGoneLive, hday, hsum]
    · simp only [Works.runTask, Works.voidTold, Works.dayGoneMarked, hday, Bool.false_eq_true, if_false, Option.bind_some, hgone]
      rfl
    · have hcause : w.parcelCause p = none := by
        simp only [Works.parcelCause, hgate, Bool.false_eq_true, if_false, hrest, hstart, Works.going, hday, Option.any_none]
      refine (w.rewait_file slot).trans ?_
      rw [hfile]
      simp only [Option.map_some, Works.reconsider, hparcel, hcause, Option.map_none, hwait, Option.bind_some]

end Sys2Proof.Machine
end

section
/-!
SUPPORT. Media reads (R100): their ends outside and within the rebuild's scan (R178), and the arbiter's grant (R103).
-/

namespace Sys2Proof.Machine

/-! ## A good image (R100, R101) -/

/-- An image attached to a slot is the most recent of the cache. -/
def Works.HeadImage (w : Works) (a : SlotAddr) (b : Bytes) : Prop :=
  ∃ i, w.array.cache.head? = some i ∧ i.slot = a ∧ i.image = b ∧ i.attached = true

theorem Works.enterCache_head (w : Works) (a : SlotAddr) (b : Bytes) : (w.enterCache a b).2.HeadImage a b := by
  unfold Works.enterCache
  split
  · next i hcached =>
    have hfind := List.find?_some hcached
    simp only [Bool.and_eq_true, decide_eq_true_eq] at hfind
    obtain ⟨hattached, hslot⟩ := hfind
    split
    · exact ⟨{ i with image := b }, rfl, hslot, rfl, hattached⟩
    · exact ⟨_, rfl, rfl, rfl, rfl⟩
  · exact ⟨_, rfl, rfl, rfl, rfl⟩

theorem Works.serve_head {w : Works} {a : SlotAddr} {b c : Bytes} (who : Requester) (id : Nat) (h : w.HeadImage a b) :
    (w.serve who id c).HeadImage a b := by
  obtain ⟨i, hi, hslot, himage, hattached⟩ := h
  unfold Works.serve
  split
  · refine ⟨if decide (i.id = id) then { i with pins := i.pins + 1 } else i, ?_, ?_⟩
    · simp only [Works.task_array, Works.pin, updateWhere, List.head?_map, hi, Option.map_some]
    · split
      · exact ⟨hslot, himage, hattached⟩
      · exact ⟨hslot, himage, hattached⟩
  · exact ⟨i, hi, hslot, himage, hattached⟩

/-- The answer that serving an image gives, pinned for a pinned read alone. -/
theorem Works.mem_serve_tasks (w : Works) (who : Requester) (id : Nat) (b : Bytes) :
    (∃ pin, .answer who (.image b pin) ∈ (w.serve who id b).tasks ∧ (pin.isSome ↔ who.pinned = true)) ∧
      ∀ t ∈ w.tasks, t ∈ (w.serve who id b).tasks := by
  unfold Works.serve
  split
  · next hp => exact ⟨⟨some id, List.mem_append_right _ (List.mem_singleton.mpr rfl), by simp [hp]⟩, fun t ht => List.mem_append_left _ ht⟩
  · next hp => exact ⟨⟨none, List.mem_append_right _ (List.mem_singleton.mpr rfl), by simp [hp]⟩, fun t ht => List.mem_append_left _ ht⟩

/-- An image served to every requester of a read. -/
theorem Works.serveAll_facts (a : SlotAddr) (id : Nat) (b : Bytes) (who : List (Requester × Bool)) (w : Works) (h : w.HeadImage a b) :
    let t := who.foldl (fun w r => w.serve r.1 id b) w
    t.HeadImage a b ∧ t.days = w.days ∧ (∀ s ∈ w.tasks, s ∈ t.tasks) ∧
      ∀ q ∈ who, ∃ pin, .answer q.1 (.image b pin) ∈ t.tasks ∧ (pin.isSome ↔ q.1.pinned = true) := by
  induction who generalizing w with
  | nil => exact ⟨h, rfl, fun _ hs => hs, fun q hq => by cases hq⟩
  | cons r l ih =>
    obtain ⟨hhead, hdays, htasks, hanswers⟩ := ih (w.serve r.1 id b) (Works.serve_head r.1 id h)
    obtain ⟨⟨pin, hpin, hiff⟩, hkept⟩ := w.mem_serve_tasks r.1 id b
    obtain ⟨tasks, cache, hserve⟩ := w.serve_frame r.1 id b
    refine ⟨hhead, hdays.trans (by rw [hserve]), fun s hs => htasks _ (hkept s hs), fun q hq => ?_⟩
    rcases List.mem_cons.mp hq with rfl | hq
    · exact ⟨pin, htasks _ hpin, hiff⟩
    · exact hanswers q hq

section
variable {x : Ctx} {w : Works} {mc : Fin 4} {op : Op} {idx : Nat} {who : List (Requester × Bool)}

/-- A read that gave a good image. -/
theorem Works.readEnded_good {again : Bool} {image : Option Bytes} {b : Bytes} (himage : image = some b) (hb : (readSheet b).isSome) :
    let t := w.readEnded x mc op idx who again image
    (t.chan mc).busy = none ∧ t.days = w.days ∧ t.HeadImage ⟨mc, idx⟩ b ∧
      ∀ q ∈ who, ∃ pin, .answer q.1 (.image b pin) ∈ t.tasks ∧ (pin.isSome ↔ q.1.pinned = true) := by
  intro t
  have ht : t = (who.foldl (fun v r => v.serve r.1 (w.enterCache ⟨mc, idx⟩ b).1 b) (w.enterCache ⟨mc, idx⟩ b).2).opEnded mc := by
    have hfilter : image.filter (fun b => (readSheet b).isSome) = some b := by simp [himage, hb]
    simp only [t, Works.readEnded, hfilter]
  obtain ⟨hhead, hdays, -, hanswers⟩ :=
    Works.serveAll_facts ⟨mc, idx⟩ (w.enterCache ⟨mc, idx⟩ b).1 b who _ (w.enterCache_head ⟨mc, idx⟩ b)
  obtain ⟨serial, cache, henter⟩ := w.enterCache_frame ⟨mc, idx⟩ b
  have hended := Works.opEnded_onChan (who.foldl (fun v r => v.serve r.1 (w.enterCache ⟨mc, idx⟩ b).1 b) (w.enterCache ⟨mc, idx⟩ b).2) mc
  rw [← ht] at hended
  refine ⟨by rw [hended.2.1], hended.days.trans (hdays.trans (by rw [henter])), ?_, fun q hq => ?_⟩
  · unfold Works.HeadImage
    rw [hended.cache]
    exact hhead
  · obtain ⟨pin, hpin, hiff⟩ := hanswers q hq
    exact ⟨pin, hended.mem_tasks hpin, hiff⟩

/-! ## A bad image (R44, R100) -/

variable {image : Option Bytes} (hbad : ∀ b, image = some b → readSheet b = none)
include hbad

theorem filter_readable_eq_none : image.filter (fun b => (readSheet b).isSome) = none := by
  cases image with
  | none => rfl
  | some b => simp [hbad b rfl]

theorem Works.readEnded_again : w.readEnded x mc op idx who false image = w.markAgain mc { op with kind := .read idx who true } := by
  simp only [Works.readEnded, filter_readable_eq_none hbad, Bool.not_false, if_true]
  rfl

/-- A read that failed twice. -/
theorem Works.readEnded_failed :
    let t := w.readEnded x mc op idx who true image
    let before := w.quarantinedAt ⟨mc, idx⟩
    (t.chan mc).busy = none ∧
      (∀ q ∈ who, .answer q.1 (if before ∧ q.1 = .scrub then .gone else .failed) ∈ t.tasks) ∧
      ∀ d cls e, w.entryOfSlot ⟨mc, idx⟩ = some (d, cls, e) → t.days = (w.quarantine x (e.ref d cls)).days := by
  intro t before
  let v : Works := match w.entryOfSlot ⟨mc, idx⟩ with
    | some (d, cls, e) => w.quarantine x (e.ref d cls)
    | none => w
  let told : Works := v.addTasks (who.map fun r => Task.answer r.1 (if before ∧ r.1 = .scrub then .gone else .failed))
  have ht : t = told.opEnded mc := by
    simp only [t, Works.readEnded, filter_readable_eq_none hbad, Bool.not_true, Bool.false_eq_true, if_false]
    rfl
  have hended := Works.opEnded_onChan told mc
  rw [← ht] at hended
  refine ⟨by rw [hended.2.1], fun q hq => hended.mem_tasks (List.mem_append_right _ (List.mem_map.mpr ⟨q, hq, rfl⟩)), fun d cls e he => ?_⟩
  have hv : v = w.quarantine x (e.ref d cls) := by simp only [v, he]
  rw [hended.days, ← hv]
  rfl

end

/-! ## The scan's reads (R178) -/

/-- A void mark asked changes none of the slots and extents of its channel's tables. -/
theorem Works.voidMark_onChan (w : Works) (a : SlotAddr) (who : VoidOwner) :
    w.OnChan (fun c d => d.slots = c.slots ∧ d.exts = c.exts) a.ch (w.voidMark a who) := by
  unfold Works.voidMark
  dsimp only
  split
  · exact Works.OnChan.map w a.ch _ ⟨rfl, rfl⟩
  · split
    · refine Works.OnChan.map w a.ch _ ?_
      unfold MediaChan.owe
      split
      · exact ⟨rfl, rfl⟩
      · exact ⟨rfl, rfl⟩
    · split
      · refine Works.OnChan.ask w a.ch _ _ ?_
        rw [Works.askOp_chan_self]
        split
        · exact ⟨rfl, rfl⟩
        · exact ⟨rfl, rfl⟩
      · exact (Works.OnChan.tell a.ch w [_]).mono fun h => by rw [h]; exact ⟨rfl, rfl⟩

/-- A slot recorded as the scan found it, before the test of the scan's end. -/
def Works.recorded (w : Works) (mc : Fin 4) (idx : Nat) : ScanFound → Works
  | .retired => ((w.mapChan mc fun c => c.makeBad (extOf idx)).mapRebuild fun r =>
      { r with cands := r.cands.filter fun c => decide (c.slot.ch ≠ mc) || decide (extOf c.slot.idx ≠ extOf idx) }).scanTo mc
        (Config.extentSlots * (extOf idx + 1))
  | .erased => w.scanTo mc (idx + 1)
  | .voided => (w.mapChan mc fun c => c.foundSlot idx ⟨.stale, .data⟩).scanTo mc (idx + 1)
  | .failing => (((w.mapChan mc fun c => c.foundSlot idx ⟨.stale, .data⟩).mapRebuild fun r =>
      { r with marks := r.marks + 1, counts := { r.counts with stale := r.counts.stale + 1 } }).scanTo mc (idx + 1)).voidMark
        ⟨mc, idx⟩ .rebuild
  | .sheet image cand => (((w.mapChan mc fun c => c.foundSlot idx ⟨.live, cand.content.kind⟩).mapRebuild fun r =>
      { r with cands := r.cands ++ [cand] }).enterCache ⟨mc, idx⟩ image).2.scanTo mc (idx + 1)

theorem Works.recordSlot_eq (x : Ctx) (w : Works) (mc : Fin 4) (idx : Nat) (f : ScanFound) :
    ∃ l, w.recordSlot x mc idx f = (w.recorded mc idx f).addTasks l := by
  have hrecord : w.recordSlot x mc idx f = if (w.recorded mc idx f).scanned x then (w.recorded mc idx f).task .resolve
      else w.recorded mc idx f := by
    cases f <;> rfl
  rw [hrecord]
  split
  · exact ⟨[.resolve], rfl⟩
  · exact ⟨[], by simp [Works.addTasks]⟩

section
variable {x : Ctx} {w : Works} {mc : Fin 4} {op : Op} {idx : Nat} {who : List (Requester × Bool)} {again : Bool} {f : ScanFound}

/-- A read of the scan whose finding is recorded. -/
theorem Works.scanRead_recorded (h : f = .failing → again = true) :
    let t := w.scanRead x mc op idx who again f
    t.days = (w.recorded mc idx f).days ∧ t.rebuild = (w.recorded mc idx f).rebuild ∧
      t.chan mc = { (w.recorded mc idx f).chan mc with busy := none } := by
  intro t
  have ht : t = (w.recordSlot x mc idx f).opEnded mc := by
    cases f with
    | failing => simp only [t, h rfl, Works.scanRead]
    | _ => rfl
  obtain ⟨l, hl⟩ := w.recordSlot_eq x mc idx f
  obtain ⟨⟨more, serial, port, full, heq⟩, hchan, -⟩ := Works.opEnded_onChan (w.recordSlot x mc idx f) mc
  rw [← ht] at heq hchan
  rw [hl] at hchan
  exact ⟨by rw [heq, hl]; rfl, by rw [heq, hl]; rfl, hchan⟩

theorem Works.scanRead_again : w.scanRead x mc op idx who false .failing = w.markAgain mc { op with kind := .read idx who true } := rfl

end

theorem MediaChan.foundSlot_slot (c : MediaChan) (idx : Nat) (i : SlotInfo) : (c.foundSlot idx i).slot idx = some i :=
  tblGet_put_self _ _ _

theorem MediaChan.foundSlot_ext (c : MediaChan) (idx : Nat) (i : SlotInfo) : ((c.foundSlot idx i).ext (idx / 64)).state = .filled :=
  congrArg ExtInfo.state (c.setExt_ext_self (idx / 64) .filled)

theorem Works.recorded_retired (w : Works) (mc : Fin 4) (idx : Nat) :
    (w.recorded mc idx .retired).days = w.days ∧ (w.recorded mc idx .retired).chan mc = (w.chan mc).makeBad (idx / 64) ∧
      (w.recorded mc idx .retired).rebuild = { w.rebuild with
        scans := w.rebuild.scans.set mc ⟨64 * (idx / 64 + 1), false⟩
        cands := w.rebuild.cands.filter fun c => decide (¬ (c.slot.ch = mc ∧ c.slot.idx / 64 = idx / 64)) } := by
  refine ⟨rfl, w.mapChan_chan_self mc _, ?_⟩
  have hfilter : (w.rebuild.cands.filter fun c => decide (c.slot.ch ≠ mc) || decide (extOf c.slot.idx ≠ extOf idx)) =
      w.rebuild.cands.filter fun c => decide (¬ (c.slot.ch = mc ∧ c.slot.idx / 64 = idx / 64)) := by
    refine List.filter_congr fun c _ => ?_
    rw [Bool.eq_iff_iff]
    simp only [Bool.or_eq_true, decide_eq_true_eq, not_and_or]
    rfl
  rw [← hfilter]
  rfl

theorem Works.recorded_failing (w : Works) (mc : Fin 4) (idx : Nat) :
    (w.recorded mc idx .failing).days = w.days ∧ ((w.recorded mc idx .failing).chan mc).slots = ((w.chan mc).foundSlot idx ⟨.stale, .data⟩).slots ∧
      ((w.recorded mc idx .failing).chan mc).exts = ((w.chan mc).foundSlot idx ⟨.stale, .data⟩).exts ∧
      (w.recorded mc idx .failing).rebuild = { w.rebuild with
        marks := w.rebuild.marks + 1, counts := { w.rebuild.counts with stale := w.rebuild.counts.stale + 1 },
        scans := w.rebuild.scans.set mc ⟨idx + 1, false⟩ } := by
  have hmark := Works.voidMark_onChan (((w.mapChan mc fun c => c.foundSlot idx ⟨.stale, .data⟩).mapRebuild fun r =>
      { r with marks := r.marks + 1, counts := { r.counts with stale := r.counts.stale + 1 } }).scanTo mc (idx + 1)) ⟨mc, idx⟩ .rebuild
  have hdays := hmark.days
  obtain ⟨⟨more, serial, port, full, heq⟩, ⟨hslots, hexts⟩, -⟩ := hmark
  have hchan := w.mapChan_chan_self mc fun c => c.foundSlot idx ⟨.stale, .data⟩
  exact ⟨hdays, hslots.trans (congrArg MediaChan.slots hchan), hexts.trans (congrArg MediaChan.exts hchan), congrArg Works.rebuild heq⟩

theorem Works.recorded_sheet (w : Works) (mc : Fin 4) (idx : Nat) (image : Bytes) (cand : Cand) :
    (w.recorded mc idx (.sheet image cand)).days = w.days ∧
      (w.recorded mc idx (.sheet image cand)).chan mc = (w.chan mc).foundSlot idx ⟨.live, cand.content.kind⟩ ∧
      (w.recorded mc idx (.sheet image cand)).rebuild = { w.rebuild with
        scans := w.rebuild.scans.set mc ⟨idx + 1, false⟩, cands := w.rebuild.cands ++ [cand] } := by
  obtain ⟨serial, cache, henter⟩ := Works.enterCache_frame ((w.mapChan mc fun c => c.foundSlot idx ⟨.live, cand.content.kind⟩).mapRebuild
    fun r => { r with cands := r.cands ++ [cand] }) ⟨mc, idx⟩ image
  have hrecord : w.recorded mc idx (.sheet image cand) = Works.scanTo _ mc (idx + 1) := rfl
  rw [hrecord, henter]
  exact ⟨rfl, w.mapChan_chan_self mc _, rfl⟩

/-- A read of the scan changes no day. -/
theorem Works.scanRead_days (x : Ctx) (w : Works) (mc : Fin 4) (op : Op) (idx : Nat) (who : List (Requester × Bool)) (again : Bool)
    (f : ScanFound) : (w.scanRead x mc op idx who again f).days = w.days := by
  by_cases h : f = .failing → again = true
  · refine (Works.scanRead_recorded h).1.trans ?_
    cases f with
    | failing => exact (w.recorded_failing mc idx).1
    | sheet image cand => exact (w.recorded_sheet mc idx image cand).1
    | _ => rfl
  · obtain ⟨hf, hagain⟩ := Classical.not_imp.mp h
    rw [hf, Bool.eq_false_of_not_eq_true hagain]
    rfl

/-! ## What the scan finds -/

section
variable {a : SlotAddr} {cell : Cell}

theorem scanFound_retired : scanFound a true cell .asStored = .retired := rfl

theorem scanFound_erased : scanFound a false ⟨none, false⟩ .asStored = .erased := rfl

theorem scanFound_voided (h : cell.voided = true) : scanFound a false cell .asStored = .voided := by
  simp only [scanFound, Bool.false_eq_true, if_false, h, if_true]

theorem scanFound_failing {b : Bytes} (h : readSheet b = none) : scanFound a false ⟨some b, false⟩ .asStored = .failing := by
  simp only [scanFound, Bool.false_eq_true, if_false, h]

theorem scanFound_sheet {b : Bytes} {t : Sheet} (h : readSheet b = some t) :
    scanFound a false ⟨some b, false⟩ .asStored = .sheet b (candOf a t) := by
  simp only [scanFound, Bool.false_eq_true, if_false, h]

end

/-! ## The arbiter (R103) -/

/-- Whether an operation is the oldest of its class in a channel's queue. -/
def MediaChan.Oldest (c : MediaChan) (foreground : Bool) (o : Op) : Prop :=
  o ∈ c.queue ∧ o.foreground = foreground ∧ ∀ p ∈ c.queue, p.foreground = foreground → p ≠ o → o.arrival < p.arrival

theorem foldl_older_eq (l : List Op) (b o : Op) (hmem : o ∈ b :: l) (hold : ∀ p ∈ b :: l, p ≠ o → o.arrival < p.arrival) :
    l.foldl (fun b o => match b with | none => some o | some p => if o.arrival < p.arrival then some o else some p) (some b) =
      some o := by
  induction l generalizing b with
  | nil => rw [List.foldl_nil, List.mem_singleton.mp hmem]
  | cons a l ih =>
    rw [List.foldl_cons]
    dsimp only
    split
    · next hlt =>
      refine ih a ?_ fun p hp => hold p (List.mem_cons_of_mem _ hp)
      rcases List.mem_cons.mp hmem with rfl | hmem
      · by_cases ha : a = o
        · exact ha ▸ List.mem_cons_self
        · have := hold a (by simp) ha
          omega
      · exact hmem
    · next hlt =>
      refine ih b ?_ fun p hp => hold p ?_
      · rcases List.mem_cons.mp hmem with rfl | hmem
        · exact List.mem_cons_self
        · rcases List.mem_cons.mp hmem with rfl | hmem
          · by_cases hb : b = o
            · exact hb ▸ List.mem_cons_self
            · exact absurd (hold b List.mem_cons_self hb) hlt
          · exact List.mem_cons_of_mem _ hmem
      · rcases List.mem_cons.mp hp with rfl | hp
        · exact List.mem_cons_self
        · exact List.mem_cons_of_mem _ (List.mem_cons_of_mem _ hp)

theorem MediaChan.oldest_eq {c : MediaChan} {foreground : Bool} {o : Op} (h : c.Oldest foreground o) : c.oldest foreground = some o := by
  obtain ⟨hmem, hclass, hold⟩ := h
  unfold MediaChan.oldest
  have hmem' : o ∈ c.queue.filter fun o => decide (o.foreground = foreground) :=
    List.mem_filter.mpr ⟨hmem, decide_eq_true hclass⟩
  have hold' : ∀ p ∈ c.queue.filter fun o => decide (o.foreground = foreground), p ≠ o → o.arrival < p.arrival := fun p hp =>
    hold p (List.mem_filter.mp hp).1 (of_decide_eq_true (List.mem_filter.mp hp).2)
  generalize (c.queue.filter fun o => decide (o.foreground = foreground)) = l at hmem' hold'
  cases l with
  | nil => cases hmem'
  | cons b l => exact foldl_older_eq l b o hmem' hold'

theorem foldl_older_isSome (l : List Op) (b : Op) :
    (l.foldl (fun b o => match b with | none => some o | some p => if o.arrival < p.arrival then some o else some p) (some b)).isSome := by
  induction l generalizing b with
  | nil => rfl
  | cons a l ih =>
    rw [List.foldl_cons]
    dsimp only
    split
    · exact ih a
    · exact ih b

theorem MediaChan.oldest_isSome_iff (c : MediaChan) (foreground : Bool) :
    (c.oldest foreground).isSome ↔ ∃ p ∈ c.queue, p.foreground = foreground := by
  have hex : (∃ p ∈ c.queue, p.foreground = foreground) ↔ (c.queue.filter fun o => decide (o.foreground = foreground)) ≠ [] := by
    simp [List.filter_eq_nil_iff]
  rw [hex]
  unfold MediaChan.oldest
  cases c.queue.filter fun o => decide (o.foreground = foreground) with
  | nil => simp
  | cons b l => simp only [ne_eq, reduceCtorEq, not_false_eq_true, iff_true]; exact foldl_older_isSome l b

/-- The contest state after a choice of a class: unchanged when the other class has no operation. -/
def MediaChan.contestAfter (c : MediaChan) (preference foreground contested : Bool) : Nat :=
  if contested && preference then (if foreground then c.contest + 1 else 0) else c.contest

/-- The class that had its turn last, after a choice of a class. -/
def MediaChan.lastAfter (c : MediaChan) (preference foreground contested : Bool) : Bool :=
  if contested && !preference then foreground else c.lastForeground

/-- The choice is the oldest of the only class that has an operation, or of the class whose turn it is. -/
theorem MediaChan.choose_eq {c : MediaChan} {preference foreground : Bool} {o : Op} (h : c.Oldest foreground o)
    (hturn : (∃ p ∈ c.queue, p.foreground ≠ foreground) →
      (if preference then decide (c.contest < 3) else !c.lastForeground) = foreground) :
    c.choose preference = some (o,
      c.contestAfter preference foreground (c.queue.any fun p => decide (p.foreground ≠ foreground)),
      c.lastAfter preference foreground (c.queue.any fun p => decide (p.foreground ≠ foreground))) := by
  have hold := MediaChan.oldest_eq h
  have hother : (c.oldest !foreground).isSome = c.queue.any fun p => decide (p.foreground ≠ foreground) := by
    rw [Bool.eq_iff_iff, MediaChan.oldest_isSome_iff]
    simp [Bool.eq_not]
  have hcont : c.queue.any (fun p => decide (p.foreground ≠ foreground)) = true →
      (if preference then decide (c.contest < 3) else !c.lastForeground) = foreground := fun hany =>
    hturn (by simpa using hany)
  rw [← hother] at hcont ⊢
  unfold MediaChan.choose MediaChan.contestAfter MediaChan.lastAfter
  cases foreground with
  | true =>
    simp only [Bool.not_true] at hcont ⊢
    rw [hold]
    cases hb : c.oldest false with
    | none => rfl
    | some b =>
      have := hcont (by rw [hb]; rfl)
      cases preference <;> simp_all
  | false =>
    simp only [Bool.not_false] at hcont ⊢
    rw [hold]
    cases hb : c.oldest true with
    | none => rfl
    | some b =>
      have := hcont (by rw [hb]; rfl)
      cases preference <;> simp_all

/-- The queue after its granted operation has left, an operation that waits having taken the place. -/
theorem MediaChan.unqueue_eq {c : MediaChan} {o : Op} (hmem : o ∈ c.queue) (hlen : c.queue.length ≤ 512) :
    c.unqueue o = { c with
      queue := c.queue.filter (fun p => decide (p.arrival ≠ o.arrival)) ++ c.waiting.take 1, waiting := c.waiting.drop 1 } := by
  have hlt : (c.queue.filter fun p => decide (p.arrival ≠ o.arrival)).length < 512 :=
    Nat.lt_of_lt_of_le (List.length_filter_lt_length_iff_exists.mpr ⟨o, hmem, by simp⟩) hlen
  unfold MediaChan.unqueue
  cases hw : c.waiting with
  | nil => simp
  | cons a l =>
    simp only [if_pos (show _ < Config.opQueue from hlt)]
    rfl

theorem MediaChan.unqueue_slots (c : MediaChan) (o : Op) : (c.unqueue o).slots = c.slots := by
  unfold MediaChan.unqueue
  dsimp only
  split
  · rfl
  · split <;> rfl

/-- A read whose slot has lost its sheet outside the rebuild, so that its grant is its answer GONE. -/
def Works.losesRead (w : Works) (mc : Fin 4) (o : Op) : Prop :=
  ∃ idx who again, o.kind = .read idx who again ∧ w.part ≠ .rebuilding ∧
    ∀ i, (w.chan mc).slot idx = some i → i.state ≠ .live ∧ i.state ≠ .writing

section
variable {x : Ctx} {w : Works} {mc : Fin 4} {o : Op} {contest : Nat} {last : Bool} (hon : (w.chan mc).online = true)
  (hidle : (w.chan mc).busy = none) (hchoice : (w.chan mc).choose x.set.preference = some (o, contest, last))
include hon hidle hchoice

/-- A channel whose operation has been chosen. -/
theorem Works.grant_granted (hkept : ¬ w.losesRead mc o) :
    w.grant x mc = w.mapChan mc fun c => { c.unqueue o with contest := contest, lastForeground := last, busy := some o } := by
  simp only [Works.grant, hon, hidle, hchoice, Bool.not_true, Option.isSome_none, Bool.or_self, Bool.false_eq_true, if_false]
  split
  · next idx who again hkind =>
    rw [if_pos]
    · rfl
    · by_contra hlost
      rw [not_or] at hlost
      refine hkept ⟨idx, who, again, hkind, hlost.1, fun i hi => ?_⟩
      have hslot : ({ (w.chan mc).unqueue o with contest := contest, lastForeground := last } : MediaChan).slot idx = some i :=
        (congrArg (tblGet idx) ((w.chan mc).unqueue_slots o)).trans hi
      rw [hslot] at hlost
      simpa [SlotInfo.readable] using hlost.2
  · rfl

theorem Works.grant_lost {idx : Nat} {who : List (Requester × Bool)} {again : Bool} (hkind : o.kind = .read idx who again)
    (hlost : w.losesRead mc o) :
    w.grant x mc = ((w.mapChan mc fun c => { c.unqueue o with contest := contest, lastForeground := last }).addTasks
      (who.map fun r => Task.answer r.1 .gone)).task (.grant mc) := by
  obtain ⟨idx', who', again', hkind', hpart, hslots⟩ := hlost
  rw [hkind] at hkind'
  cases hkind'
  simp only [Works.grant, hon, hidle, hchoice, Bool.not_true, Option.isSome_none, Bool.or_self, Bool.false_eq_true, if_false, hkind]
  rw [if_neg]
  · rfl
  · rw [not_or]
    refine ⟨hpart, ?_⟩
    have hslot : ({ (w.chan mc).unqueue o with contest := contest, lastForeground := last } : MediaChan).slot idx = (w.chan mc).slot idx :=
      congrArg (tblGet idx) ((w.chan mc).unqueue_slots o)
    rw [hslot]
    cases hs : (w.chan mc).slot idx with
    | none => simp
    | some i => simpa [SlotInfo.readable] using hslots i hs

end

/-- The grant of an operation chosen from a queue within its limit. -/
theorem Works.grant_spec {x : Ctx} {w : Works} {mc : Fin 4} {o : Op} {contest : Nat} {last : Bool} (hon : (w.chan mc).online = true)
    (hidle : (w.chan mc).busy = none) (hchoice : (w.chan mc).choose x.set.preference = some (o, contest, last))
    (hmem : o ∈ (w.chan mc).queue) (hlen : (w.chan mc).queue.length ≤ 512) :
    ∃ b, (w.grant x mc).chan mc = { w.chan mc with
        queue := (w.chan mc).queue.filter (fun p => decide (p.arrival ≠ o.arrival)) ++ (w.chan mc).waiting.take 1
        waiting := (w.chan mc).waiting.drop 1, contest := contest, lastForeground := last, busy := b } ∧
      (¬ w.losesRead mc o → b = some o ∧ (w.grant x mc).tasks = w.tasks) ∧
      (w.losesRead mc o → b = none ∧ .grant mc ∈ (w.grant x mc).tasks ∧
        ∀ idx who again, o.kind = .read idx who again → ∀ q ∈ who, .answer q.1 .gone ∈ (w.grant x mc).tasks) := by
  have hunqueue := MediaChan.unqueue_eq hmem hlen
  by_cases hlost : w.losesRead mc o
  · obtain ⟨idx, who, again, hkind, -⟩ := id hlost
    refine ⟨none, ?_, fun h => absurd hlost h, fun _ => ⟨rfl, ?_, fun idx who again hkind q hq => ?_⟩⟩
    · rw [Works.grant_lost hon hidle hchoice hkind hlost]
      refine (w.mapChan_chan_self mc _).trans ?_
      rw [hunqueue, ← hidle]
    · rw [Works.grant_lost hon hidle hchoice hkind hlost]
      exact List.mem_append_right _ (List.mem_singleton.mpr rfl)
    · rw [Works.grant_lost hon hidle hchoice hkind hlost]
      exact List.mem_append_left _ (List.mem_append_right _ (List.mem_map.mpr ⟨q, hq, rfl⟩))
  · refine ⟨some o, ?_, fun _ => ⟨rfl, ?_⟩, fun h => absurd h hlost⟩
    · rw [Works.grant_granted hon hidle hchoice hlost]
      refine (w.mapChan_chan_self mc _).trans ?_
      rw [hunqueue]
    · rw [Works.grant_granted hon hidle hchoice hlost]
      rfl

/-- The entries that an index names depend on the days alone. -/
theorem Works.entryAt_congr {v w : Works} (h : v.days = w.days) (d cls : Nat) (first : Key) :
    v.entryAt d cls first = w.entryAt d cls first := by
  simp only [Works.entryAt, Works.liveDay, Works.day, h]

theorem MediaChan.makeBad_ext (c : MediaChan) (e : Nat) : ((c.makeBad e).ext e).state = .bad :=
  congrArg ExtInfo.state (c.setExt_ext_self e .bad)

theorem MediaChan.idle_slot (c : MediaChan) (b : Option Op) (i : Nat) : ({ c with busy := b } : MediaChan).slot i = c.slot i := rfl

theorem MediaChan.idle_ext (c : MediaChan) (b : Option Op) (e : Nat) : ({ c with busy := b } : MediaChan).ext e = c.ext e := rfl

theorem exec_mediaReadDone {mc : Fin 4} {s : State} {o : Op} {idx : Nat} {who : List (Requester × Bool)} {again : Bool}
    (hbusy : (s.works.chan mc).busy = some o) (hstray : o.stray = false) (hkind : o.kind = .read idx who again) (r : ReadEnd) :
    exec (.mediaReadDone mc r) s = s.settled
      (if who.any (fun r => decide (r.1 = .rebuild)) then s.works.scanRead s.ctx mc o idx who again
          (scanFound ⟨mc, idx⟩ ((s.media.get mc).retired.contains (extOf idx)) ((s.media.get mc).cell idx) r)
        else s.works.readEnded s.ctx mc o idx who again (readImage ((s.media.get mc).cell idx) r)) := by
  change execMediaReadDone mc r s = _
  simp only [execMediaReadDone, hbusy, hkind, hstray, Bool.false_eq_true, if_false]

/-- Settles O36: the ends of a read by what the module gave, and the grant by the arbiter's choice. -/
theorem mediaReadIsTestedAndRepeatedOnce : Obligations.MediaReadIsTestedAndRepeatedOnce := by
  refine ⟨fun mc s o idx who again result hq hbusy hkind hstray => ?_, fun x w mc => ?grants⟩
  · intro cell given repeated readAgain
    have hexec := exec_mediaReadDone hbusy hstray hkind result
    have hrepeat : exec (.mediaReadDone mc result) s = s.settled (s.works.markAgain mc { o with kind := .read idx who true }) → readAgain :=
      fun h => h.trans (congrArg s.settled (s.works.markAgain_eq mc _ hq))
    refine ⟨fun hrequesters => ?outside, fun hscan hretired hstored => ?retired, fun hscan hfails => ?failing, fun hscan hsound hstored => ?found⟩
    case outside =>
      have hany : who.any (fun r => decide (r.1 = .rebuild)) = false := by simpa using hrequesters
      rw [if_neg (by simp [hany])] at hexec
      refine ⟨fun b hgiven hb => ?_, fun hbad hagain => ?_, fun hbad hagain => ?_⟩
      · obtain ⟨hidle, hdays, hhead, hanswers⟩ := Works.readEnded_good (x := s.ctx) (w := s.works) (mc := mc) (op := o) (idx := idx)
          (who := who) (again := again) hgiven hb
        exact ⟨_, hexec, hidle, hdays, hhead, hanswers⟩
      · rw [hagain, Works.readEnded_again hbad] at hexec
        exact hrepeat hexec
      · rw [hagain] at hexec
        obtain ⟨hidle, hanswers, hdays⟩ := Works.readEnded_failed (x := s.ctx) (w := s.works) (mc := mc) (op := o) (idx := idx) (who := who) hbad
        refine ⟨_, hexec, hidle, fun q hq hscrub => ?_, fun q hq hscrub => ?_, fun d cls e hentry hcurrent hlive hfree => ?_⟩
        · have := hanswers q hq
          rwa [if_neg fun h => hscrub h.2] at this
        · have := hanswers q hq
          simp only [hscrub, and_true] at this
          exact this
        · have hquar := Works.quarantine_entryAt (x := s.ctx) hcurrent
          rw [if_neg (by simp [hlive]), if_pos hfree] at hquar
          exact (Works.entryAt_congr (hdays d cls e hentry) d cls e.first).trans hquar
    all_goals
      have hany : who.any (fun r => decide (r.1 = .rebuild)) = true := by rw [hscan]; rfl
      rw [if_pos hany] at hexec
    case retired =>
      subst hstored
      rw [show (s.media.get mc).retired.contains (extOf idx) = true from hretired, scanFound_retired] at hexec
      obtain ⟨hdays, hrebuild, hchan⟩ := Works.scanRead_recorded (x := s.ctx) (w := s.works) (mc := mc) (op := o) (idx := idx) (who := who)
        (again := again) (f := .retired) fun h => by cases h
      obtain ⟨hdays', hchan', hrebuild'⟩ := s.works.recorded_retired mc idx
      rw [hchan'] at hchan
      refine ⟨_, hexec, hdays.trans hdays', by rw [hchan], ?_, fun i hi => ?_, hrebuild.trans hrebuild'⟩
      · rw [hchan, MediaChan.idle_ext, MediaChan.makeBad_ext]
      · rw [Works.slot, hchan, MediaChan.idle_slot, MediaChan.makeBad_slot, if_pos hi]
        rfl
    case failing =>
      have hfinding : scanFound ⟨mc, idx⟩ ((s.media.get mc).retired.contains (extOf idx)) ((s.media.get mc).cell idx) result = .failing := by
        rcases hfails with hfailed | ⟨hsound, hstored, b, hcell, hb⟩
        · rw [hfailed]
          rfl
        · rw [hstored, show (s.media.get mc).retired.contains (extOf idx) = false from hsound,
            show (s.media.get mc).cell idx = ⟨some b, false⟩ from hcell, scanFound_failing hb]
      rw [hfinding] at hexec
      refine ⟨fun hagain => ?_, fun hagain => ?_⟩
      · rw [hagain, Works.scanRead_again] at hexec
        exact hrepeat hexec
      · obtain ⟨hdays, hrebuild, hchan⟩ := Works.scanRead_recorded (x := s.ctx) (w := s.works) (mc := mc) (op := o) (idx := idx) (who := who)
          (again := again) (f := .failing) fun _ => hagain
        obtain ⟨hdays', hslots, hexts, hrebuild'⟩ := s.works.recorded_failing mc idx
        rw [hrebuild'] at hrebuild
        refine ⟨_, hexec, hdays.trans hdays', ?_, ?_, by rw [hrebuild], by rw [hrebuild], by rw [hrebuild]⟩
        · rw [Works.slot, hchan, MediaChan.idle_slot, MediaChan.slot, hslots]
          exact congrArg (Option.map fun v => v.state) ((s.works.chan mc).foundSlot_slot idx ⟨.stale, .data⟩)
        · rw [hchan, MediaChan.idle_ext, MediaChan.ext, hexts]
          exact (s.works.chan mc).foundSlot_ext idx ⟨.stale, .data⟩
    case found =>
      subst hstored
      rw [show (s.media.get mc).retired.contains (extOf idx) = false from hsound] at hexec
      refine ⟨_, hexec, Works.scanRead_days _ _ _ _ _ _ _ _, fun herased => ?_, fun hvoided => ?_, fun b t hgood hread => ?_⟩
      · rw [show (s.media.get mc).cell idx = ⟨none, false⟩ from herased, scanFound_erased]
        obtain ⟨-, hrebuild, hchan⟩ := Works.scanRead_recorded (x := s.ctx) (w := s.works) (mc := mc) (op := o) (idx := idx) (who := who)
          (again := again) (f := .erased) fun h => by cases h
        exact ⟨hrebuild, by rw [Works.slot, hchan, MediaChan.idle_slot]; rfl⟩
      · rw [scanFound_voided hvoided]
        obtain ⟨-, hrebuild, hchan⟩ := Works.scanRead_recorded (x := s.ctx) (w := s.works) (mc := mc) (op := o) (idx := idx) (who := who)
          (again := again) (f := .voided) fun h => by cases h
        rw [show (s.works.recorded mc idx .voided).chan mc = _ from s.works.mapChan_chan_self mc _] at hchan
        refine ⟨hrebuild, ?_, ?_⟩
        · rw [Works.slot, hchan, MediaChan.idle_slot, MediaChan.foundSlot_slot]
        · rw [hchan, MediaChan.idle_ext, MediaChan.foundSlot_ext]
      · rw [show (s.media.get mc).cell idx = ⟨some b, false⟩ from hgood, scanFound_sheet hread]
        obtain ⟨-, hrebuild, hchan⟩ := Works.scanRead_recorded (x := s.ctx) (w := s.works) (mc := mc) (op := o) (idx := idx) (who := who)
          (again := again) (f := .sheet b (candOf ⟨mc, idx⟩ t)) fun h => by cases h
        obtain ⟨-, hchan', hrebuild'⟩ := s.works.recorded_sheet mc idx b (candOf ⟨mc, idx⟩ t)
        rw [hchan'] at hchan
        refine ⟨hrebuild.trans hrebuild', ?_, ?_⟩
        · rw [Works.slot, hchan, MediaChan.idle_slot, MediaChan.foundSlot_slot]
          rfl
        · rw [hchan, MediaChan.idle_ext, MediaChan.foundSlot_ext]
  case grants =>
    intro c t oldest turn
    refine ⟨fun h => ?_, fun hon hidle hlen hpair foreground o hold hturn => ?_⟩
    · have hchoose : c.queue = [] → c.choose x.set.preference = none := fun hempty => by
        simp only [MediaChan.choose, MediaChan.oldest, hempty, List.filter_nil, List.foldl_nil]
      simp only [t, Works.runTask, Works.grant]
      rcases h with hoff | hbusy | hempty
      · rw [if_pos (by simp [show (w.chan mc).online = false from hoff])]
      · rw [if_pos (by simp [show (w.chan mc).busy.isSome = true from hbusy])]
      · rw [show (w.chan mc).choose x.set.preference = none from hchoose hempty]
        split <;> rfl
    · intro contested
      have hchoice := MediaChan.choose_eq (preference := x.set.preference) hold hturn
      have hany : (c.queue.any fun p => decide (p.foreground ≠ foreground)) = true ↔ contested := by simp [contested]
      obtain ⟨b, hchan, hgranted, hlost⟩ := Works.grant_spec hon hidle hchoice hold.1 hlen
      have hchan' : t.chan mc = _ := hchan
      rw [hchan']
      refine ⟨rfl, rfl, fun hcont hpref => ?_, fun hcont hpref => ?_, fun hcont => ?_, hgranted, hlost⟩
      · simp only [MediaChan.contestAfter, show (c.queue.any fun p => decide (p.foreground ≠ foreground)) = true from hany.mpr hcont, hpref,
          Bool.and_self, if_true]
      · simp only [MediaChan.lastAfter, show (c.queue.any fun p => decide (p.foreground ≠ foreground)) = true from hany.mpr hcont, hpref,
          Bool.not_false, Bool.and_self, if_true]
      · have hnone : (c.queue.any fun p => decide (p.foreground ≠ foreground)) = false := by
          rw [Bool.eq_false_iff]
          exact fun h => hcont (hany.mp h)
        simp only [MediaChan.contestAfter, MediaChan.lastAfter, hnone, Bool.false_and, Bool.false_eq_true, if_false, and_self]

end Sys2Proof.Machine
end

section
/-!
SUPPORT. Allocation (R98): the channel, extent and slot that a sheet is given; and the relocation walk (R106).
-/

namespace Sys2Proof.Machine

/-! ## The first of the greatest -/

theorem firstMax_max {α : Type} {f : α → Nat} {l : List α} {a : α} (h : firstMax f l = some a) : ∀ b ∈ l, f b ≤ f a := by
  induction l generalizing a with
  | nil => cases h
  | cons b l ih =>
    unfold firstMax at h
    split at h
    · next hnone =>
      cases h
      cases l with
      | nil => simp
      | cons c l =>
        unfold firstMax at hnone
        split at hnone
        · cases hnone
        · split at hnone <;> cases hnone
    · next c hc =>
      split at h
      · next hle =>
        cases h
        exact List.forall_mem_cons.mpr ⟨Nat.le_refl _, fun d hd => Nat.le_trans (ih hc d hd) hle⟩
      · next hgt =>
        cases h
        exact List.forall_mem_cons.mpr ⟨by omega, ih hc⟩

/-- Of several of the greatest measure in a rising list, the lowest. -/
theorem firstMax_first {f : Fin 4 → Nat} {l : List (Fin 4)} {a : Fin 4} (hl : l.Pairwise (· < ·)) (h : firstMax f l = some a) :
    ∀ b ∈ l, f b = f a → a ≤ b := by
  induction l generalizing a with
  | nil => cases h
  | cons b l ih =>
    obtain ⟨hb, hl⟩ := List.pairwise_cons.mp hl
    unfold firstMax at h
    split at h
    · cases h
      exact List.forall_mem_cons.mpr ⟨fun _ => Fin.le_refl _, fun c hc _ => Fin.le_of_lt (hb c hc)⟩
    · next c hc =>
      split at h
      · cases h
        exact List.forall_mem_cons.mpr ⟨fun _ => Fin.le_refl _, fun c hc _ => Fin.le_of_lt (hb c hc)⟩
      · next hgt =>
        cases h
        exact List.forall_mem_cons.mpr ⟨fun heq => absurd heq (by omega), ih hl hc⟩

/-! ## The slot taken -/

/-- What opening an extent anew leaves of a channel. -/
def MediaChan.Reopened (c d : MediaChan) : Prop := d = { c with exts := d.exts, openExt := d.openExt }

theorem MediaChan.reopen_reopened (c : MediaChan) (extents : Nat) : c.Reopened (c.reopen extents) := by
  unfold MediaChan.reopen
  split
  · rfl
  · dsimp only
    split
    · split <;> rfl
    · split <;> rfl

/-- An entry of a table in key order is the one that its key finds. -/
theorem tblGet_of_mem {α : Type} {k : Nat} {a : α} {t : Tbl α} (hs : tblSorted t = true) (h : (k, a) ∈ t) : tblGet k t = some a := by
  induction t with
  | nil => cases h
  | cons q t ih =>
    obtain ⟨j, b⟩ := q
    obtain ⟨hj, ht⟩ := (tblSorted_cons j b t).mp hs
    rcases List.mem_cons.mp h with heq | h
    · cases heq
      simp [tblGet]
    · have hne : j ≠ k := Nat.ne_of_lt (hj _ h)
      simp only [tblGet, hne, if_false]
      exact ih ht h

/-- The extent opened next has failed less than twice. -/
theorem MediaChan.nextOpen_failures {c : MediaChan} {extents e : Nat} (hs : tblSorted c.exts = true) (h : c.nextOpen extents = some e) :
    (c.ext e).failures < 2 := by
  unfold MediaChan.nextOpen at h
  split at h
  · next f hf =>
    cases h
    have hnone : tblGet e c.exts = none := by simpa using List.find?_some hf
    simp [MediaChan.ext, hnone]
  · obtain ⟨p, hp, rfl⟩ := List.mem_map.mp (mem_of_firstMax h)
    obtain ⟨hmem, hcond⟩ := List.mem_filter.mp hp
    simp only [Bool.and_eq_true, decide_eq_true_eq] at hcond
    rw [MediaChan.ext, tblGet_of_mem hs hmem]
    exact hcond.1.2

/-- A channel whose open extent is no longer open. -/
def MediaChan.shut (c : MediaChan) : MediaChan :=
  match c.openExt with
  | some e => { c.setExt e .filled with openExt := none }
  | none => c

theorem MediaChan.shut_facts (c : MediaChan) : c.shut.openExt = none ∧ (tblSorted c.exts = true → tblSorted c.shut.exts = true) := by
  unfold MediaChan.shut
  split
  · exact ⟨rfl, tblPut_sorted _ _ _⟩
  · next h => exact ⟨h, id⟩

/-- The open extent is kept while it has a CLEAR slot and is not condemned; else another is opened, if one can be. -/
theorem MediaChan.reopen_cases (c : MediaChan) (extents : Nat) :
    (c.reopen extents = c ∧ ∃ e, c.openExt = some e ∧ (c.ext e).failures < 2) ∨
      (∃ e, c.shut.nextOpen extents = some e ∧ c.reopen extents = { c.shut.setExt e .opened with openExt := some e }) ∨
      c.reopen extents = c.shut := by
  unfold MediaChan.reopen
  split
  · next e he =>
    obtain ⟨hopen, hcond⟩ := Option.filter_eq_some_iff.mp he
    simp only [Bool.and_eq_true, decide_eq_true_eq] at hcond
    exact .inl ⟨rfl, e, hopen, hcond.2⟩
  · dsimp only
    split
    · next e he => exact .inr (.inl ⟨e, he, rfl⟩)
    · exact .inr (.inr rfl)

/-- The open extent, chosen anew where it must be, has failed less than twice. -/
theorem MediaChan.reopen_failures {c : MediaChan} {extents e : Nat} (hs : tblSorted c.exts = true)
    (h : (c.reopen extents).openExt = some e) : ((c.reopen extents).ext e).failures < 2 := by
  obtain ⟨hnone, hsorted⟩ := c.shut_facts
  rcases c.reopen_cases extents with ⟨heq, f, hf, hless⟩ | ⟨f, hf, heq⟩ | heq
  · rw [heq] at h ⊢
    rw [hf] at h
    cases h
    exact hless
  · rw [heq] at h ⊢
    cases h
    have hext := congrArg ExtInfo.failures (c.shut.setExt_ext_self e .opened)
    exact lt_of_eq_of_lt hext (MediaChan.nextOpen_failures (hsorted hs) hf)
  · rw [heq, hnone] at h
    cases h

/-- The lowest CLEAR slot of an extent lies in it, and none before it in the extent is CLEAR. -/
theorem MediaChan.lowestClear_spec {c : MediaChan} {e i : Nat} (h : c.lowestClear e = some i) :
    i / 64 = e ∧ c.slot i = none ∧ ∀ k < i, k / 64 = i / 64 → c.slot k ≠ none := by
  unfold MediaChan.lowestClear at h
  rw [List.find?_map] at h
  obtain ⟨j, hj, rfl⟩ := Option.map_eq_some_iff.mp h
  obtain ⟨hclear, hlt, hbefore⟩ := List.find?_range_eq_some.mp hj
  simp only [Config.extentSlots, List.mem_range] at hlt hclear hbefore ⊢
  refine ⟨by omega, by simpa using hclear, fun k hk hext => ?_⟩
  have hlow : 64 * e ≤ k := by omega
  have := hbefore (k - 64 * e) (by omega)
  rw [Function.comp_apply, Nat.add_sub_cancel' hlow] at this
  exact fun hnone => by simp [hnone] at this

/-- A slot taken: of the channel with the greatest CLEAR count, in its open extent, the lowest that is CLEAR. -/
theorem Works.takeSlot_spec {x : Ctx} {w t : Works} {kind : SheetKind} {a : SlotAddr} (h : w.takeSlot x kind = some (a, t)) :
    let c := (w.chan a.ch).reopen (x.set.media.get a.ch).extents
    w.bestChannel x = some a.ch ∧ (c.openExt.bind fun e => c.lowestClear e) = some a.idx ∧
      w.OnChan (fun _ d => d = { c with slots := tblPut a.idx ⟨.writing, kind⟩ c.slots, lowArmed := d.lowArmed }) a.ch t := by
  unfold Works.takeSlot at h
  split at h
  · cases h
  · next mc hbest =>
    dsimp only at h
    split at h
    · cases h
    · next i hi =>
      cases h
      refine ⟨hbest, hi, ?_⟩
      refine (Works.OnChan.rearm (Works.OnChan.map w mc _ rfl) (Works.spaceChanged_onChan x _ mc) ?_).then_eq (Works.fullTest_onChan x _ mc)
      intro c d l hd
      rw [hd]

theorem mem_channels (mc : Fin 4) : mc ∈ channels := by
  revert mc
  decide

/-- The best channel is ONLINE with CLEAR slots, and has the most of them, the lowest of several. -/
theorem Works.bestChannel_spec {x : Ctx} {w : Works} {mc : Fin 4} (h : w.bestChannel x = some mc) :
    (w.chan mc).online = true ∧ 0 < w.clearOf x mc ∧ ∀ m : Fin 4, (w.chan m).online = true →
      w.clearOf x m ≤ w.clearOf x mc ∧ (w.clearOf x m = w.clearOf x mc → mc ≤ m) := by
  obtain ⟨-, hcond⟩ := List.mem_filter.mp (mem_of_firstMax h)
  simp only [Bool.and_eq_true, decide_eq_true_eq] at hcond
  obtain ⟨hon, hclear⟩ := hcond
  refine ⟨hon, hclear, fun m hm => ?_⟩
  by_cases hnone : 0 < w.clearOf x m
  · have hmem : m ∈ channels.filter fun mc => (w.chan mc).online && decide (0 < w.clearOf x mc) :=
      List.mem_filter.mpr ⟨mem_channels m, by simp [hm, hnone]⟩
    have hrising : (channels.filter fun mc => (w.chan mc).online && decide (0 < w.clearOf x mc)).Pairwise (· < ·) :=
      List.Pairwise.filter _ (by decide)
    exact ⟨firstMax_max h m hmem, firstMax_first hrising h m hmem⟩
  · exact ⟨by omega, fun heq => by omega⟩

theorem SlotAddr.eq_of_parts {a b : SlotAddr} (hch : b.ch = a.ch) (hidx : b.idx = a.idx) : b = a := by
  cases a
  cases b
  cases hch
  cases hidx
  rfl

/-- A channel once a slot of it has been taken. -/
theorem Works.takeSlot_chan {x : Ctx} {w t : Works} {kind : SheetKind} {a : SlotAddr} (h : w.takeSlot x kind = some (a, t)) :
    (t.chan a.ch).openExt = some (a.idx / 64) ∧ w.slot a = none ∧ t.slot a = some ⟨.writing, kind⟩ ∧
      (∀ b, b ≠ a → t.slot b = w.slot b) ∧ (∀ k < a.idx, k / 64 = a.idx / 64 → w.slot ⟨a.ch, k⟩ ≠ none) ∧
      (tblSorted (w.chan a.ch).exts = true → ((t.chan a.ch).ext (a.idx / 64)).failures < 2) := by
  obtain ⟨-, hopen, ⟨-, hchan, hother⟩⟩ := Works.takeSlot_spec h
  obtain ⟨e, he, hlow⟩ := Option.bind_eq_some_iff.mp hopen
  obtain ⟨hext, hclear, hbefore⟩ := MediaChan.lowestClear_spec hlow
  have hslots : ((w.chan a.ch).reopen (x.set.media.get a.ch).extents).slots = (w.chan a.ch).slots := by
    rw [(w.chan a.ch).reopen_reopened]
  have hslot : ∀ i, ((w.chan a.ch).reopen (x.set.media.get a.ch).extents).slot i = (w.chan a.ch).slot i := fun i =>
    congrArg (tblGet i) hslots
  have htslots : (t.chan a.ch).slots = tblPut a.idx ⟨.writing, kind⟩ (w.chan a.ch).slots := by rw [hchan, hslots]
  have htslot : ∀ b : SlotAddr, b.ch = a.ch → t.slot b = tblGet b.idx (tblPut a.idx ⟨.writing, kind⟩ (w.chan a.ch).slots) := by
    intro b hb
    rw [Works.slot, hb, MediaChan.slot, htslots]
  refine ⟨?_, (hslot a.idx).symm.trans hclear, ?_, fun b hb => ?_, fun k hk hsame => ?_, fun hsorted => ?_⟩
  · rw [hchan, hext]
    exact he
  · rw [htslot a rfl, tblGet_put_self]
  · by_cases hch : b.ch = a.ch
    · rw [htslot b hch, tblGet_put_other, Works.slot, hch]
      · rfl
      · exact fun hidx => hb (SlotAddr.eq_of_parts hch hidx)
    · rw [Works.slot, hother b.ch hch]
      rfl
  · rw [Works.slot, ← hslot]
    exact hbefore k hk hsame
  · rw [hext]
    have hfail := MediaChan.reopen_failures hsorted he
    rw [hchan]
    exact hfail

/-! ## The relocation walk (R106) -/

theorem Works.mapReloc_eq {w : Works} {mc : Fin 4} {r : Relocation} (f : Relocation → Relocation) (h : (w.chan mc).relocation = some r) :
    w.mapReloc mc f = { w with
      array := { w.array with chans := w.array.chans.set mc { w.chan mc with relocation := some (f r) } } } := by
  simp only [Works.mapReloc, Works.mapChan, Quad.modify]
  rw [show (w.array.chans.get mc).relocation = some r from h]
  rfl

/-- The walk's next slot handled. -/
theorem Works.relocationStep_next {x : Ctx} {w : Works} {mc : Fin 4} {r : Relocation} (h : (w.chan mc).relocation = some r)
    (hcopy : r.copy = none) (hpaused : r.paused = false) (hon : (w.chan mc).online = true) (hnext : r.next < 64) :
    w.relocationStep x mc = w.handleSlot x mc (64 * r.source + r.next) := by
  simp only [Works.relocationStep, h, hcopy, hpaused, hon, Option.isSome_none, Bool.not_true, Bool.or_self, Bool.false_eq_true, if_false]
  exact if_pos hnext

theorem Works.relocationStep_idle {x : Ctx} {w : Works} {mc : Fin 4}
    (h : (w.chan mc).relocation = none ∨ (w.chan mc).online = false ∨
      ∃ r, (w.chan mc).relocation = some r ∧ (r.copy.isSome ∨ r.paused = true)) : w.relocationStep x mc = w := by
  unfold Works.relocationStep
  split
  · rfl
  · next r hr =>
    rw [if_pos]
    simp only [Bool.or_eq_true, Bool.not_eq_true']
    rcases h with hnone | hoff | ⟨r', hr', hbusy⟩
    · rw [hr] at hnone
      cases hnone
    · exact .inr hoff
    · rw [hr] at hr'
      cases hr'
      exact .inl hbusy

/-! ## The entry of a slot, claimed -/

/-- An entry of a day's walk changed where its class and first key are those given. -/
def changeAt (cls : Nat) (first : Key) (f : Entry → Entry) (q : Nat × Entry) : Nat × Entry :=
  if q.1 = cls ∧ q.2.first = first then (q.1, f q.2) else q

theorem DayEntry.walk_mapEntry (e : DayEntry) (cls : Nat) (first : Key) (f : Entry → Entry) :
    (e.mapEntry cls first f).walk = e.walk.map (changeAt cls first f) := by
  simp only [DayEntry.walk, DayEntry.mapEntry, updateWhere, List.flatMap_map, List.map_flatMap, List.map_map]
  refine List.flatMap_congr fun r _ => ?_
  by_cases hcls : r.cls = cls
  · simp only [hcls, decide_true, if_true, List.map_map]
    refine List.map_congr_left fun s _ => ?_
    by_cases hfirst : s.first = first
    · simp [changeAt, hfirst]
    · simp [changeAt, hfirst]
  · simp only [hcls, decide_false, Bool.false_eq_true, if_false]
    refine List.map_congr_left fun s _ => ?_
    simp [changeAt, hcls]

/-- The entry of a slot after entries of a day have changed in what does not move them. -/
theorem Works.entryOfSlot_mapEntry {w : Works} {a : SlotAddr} {d cls : Nat} {e : Entry} {f : Entry → Entry}
    (hslot : ∀ s, (f s).slot = s.slot) (h : w.entryOfSlot a = some (d, cls, e)) :
    (w.mapEntry d cls e.first f).entryOfSlot a = some (d, cls, f e) := by
  let g (t : Nat × Nat × Entry) : Nat × Nat × Entry := if t.1 = d then (t.1, changeAt cls e.first f t.2) else t
  have hlist : ((w.mapEntry d cls e.first f).days.flatMap fun p => p.2.walk.map fun q => (p.1, q.1, q.2)) =
      (w.days.flatMap fun p => p.2.walk.map fun q => (p.1, q.1, q.2)).map g := by
    simp only [Works.mapEntry, Works.mapDay_days, tblModify, List.flatMap_map, List.map_flatMap, List.map_map]
    refine List.flatMap_congr fun p _ => ?_
    by_cases hd : p.1 = d
    · simp only [hd, if_true, DayEntry.walk_mapEntry, List.map_map]
      refine List.map_congr_left fun q _ => ?_
      simp [g]
    · simp only [hd, if_false]
      refine List.map_congr_left fun q _ => ?_
      simp [g, hd]
  unfold Works.entryOfSlot at h ⊢
  rw [hlist, List.find?_map]
  have hsame : ((fun t : Nat × Nat × Entry => decide (t.2.2.slot = a)) ∘ g) = fun t => decide (t.2.2.slot = a) := by
    funext t
    simp only [Function.comp_apply, g, changeAt]
    split
    · split
      · simp [hslot]
      · rfl
    · rfl
  rw [hsame, h]
  simp [g, changeAt]

/-- A claim released, the entry as it was before it but for a quarantine asked, and no other day changed. -/
theorem Works.release_facts (x : Ctx) (w : Works) (d cls : Nat) (first : Key) :
    (w.release x d cls first).intake = w.intake ∧ (w.release x d cls first).array = w.array ∧
      ∀ k, k ≠ d → (w.release x d cls first).day k = w.day k := by
  unfold Works.release
  split
  · exact ⟨rfl, rfl, fun k _ => rfl⟩
  · next e he =>
    have hday : ∀ k, k ≠ d → (w.mapEntry d cls first fun e =>
        { e with busy := none, quarantined := e.quarantined || e.quarantineAsked, quarantineAsked := false }).day k = w.day k := by
      intro k hk
      simp only [Works.day, Works.mapEntry, Works.mapDay_days, tblGet_modify, hk, if_false]
    dsimp only
    split
    · rw [Works.quarantineNotice_eq]
      exact ⟨rfl, rfl, hday⟩
    · exact ⟨rfl, rfl, hday⟩

/-! ## A slot handled -/

theorem Relocation.past_next {r : Relocation} (hnext : r.next < 64) :
    r.past (64 * r.source + r.next) = { r with next := r.next + 1 } :=
  if_pos ⟨hnext, rfl⟩

section
variable {x : Ctx} {w : Works} {mc : Fin 4} {r : Relocation} (hr : (w.chan mc).relocation = some r) (hnext : r.next < 64)
include hr hnext

theorem Works.handleSlot_pass (hact : w.walkAct mc (64 * r.source + r.next) = .pass) :
    w.handleSlot x mc (64 * r.source + r.next) = ({ w with array := { w.array with
      chans := w.array.chans.set mc { w.chan mc with relocation := some { r with next := r.next + 1 } } } } : Works).task
        (.relocationSettle mc) := by
  simp only [Works.handleSlot, hact, Works.mapReloc_eq _ hr, Relocation.past_next hnext]

theorem Works.handleSlot_later (hact : w.walkAct mc (64 * r.source + r.next) = .later)
    (hnew : 64 * r.source + r.next ∉ r.revisit) :
    w.handleSlot x mc (64 * r.source + r.next) = ({ w with array := { w.array with
      chans := w.array.chans.set mc { w.chan mc with
        relocation := some { r with next := r.next + 1, revisit := r.revisit ++ [64 * r.source + r.next] } } } } : Works).task
        (.relocationSettle mc) := by
  simp only [Works.handleSlot, hact, Works.mapReloc_eq _ hr, Relocation.past_next hnext, addNew, hnew, if_false]

end

section
variable {x : Ctx} {w : Works} {mc : Fin 4} {r : Relocation} (hr : (w.chan mc).relocation = some r) (old : Nat) (kind : SheetKind)
include hr

/-- A copy begun where a slot can be had. -/
theorem Works.startCopy_taken {new : SlotAddr} {t : Works} (h : w.takeSlot x kind = some (new, t)) :
    w.startCopy x mc old kind = ({ t with array := { t.array with
      chans := t.array.chans.set mc { t.chan mc with relocation := some { r with copy := some ⟨old, kind, some new, none⟩ } } } } :
        Works).askRead ⟨mc, old⟩ (.copy mc old) := by
  obtain ⟨-, -, ⟨-, hchan, hother⟩⟩ := Works.takeSlot_spec h
  have hkept : (t.chan mc).relocation = some r := by
    by_cases hmc : mc = new.ch
    · subst hmc
      rw [hchan, (w.chan new.ch).reopen_reopened]
      exact hr
    · rw [hother mc hmc]
      exact hr
  simp only [Works.startCopy, h, Works.mapReloc_eq _ hkept]

/-- No slot can be had: the relocation pauses once the claim has been released. -/
theorem Works.startCopy_none (h : w.takeSlot x kind = none) (hcopy : r.copy = none)
    (hkept : (w.releaseSlot x ⟨mc, old⟩).array = w.array) :
    w.startCopy x mc old kind = { w.releaseSlot x ⟨mc, old⟩ with array := { w.array with
      chans := w.array.chans.set mc { w.chan mc with relocation := some { r with paused := true } } } } := by
  have hr' : ((w.releaseSlot x ⟨mc, old⟩).chan mc).relocation = some r := by
    rw [Works.chan, hkept]
    exact hr
  simp only [Works.startCopy, h, Works.pauseCopy, Works.mapReloc_eq _ hr', Works.chan, hkept]
  rw [← hcopy]

end

theorem Works.releaseSlot_claimed {x : Ctx} {w : Works} {a : SlotAddr} {d cls : Nat} {e : Entry} (h : w.entryOfSlot a = some (d, cls, e))
    (hbusy : e.busy = some .relocation) : w.releaseSlot x a = w.release x d cls e.first := by
  simp only [Works.releaseSlot, h, hbusy, if_true]

theorem Works.releaseSlot_none {x : Ctx} {w : Works} {a : SlotAddr} (h : w.entryOfSlot a = none) : w.releaseSlot x a = w := by
  simp only [Works.releaseSlot, h]

/-- Settles O41: the walk acts on its next slot by the slot's state and its entry; an allocation keeps to the open extent. -/
theorem relocationWalkHandlesTheNextSlot : Obligations.RelocationWalkHandlesTheNextSlot := by
  refine ⟨fun mc s hq => ?_, fun x w kind a t h => ?_, fun x w p l => ⟨fun h => ?_, fun hslot hroom a t h => ?_⟩⟩
  · intro c
    refine ⟨fun h => ?_, fun r hr hcopy hpaused hon hnext => ?_⟩
    · exact (congrArg s.settled (Works.relocationStep_idle h)).trans (State.settled_quiet s _ hq)
    · intro idx moved on past later copied
      have hexec : exec (.relocationWalk mc) s = s.settled (s.works.handleSlot s.ctx mc idx) :=
        congrArg s.settled (Works.relocationStep_next hr hcopy hpaused hon hnext)
      have htold : ∀ v : Works, v.tasks = s.works.tasks → v.task (.relocationSettle mc) = { v with tasks := [.relocationSettle mc] } := by
        intro v hv
        rw [Works.task, hv, show s.works.tasks = [] from hq]
        rfl
      have hpast : s.works.walkAct mc idx = .pass → past := fun hact =>
        hexec.trans (congrArg s.settled ((Works.handleSlot_pass hr hnext hact).trans (htold _ rfl)))
      have hlater : s.works.walkAct mc idx = .later → later := fun hact hnew =>
        hexec.trans (congrArg s.settled ((Works.handleSlot_later hr hnext hact hnew).trans (htold _ rfl)))
      have hcopied : ∀ (v : Works) (kind : SheetKind), (v.chan mc).relocation = some r →
          s.works.handleSlot s.ctx mc idx = v.startCopy s.ctx mc idx kind → copied v kind := fun v kind hv hstart new w' htake =>
        hexec.trans (congrArg s.settled (hstart.trans (Works.startCopy_taken hv idx kind htake)))
      refine ⟨fun hnone => hpast ?_, fun i hi => ⟨fun hstate => hpast ?_, fun hstate => hlater ?_, fun hlive hkind => ?sheet,
        fun hlive hkind => ⟨fun hnone => hlater ?_, fun d cls e he => ?data⟩⟩⟩
      · simp only [Works.walkAct, show (s.works.chan mc).slot idx = none from hnone]
      · simp only [Works.walkAct, show (s.works.chan mc).slot idx = some i from hi]
        rcases hstate with h | h
        · simp only [h]
        · simp only [h]
      · simp only [Works.walkAct, show (s.works.chan mc).slot idx = some i from hi, hstate]
      case sheet =>
        have hact : s.works.walkAct mc idx = .copy i.kind none := by
          simp only [Works.walkAct, show (s.works.chan mc).slot idx = some i from hi, hlive]
        have hhandle : s.works.handleSlot s.ctx mc idx = s.works.startCopy s.ctx mc idx i.kind := by
          simp only [Works.handleSlot, hact]
        refine ⟨hcopied s.works i.kind hr hhandle, fun htake hnone => ?_⟩
        have hreleased := Works.releaseSlot_none (x := s.ctx) hnone
        have hstart := Works.startCopy_none hr idx i.kind htake hcopy (congrArg Works.array hreleased)
        rw [hreleased] at hstart
        exact hexec.trans ((congrArg s.settled (hhandle.trans hstart)).trans (State.settled_quiet s _ hq))
      · simp only [Works.walkAct, show (s.works.chan mc).slot idx = some i from hi, hlive, hkind, hnone]
      case data =>
        intro claimed
        refine ⟨fun hquar => hpast ?_, fun hsound hbusy => hlater ?_, fun hsound hfree => ?_⟩
        · simp only [Works.walkAct, show (s.works.chan mc).slot idx = some i from hi, hlive, hkind, he, hquar, if_true]
        · simp only [Works.walkAct, show (s.works.chan mc).slot idx = some i from hi, hlive, hkind, he, hsound, Bool.false_eq_true, if_false,
            Option.isSome_iff_ne_none.mp hbusy]
        · have hact : s.works.walkAct mc idx = .copy .data (some (d, cls, e.first)) := by
            simp only [Works.walkAct, show (s.works.chan mc).slot idx = some i from hi, hlive, hkind, he, hsound, Bool.false_eq_true, if_false,
              hfree, if_true]
          have hhandle : s.works.handleSlot s.ctx mc idx = claimed.startCopy s.ctx mc idx .data := by
            simp only [Works.handleSlot, hact]
            rfl
          have hentry : claimed.entryOfSlot ⟨mc, idx⟩ = some (d, cls, { e with busy := some .relocation }) :=
            Works.entryOfSlot_mapEntry (fun _ => rfl) he
          refine ⟨hcopied claimed .data hr hhandle, fun htake => ?_⟩
          have hreleased := Works.releaseSlot_claimed (x := s.ctx) hentry rfl
          obtain ⟨hintake, harray, hdays⟩ := Works.release_facts s.ctx claimed d cls e.first
          have hstart := Works.startCopy_none (w := claimed) hr idx .data htake hcopy (by rw [hreleased]; exact harray)
          rw [hreleased] at hstart
          refine ⟨_, hexec.trans (congrArg s.settled (hhandle.trans hstart)), ?_, hintake, fun hindex => ?_, fun k hk => ?_⟩
          · exact congrArg MediaChan.relocation (Quad.get_set_self claimed.array.chans mc _)
          · have hclaimed := s.works.entryAt_mapEntry d cls e.first (f := fun e => { e with busy := some .relocation }) fun _ => rfl
            rw [hindex] at hclaimed
            obtain ⟨-, -, hfreed⟩ := Works.release_frees (x := s.ctx) hclaimed
            exact (Works.entryAt_congr rfl d cls e.first).trans (hfreed.trans (by simp only [Entry.freed, hfree]))
          · refine (hdays k hk).trans ?_
            simp only [claimed, Works.day, Works.mapEntry, Works.mapDay_days, tblGet_modify, hk, if_false]
  · obtain ⟨hopen, hnone, hwriting, hothers, hbefore, hfail⟩ := Works.takeSlot_chan h
    obtain ⟨hbest, -, hstep⟩ := Works.takeSlot_spec h
    obtain ⟨hon, hclear, hmost⟩ := Works.bestChannel_spec hbest
    exact ⟨hon, hclear, hmost, hnone, hwriting, hothers, hbefore, hopen, hfail, hstep.days⟩
  · rw [Works.allocPosts, if_pos]
    rw [Bool.or_eq_true, Bool.and_eq_true, decide_eq_true_eq, decide_eq_true_eq]
    exact h
  · intro given
    rw [Works.allocPosts, if_neg, h]
    · simp only [updateWhere, decide_eq_true_eq]
      rfl
    · rw [Bool.or_eq_true, Bool.and_eq_true, decide_eq_true_eq, decide_eq_true_eq, hslot]
      rintro (hsome | ⟨hdata, hfew⟩)
      · cases hsome
      · exact absurd (hroom hdata) (Nat.not_lt.mpr hfew)

end Sys2Proof.Machine
end

section
/-!
SUPPORT. Channel faults (R93): what a fault leaves of its channel, of the others and of the units; and the abort of a group (R80).
-/

namespace Sys2Proof.Machine

/-! ## A channel that is down -/

/-- A channel OFFLINE, with no operation. -/
def MediaChan.Down (c : MediaChan) : Prop := c.online = false ∧ c.busy = none ∧ c.queue = [] ∧ c.waiting = []

/-- What the steps of a fault keep of its channel: it stays down, its probe and its lack of a relocation stay, and its slots become STALE
or stay as they were. -/
def MediaChan.Sunk (c d : MediaChan) : Prop :=
  d.Down ∧ d.probing = c.probing ∧ d.probeDue = c.probeDue ∧ (c.relocation = none → d.relocation = none) ∧
    ∀ idx i, c.slot idx = some i → ∃ j, d.slot idx = some j ∧ (j.state = i.state ∨ j.state = .stale)

theorem MediaChan.Sunk.refl {c : MediaChan} (h : c.Down) : c.Sunk c := ⟨h, rfl, rfl, id, fun _ i hi => ⟨i, hi, .inl rfl⟩⟩

theorem MediaChan.Sunk.trans {c d e : MediaChan} (h : c.Sunk d) (k : d.Sunk e) : c.Sunk e := by
  obtain ⟨-, hp, hd, hr, hs⟩ := h
  obtain ⟨hdown, hp', hd', hr', hs'⟩ := k
  refine ⟨hdown, hp'.trans hp, hd'.trans hd, fun h => hr' (hr h), fun idx i hi => ?_⟩
  obtain ⟨j, hj, hstate⟩ := hs idx i hi
  obtain ⟨l, hl, hstate'⟩ := hs' idx j hj
  refine ⟨l, hl, ?_⟩
  rcases hstate' with h | h
  · rw [h]
    exact hstate
  · exact .inr h

/-- The figures of the days that no fault changes. -/
def Works.daySums (w : Works) : List (Nat × DayState × Triple × Triple × Triple) :=
  w.days.map fun p => (p.1, p.2.state, p.2.intake, p.2.staged, p.2.late)

/-- What a step of a fault keeps: the consequences are only added to, the Intake Unit, the Packer and the days' figures are as they were, and
the channel that is down stays so. -/
def Works.Fell (mc : Fin 4) (w v : Works) : Prop :=
  (∃ more, v.tasks = w.tasks ++ more) ∧ v.intake = w.intake ∧ v.packer = w.packer ∧ v.daySums = w.daySums ∧
    ((w.chan mc).Down → (w.chan mc).Sunk (v.chan mc))

section
variable {mc : Fin 4} {w v u : Works}

theorem Works.Fell.refl (mc : Fin 4) (w : Works) : w.Fell mc w :=
  ⟨⟨[], (List.append_nil _).symm⟩, rfl, rfl, rfl, MediaChan.Sunk.refl⟩

theorem Works.Fell.trans (h : w.Fell mc v) (k : v.Fell mc u) : w.Fell mc u := by
  obtain ⟨⟨more, ht⟩, hi, hp, hd, hs⟩ := h
  obtain ⟨⟨more', ht'⟩, hi', hp', hd', hs'⟩ := k
  exact ⟨⟨more ++ more', by rw [ht', ht, List.append_assoc]⟩, hi'.trans hi, hp'.trans hp, hd'.trans hd,
    fun hdown => (hs hdown).trans (hs' (hs hdown).1)⟩

theorem Works.Fell.mem_tasks (h : w.Fell mc v) {t : Task} (ht : t ∈ w.tasks) : t ∈ v.tasks := by
  obtain ⟨⟨more, heq⟩, -⟩ := h
  rw [heq]
  exact List.mem_append_left _ ht

theorem Works.OnChan.fell {R : MediaChan → MediaChan → Prop} {m : Fin 4} (h : w.OnChan R m v)
    (hsunk : m = mc → (w.chan mc).Down → (w.chan mc).Sunk (v.chan mc)) : w.Fell mc v := by
  obtain ⟨⟨more, serial, port, full, heq⟩, -, hother⟩ := h
  refine ⟨⟨more, by rw [heq]⟩, by rw [heq], by rw [heq], by rw [heq]; rfl, fun hdown => ?_⟩
  by_cases hm : m = mc
  · exact hsunk hm hdown
  · rw [hother mc (Ne.symm hm)]
    exact MediaChan.Sunk.refl hdown

theorem Works.OnChan.fell_same {m : Fin 4} (h : w.OnChan Eq m v) : w.Fell mc v := by
  refine h.fell fun hm hdown => ?_
  subst hm
  rw [← h.2.1]
  exact MediaChan.Sunk.refl hdown

theorem Works.Fell.map (w : Works) (m : Fin 4) (f : MediaChan → MediaChan)
    (h : m = mc → (w.chan mc).Down → (w.chan mc).Sunk (f (w.chan mc))) : w.Fell mc (w.mapChan m f) := by
  refine (Works.OnChan.map w m (R := fun _ _ => True) f trivial).fell fun hm hdown => ?_
  have := h hm hdown
  subst hm
  rwa [w.mapChan_chan_self]

/-- A step that leaves the array alone, and the days' figures. -/
theorem Works.Fell.of_array (htasks : ∃ more, v.tasks = w.tasks ++ more) (hi : v.intake = w.intake) (hp : v.packer = w.packer)
    (hd : v.daySums = w.daySums) (ha : v.array.chans = w.array.chans) : w.Fell mc v := by
  refine ⟨htasks, hi, hp, hd, fun hdown => ?_⟩
  rw [show v.chan mc = w.chan mc from congrArg (fun q => q.get mc) ha]
  exact MediaChan.Sunk.refl hdown

end

theorem MediaChan.Sunk.of_eq {c d : MediaChan} (hd : d.Down) (hp : d.probing = c.probing) (hdue : d.probeDue = c.probeDue)
    (hr : c.relocation = none → d.relocation = none) (hs : d.slots = c.slots) : c.Sunk d :=
  ⟨hd, hp, hdue, hr, fun idx i hi => ⟨i, (congrArg (tblGet idx) hs).trans hi, .inl rfl⟩⟩

theorem MediaChan.owe_eq (c : MediaChan) (idx : Nat) (who : List VoidOwner) (deferred : Bool) :
    ∃ owed, c.owe idx who deferred = { c with owed := owed } := by
  unfold MediaChan.owe
  split
  · exact ⟨_, rfl⟩
  · exact ⟨_, rfl⟩

theorem MediaChan.owe_sunk {c : MediaChan} (h : c.Down) (idx : Nat) (who : List VoidOwner) (deferred : Bool) :
    c.Sunk (c.owe idx who deferred) := by
  obtain ⟨owed, heq⟩ := c.owe_eq idx who deferred
  rw [heq]
  exact .of_eq h rfl rfl id rfl

/-- A slot made STALE by a fault. -/
theorem MediaChan.defer_slot (c : MediaChan) (idx i : Nat) :
    (c.defer idx).slot i = if i = idx then some ⟨.stale, ((c.slot idx).map (·.kind)).getD .data⟩ else c.slot i := by
  obtain ⟨owed, heq⟩ := (c.stale idx).owe_eq idx [] true
  rw [MediaChan.defer, heq]
  by_cases h : i = idx
  · rw [if_pos h, h]
    exact tblGet_put_self _ _ _
  · rw [if_neg h]
    exact tblGet_put_other _ _ _ _ h

theorem MediaChan.defer_sunk {c : MediaChan} (h : c.Down) (idx : Nat) : c.Sunk (c.defer idx) := by
  obtain ⟨owed, heq⟩ := (c.stale idx).owe_eq idx [] true
  have hslot := fun i => c.defer_slot idx i
  rw [MediaChan.defer, heq] at hslot ⊢
  refine ⟨h, rfl, rfl, id, fun i j hj => ?_⟩
  rw [hslot i]
  by_cases hi : i = idx
  · exact ⟨_, if_pos hi, .inr rfl⟩
  · exact ⟨j, (if_neg hi).trans hj, .inl rfl⟩

theorem MediaChan.foldl_defer_sunk {c : MediaChan} (h : c.Down) (l : List (Nat × SlotInfo)) :
    c.Sunk (l.foldl (fun c p => c.defer p.1) c) := by
  induction l generalizing c with
  | nil => exact .refl h
  | cons p l ih => exact (MediaChan.defer_sunk h p.1).trans (ih (MediaChan.defer_sunk h p.1).1)

/-! ## Void marks, claims and slots during a fault -/

section
variable {mc : Fin 4}

theorem Works.voidMark_fell (w : Works) (a : SlotAddr) (who : VoidOwner) : w.Fell mc (w.voidMark a who) := by
  refine (w.voidMark_onChan a who).fell fun hm hdown => ?_
  subst hm
  have hops : (w.chan a.ch).ops = [] := by
    obtain ⟨-, hbusy, hqueue, hwaiting⟩ := hdown
    simp [MediaChan.ops, hbusy, hqueue, hwaiting]
  have hmark : w.voidMark a who = w.mapChan a.ch fun c => c.owe a.idx [who] false := by
    simp only [Works.voidMark, hops, List.any_nil, hdown.1, Bool.not_false, Bool.true_or, Bool.false_eq_true, if_false, if_true]
  rw [hmark, w.mapChan_chan_self]
  exact MediaChan.owe_sunk hdown _ _ _

theorem Works.daySums_mapEntry (w : Works) (d cls : Nat) (first : Key) (f : Entry → Entry) :
    (w.mapEntry d cls first f).daySums = w.daySums := by
  simp only [Works.daySums, Works.mapEntry, Works.mapDay_days, tblModify, List.map_map]
  refine List.map_congr_left fun p _ => ?_
  simp only [Function.comp_apply]
  split <;> rfl

/-- A mark released: its entry is free, the notice of a quarantine asked may be raised, and the release is told. -/
theorem Works.release_eq (x : Ctx) (w : Works) (d cls : Nat) (first : Key) :
    w.release x d cls first = w ∨ ∃ port, w.release x d cls first =
      { w.mapEntry d cls first Entry.freed with port := port, tasks := w.tasks ++ [.released d cls first] } := by
  unfold Works.release
  split
  · exact .inl rfl
  · dsimp only
    split
    · rw [Works.quarantineNotice_eq]
      exact .inr ⟨_, rfl⟩
    · exact .inr ⟨_, rfl⟩

theorem Works.release_fell (x : Ctx) (w : Works) (d cls : Nat) (first : Key) : w.Fell mc (w.release x d cls first) := by
  rcases w.release_eq x d cls first with h | ⟨port, h⟩
  · rw [h]
    exact .refl mc w
  · rw [h]
    exact .of_array ⟨_, rfl⟩ rfl rfl (w.daySums_mapEntry d cls first Entry.freed) rfl

theorem Works.releaseSlot_fell (x : Ctx) (w : Works) (a : SlotAddr) : w.Fell mc (w.releaseSlot x a) := by
  unfold Works.releaseSlot
  split
  · split
    · exact w.release_fell x _ _ _
    · exact .refl mc w
  · exact .refl mc w

theorem Works.mapReloc_fell (w : Works) (m : Fin 4) (f : Relocation → Relocation) : w.Fell mc (w.mapReloc m f) :=
  .map w m _ fun _ hdown => .of_eq hdown rfl rfl (fun h => by rw [h]; rfl) rfl

theorem Works.task_fell (w : Works) (t : Task) : w.Fell mc (w.task t) := .of_array ⟨[t], rfl⟩ rfl rfl rfl rfl

theorem Works.addTasks_fell (w : Works) (l : List Task) : w.Fell mc (w.addTasks l) := .of_array ⟨l, rfl⟩ rfl rfl rfl rfl

/-- A copy given up releases its claim, and marks its new slot where it must. -/
theorem Works.giveUp_fell (x : Ctx) (w : Works) (m : Fin 4) (markNew exclude : Bool) : w.Fell mc (w.giveUp x m markNew exclude) := by
  unfold Works.giveUp
  split
  · exact .refl mc w
  · next cp hcp =>
    have hmark : w.Fell mc (match cp.new with | some s => if markNew then w.voidMark s .untold else w | none => w) := by
      split
      · split
        · exact w.voidMark_fell _ _
        · exact .refl mc w
      · exact .refl mc w
    dsimp only
    refine Works.Fell.trans ?_ (Works.task_fell _ _)
    refine Works.Fell.trans ?_ (Works.mapReloc_fell _ m _)
    have hreleased := hmark.trans (Works.releaseSlot_fell x _ ⟨m, cp.old⟩)
    split
    · refine hreleased.trans (Works.Fell.map _ m _ ?_)
      exact fun _ hdown => .of_eq hdown rfl rfl id rfl
    · exact hreleased

theorem Works.pauseCopy_fell (x : Ctx) (w : Works) (m : Fin 4) (old : Nat) : w.Fell mc (w.pauseCopy x m old) :=
  (w.releaseSlot_fell x ⟨m, old⟩).trans (Works.mapReloc_fell _ m _)

/-- A slot taken is of an ONLINE channel, which stays ONLINE. -/
theorem Works.takeSlot_online {x : Ctx} {w t : Works} {kind : SheetKind} {a : SlotAddr} (h : w.takeSlot x kind = some (a, t)) :
    (w.chan a.ch).online = true ∧ (t.chan a.ch).online = true := by
  obtain ⟨hbest, -, ⟨-, hchan, -⟩⟩ := Works.takeSlot_spec h
  have hon := (Works.bestChannel_spec hbest).1
  refine ⟨hon, ?_⟩
  rw [hchan, (w.chan a.ch).reopen_reopened]
  exact hon

theorem Works.takeSlot_fell {x : Ctx} {w t : Works} {kind : SheetKind} {a : SlotAddr} (h : w.takeSlot x kind = some (a, t)) :
    w.Fell mc t := by
  refine (Works.takeSlot_spec h).2.2.fell fun hm hdown => ?_
  subst hm
  exact absurd (Works.takeSlot_online h).1 (by simp [hdown.1])

theorem Works.askOp_fell (w : Works) (m : Fin 4) (kind : OpKind) (fg : Bool) (h : (w.chan m).online = true) :
    w.Fell mc (w.askOp m kind fg) := by
  refine (Works.OnChan.ask w m kind fg (R := fun _ _ => True) trivial).fell fun hm hdown => ?_
  subst hm
  exact absurd h (by simp [hdown.1])

theorem Works.recopy_fell (x : Ctx) (w : Works) (m : Fin 4) : w.Fell mc (w.recopy x m) := by
  unfold Works.recopy
  split
  · exact .refl mc w
  · next cp hcp =>
    split
    · exact w.pauseCopy_fell x m cp.old
    · next s t htake =>
      refine (Works.takeSlot_fell htake).trans ?_
      dsimp only
      split
      · refine Works.Fell.trans (Works.mapReloc_fell t m _) (Works.askOp_fell _ _ _ _ ?_)
        by_cases hm : s.ch = m
        · rw [hm, Works.mapReloc, Works.mapChan_chan_self, ← hm]
          exact (Works.takeSlot_online htake).2
        · rw [Works.mapReloc, Works.mapChan_chan_other _ _ hm]
          exact (Works.takeSlot_online htake).2
      · exact Works.mapReloc_fell t m _

theorem Works.recopyLost_fell (x : Ctx) (w : Works) (m : Fin 4) : w.Fell mc (w.recopyLost x m) := by
  unfold Works.recopyLost
  induction channels generalizing w with
  | nil => exact .refl mc w
  | cons c l ih =>
    rw [List.foldl_cons]
    refine Works.Fell.trans ?_ (ih _)
    split
    · exact w.recopy_fell x c
    · exact .refl mc w

theorem Works.settleOp_fell (x : Ctx) (w : Works) (o : Op) : w.Fell mc (w.settleOp x mc o) := by
  have hdefer : ∀ idx, w.Fell mc (w.mapChan mc fun c => c.defer idx) := fun idx =>
    Works.Fell.map w mc (fun c => c.defer idx) fun _ hdown => MediaChan.defer_sunk hdown idx
  unfold Works.settleOp
  split
  · exact .refl mc w
  · split
    · exact w.addTasks_fell _
    · exact hdefer _
    · next idx _ source _ =>
      dsimp only
      split
      · exact (hdefer idx).trans (Works.giveUp_fell x _ source _ _)
      · exact hdefer idx
    · next idx who _ _ =>
      exact Works.Fell.map w mc (fun c => c.owe idx who false) fun _ hdown => MediaChan.owe_sunk hdown idx who false
    · next e _ =>
      exact Works.Fell.map w mc (fun c => { c with clearAgain := addNew e c.clearAgain }) fun _ hdown => .of_eq hdown rfl rfl id rfl
    · next e _ _ =>
      split
      · exact Works.Fell.map w mc (fun c => { c with retireAgain := addNew e c.retireAgain }) fun _ hdown => .of_eq hdown rfl rfl id rfl
      · exact .refl mc w

theorem MediaChan.Rearmed.sunk {c d : MediaChan} (h : c.Rearmed d) (hdown : c.Down) : c.Sunk d := by
  rw [show d = { c with lowArmed := d.lowArmed } from h]
  exact .of_eq hdown rfl rfl id rfl

theorem Works.spaceChanged_fell (x : Ctx) (w : Works) (m : Fin 4) : w.Fell mc (w.spaceChanged x m) := by
  refine (w.spaceChanged_onChan x m).fell fun hm hdown => ?_
  subst hm
  exact MediaChan.Rearmed.sunk (w.spaceChanged_onChan x m).2.1 hdown

/-- A relocation stopped: the channel has none. -/
theorem Works.stopRelocation_fell (x : Ctx) (w : Works) : w.Fell mc (w.stopRelocation x mc) ∧
    ((w.stopRelocation x mc).chan mc).relocation = none := by
  unfold Works.stopRelocation
  split
  · next hnone => exact ⟨.refl mc w, hnone⟩
  · next r hr =>
    dsimp only
    constructor
    · refine Works.Fell.trans ?_ (Works.spaceChanged_fell x _ mc)
      refine (w.giveUp_fell x mc _ _).trans (Works.Fell.map _ mc _ ?_)
      intro _ hdown
      split
      · exact .of_eq hdown rfl rfl (fun _ => rfl) rfl
      · exact .of_eq hdown rfl rfl (fun _ => rfl) rfl
    · obtain ⟨-, hchan, -⟩ := Works.spaceChanged_onChan x ((w.giveUp x mc true (r.copy.any fun cp => cp.image.isNone)).mapChan mc fun c =>
        let c := if (c.ext r.source).state = .relocating then c.setExt r.source .filled else c
        { c with relocation := none }) mc
      rw [Works.mapChan_chan_self] at hchan
      exact congrArg MediaChan.relocation hchan

/-- Images admitted change the queue of postings and tell of it. -/
theorem Works.admitList_fell (w : Works) (l : List Post) : w.Fell mc (w.admitList l) := by
  induction l generalizing w with
  | nil => exact .refl mc w
  | cons p l ih =>
    unfold Works.admitList
    split
    · refine Works.Fell.trans ?_ (ih _)
      exact .of_array ⟨_, rfl⟩ rfl rfl rfl rfl
    · exact ih w

theorem Works.takeIn_fell (w : Works) : w.Fell mc w.takeIn := w.admitList_fell _

end

/-! ## A fault by its stages (R93) -/

/-- The channel taken OFFLINE, with no operation. -/
def Works.downed (x : Ctx) (w : Works) (mc : Fin 4) : Works :=
  w.mapChan mc fun c =>
    { c with online := false, probing := false, probeDue := x.clock + Config.probeMs, busy := none, queue := [], waiting := [] }

/-- Its operations settled, once the notice is raised. -/
def Works.opsSettled (x : Ctx) (w : Works) (mc : Fin 4) : Works :=
  (w.chan mc).ops.foldl (fun w o => w.settleOp x mc o)
    ((w.downed x mc).notice x .channelOffline (.channelClear mc ((w.downed x mc).clearOf x mc)))

/-- The posting queue settled. -/
def Works.postsSettled (x : Ctx) (w : Works) (mc : Fin 4) : Works :=
  { w.opsSettled x mc with array := { (w.opsSettled x mc).array with posting := faultPosts mc (w.opsSettled x mc).array.posting } }

/-- The WRITING slots of a channel made STALE. -/
def MediaChan.deferWriting (c : MediaChan) : MediaChan :=
  (c.slots.filter fun p => decide (p.2.state = .writing)).foldl (fun c p => c.defer p.1) c

/-- Its WRITING slots made STALE. -/
def Works.slotsDeferred (x : Ctx) (w : Works) (mc : Fin 4) : Works := (w.postsSettled x mc).mapChan mc MediaChan.deferWriting

/-- Relocations stopped or given other slots, and the aborts of the groups that lost slots told. -/
def Works.abortsTold (x : Ctx) (w : Works) (mc : Fin 4) : Works :=
  (((w.slotsDeferred x mc).stopRelocation x mc).recopyLost x mc).addTasks
    ((lostSlots mc w.array.posting).map fun p => .abort p.1 (some mc) p.2)

theorem Works.fault_eq (x : Ctx) (w : Works) (mc : Fin 4) :
    w.fault x mc = if 0 < w.clearTotal x then (w.abortsTold x mc).takeIn.fullTest x else (w.abortsTold x mc).takeIn := rfl

section
variable (x : Ctx) (w : Works) (mc : Fin 4)

theorem Works.downed_down : ((w.downed x mc).chan mc).Down := by
  rw [Works.downed, Works.mapChan_chan_self]
  exact ⟨rfl, rfl, rfl, rfl⟩

theorem Works.foldl_settleOp_fell (l : List Op) (v : Works) : v.Fell mc (l.foldl (fun w o => w.settleOp x mc o) v) := by
  induction l generalizing v with
  | nil => exact .refl mc v
  | cons o l ih => exact (v.settleOp_fell x o).trans (ih _)

theorem Works.opsSettled_fell : (w.downed x mc).Fell mc (w.opsSettled x mc) :=
  Works.Fell.trans (Works.OnChan.notify mc x (w.downed x mc) .channelOffline (.channelClear mc ((w.downed x mc).clearOf x mc))).fell_same
    (Works.foldl_settleOp_fell x mc _ _)

theorem Works.postsSettled_fell : (w.opsSettled x mc).Fell mc (w.postsSettled x mc) :=
  .of_array ⟨[], (List.append_nil _).symm⟩ rfl rfl rfl rfl

theorem Works.slotsDeferred_fell : (w.postsSettled x mc).Fell mc (w.slotsDeferred x mc) :=
  Works.Fell.map _ mc MediaChan.deferWriting fun _ hdown => MediaChan.foldl_defer_sunk hdown _

theorem Works.abortsTold_fell : (w.slotsDeferred x mc).Fell mc (w.abortsTold x mc) :=
  ((Works.stopRelocation_fell x _).1.trans (Works.recopyLost_fell x _ mc)).trans (Works.addTasks_fell _ _)

theorem Works.fault_fell : (w.abortsTold x mc).Fell mc (w.fault x mc) := by
  rw [Works.fault_eq]
  split
  · exact (Works.takeIn_fell _).trans (Works.fullTest_onChan x _ mc).fell_same
  · exact Works.takeIn_fell _

theorem Works.slotsDeferred_down : ((w.slotsDeferred x mc).chan mc).Down := by
  obtain ⟨-, -, -, -, hsunk⟩ := ((w.opsSettled_fell x mc).trans (w.postsSettled_fell x mc)).trans (w.slotsDeferred_fell x mc)
  exact (hsunk (w.downed_down x mc)).1

/-- The channel is left without a relocation. -/
theorem Works.fault_relocation : ((w.fault x mc).chan mc).relocation = none := by
  obtain ⟨hstop, hnone⟩ := Works.stopRelocation_fell x (w.slotsDeferred x mc) (mc := mc)
  have hrest : ((w.slotsDeferred x mc).stopRelocation x mc).Fell mc (w.fault x mc) :=
    ((Works.recopyLost_fell x _ mc).trans (Works.addTasks_fell _ _)).trans (w.fault_fell x mc)
  obtain ⟨-, -, -, -, hsunk⟩ := hstop
  obtain ⟨-, -, -, -, hsunk'⟩ := hrest
  obtain ⟨-, -, -, hkept, -⟩ := hsunk' (hsunk (w.slotsDeferred_down x mc)).1
  exact hkept hnone

/-- A read that the fault ended is answered MEDIA. -/
theorem Works.mem_opsSettled_tasks {o : Op} {idx : Nat} {who : List (Requester × Bool)} {again : Bool} (ho : o ∈ (w.chan mc).ops)
    (hstray : o.stray = false) (hkind : o.kind = .read idx who again) :
    ∀ q ∈ who, .answer q.1 (.media mc) ∈ (w.opsSettled x mc).tasks := by
  intro q hq
  have hfold : ∀ (l : List Op) (v : Works), o ∈ l → .answer q.1 (.media mc) ∈ (l.foldl (fun w o => w.settleOp x mc o) v).tasks := by
    intro l
    induction l with
    | nil => exact fun v h => by cases h
    | cons p l ih =>
      intro v h
      rcases List.mem_cons.mp h with rfl | h
      · refine (Works.foldl_settleOp_fell x mc l _).mem_tasks ?_
        simp only [Works.settleOp, hstray, hkind, Bool.false_eq_true, if_false]
        exact List.mem_append_right _ (List.mem_map.mpr ⟨q, hq, rfl⟩)
      · exact ih _ h
  exact hfold _ _ ho

/-- The slots that were WRITING are STALE once all are deferred. -/
theorem MediaChan.foldl_defer_stale (c : MediaChan) (l : List (Nat × SlotInfo)) (idx : Nat)
    (h : (c.slot idx).map (·.state) = some .stale ∨ ∃ i, (idx, i) ∈ l) :
    ((l.foldl (fun c p => c.defer p.1) c).slot idx).map (·.state) = some .stale := by
  induction l generalizing c with
  | nil => simpa using h
  | cons p l ih =>
    refine ih _ ?_
    rw [MediaChan.defer_slot]
    split
    · exact .inl rfl
    · next hne =>
      rcases h with h | ⟨i, h⟩
      · exact .inl h
      · rcases List.mem_cons.mp h with rfl | h
        · exact absurd rfl hne
        · exact .inr ⟨i, h⟩

theorem Works.slotsDeferred_stale {idx : Nat} {i : SlotInfo} (hi : (w.chan mc).slot idx = some i) (hstate : i.state = .writing) :
    ((w.slotsDeferred x mc).slot ⟨mc, idx⟩).map (·.state) = some .stale := by
  obtain ⟨-, -, -, -, hsunk⟩ := w.opsSettled_fell x mc
  obtain ⟨-, -, -, -, hslots⟩ := hsunk (w.downed_down x mc)
  have hdowned : ((w.downed x mc).chan mc).slot idx = some i := by
    rw [Works.downed, Works.mapChan_chan_self]
    exact hi
  obtain ⟨j, hj, hjstate⟩ := hslots idx i hdowned
  rw [Works.slot, Works.slotsDeferred, Works.mapChan_chan_self]
  refine MediaChan.foldl_defer_stale _ _ idx ?_
  rcases hjstate with h | h
  · exact .inr ⟨j, List.mem_filter.mpr ⟨mem_of_tblGet hj, decide_eq_true (h.trans hstate)⟩⟩
  · refine .inl ?_
    rw [show ((w.postsSettled x mc).chan mc).slot idx = some j from hj, Option.map_some, h]

/-- A group that had an image WRITING on the channel is told to abort, with the slot it lost. -/
theorem mem_lostSlots {l : List Post} {p : Post} {a : SlotAddr} {g : Nat} (hp : p ∈ l) (hslot : p.slot = some a) (hch : a.ch = mc)
    (horphan : p.orphan = false) (hgroup : p.poster.group = some g) : ∃ lost, (g, lost) ∈ lostSlots mc l ∧ a ∈ lost := by
  have hhit : p ∈ l.filter fun p => !p.orphan && p.slot.any fun s => decide (s.ch = mc) :=
    List.mem_filter.mpr ⟨hp, by simp [horphan, hslot, hch]⟩
  refine ⟨_, List.mem_map.mpr ⟨g, ?_, rfl⟩, ?_⟩
  · rw [List.mem_eraseDups]
    exact List.mem_filterMap.mpr ⟨p, hhit, hgroup⟩
  · exact List.mem_filterMap.mpr ⟨p, List.mem_filter.mpr ⟨hhit, decide_eq_true hgroup⟩, hslot⟩

end

/-! ## A group's abort (R80) -/

/-- What the last steps of an abort on a day keep: the Packer, the Intake Unit and the Pending Amendment Set, all but the runs of the day,
and the images posted and offered, to which none is added. -/
def Works.KeptBut (d : Nat) (w v : Works) : Prop :=
  v.packer = w.packer ∧ v.intake = w.intake ∧ v.amend = w.amend ∧
    (∀ p ∈ v.array.posting ++ v.array.offered, p ∈ w.array.posting ++ w.array.offered) ∧ (∀ k, k ≠ d → v.day k = w.day k) ∧
    ∀ e, w.day d = some e → ∃ runs, v.day d = some { e with runs := runs }

section
variable {d : Nat} {w v u : Works}

theorem Works.KeptBut.refl (d : Nat) (w : Works) : w.KeptBut d w :=
  ⟨rfl, rfl, rfl, fun _ hp => hp, fun _ _ => rfl, fun e he => ⟨e.runs, he⟩⟩

theorem Works.KeptBut.trans (h : w.KeptBut d v) (k : v.KeptBut d u) : w.KeptBut d u := by
  obtain ⟨hp, hi, ha, hposts, hother, hday⟩ := h
  obtain ⟨hp', hi', ha', hposts', hother', hday'⟩ := k
  refine ⟨hp'.trans hp, hi'.trans hi, ha'.trans ha, fun p h => hposts p (hposts' p h), fun k hk => (hother' k hk).trans (hother k hk),
    fun e he => ?_⟩
  obtain ⟨runs, hv⟩ := hday e he
  obtain ⟨runs', hu⟩ := hday' _ hv
  exact ⟨runs', hu⟩

theorem Works.KeptBut.of_days (hp : v.packer = w.packer) (hi : v.intake = w.intake) (ha : v.amend = w.amend)
    (hposts : ∀ p ∈ v.array.posting ++ v.array.offered, p ∈ w.array.posting ++ w.array.offered) (hd : v.days = w.days) :
    w.KeptBut d v :=
  ⟨hp, hi, ha, hposts, fun k _ => congrArg (tblGet k) hd, fun e he => ⟨e.runs, (congrArg (tblGet d) hd).trans he⟩⟩

theorem Works.OnChan.keptBut {R : MediaChan → MediaChan → Prop} {m : Fin 4} (h : w.OnChan R m v) : w.KeptBut d v := by
  obtain ⟨⟨more, serial, port, full, heq⟩, -, -⟩ := h
  exact .of_days (by rw [heq]) (by rw [heq]) (by rw [heq]) (by rw [heq]; exact fun p hp => hp) (by rw [heq])

theorem Works.release_keptBut (x : Ctx) (w : Works) (d cls : Nat) (first : Key) : w.KeptBut d (w.release x d cls first) := by
  rcases w.release_eq x d cls first with h | ⟨port, h⟩
  · rw [h]
    exact .refl d w
  · rw [h]
    refine ⟨rfl, rfl, rfl, fun p hp => hp, fun k hk => ?_, fun e he => ?_⟩
    · exact (tblGet_modify d k (fun e => e.mapEntry cls first Entry.freed) w.days).trans (if_neg hk)
    · refine ⟨(e.mapEntry cls first Entry.freed).runs, ?_⟩
      have hday := tblGet_modify d d (fun e => e.mapEntry cls first Entry.freed) w.days
      rw [if_pos rfl, show tblGet d w.days = some e from he] at hday
      exact hday

theorem Works.releaseItem_keptBut (x : Ctx) (w : Works) (d item : Nat) (claimed : List (Nat × Key)) :
    w.KeptBut d (w.releaseItem x d item claimed) := by
  unfold Works.releaseItem
  induction claimed generalizing w with
  | nil => exact .refl d w
  | cons p l ih =>
    rw [List.foldl_cons]
    refine Works.KeptBut.trans ?_ (ih _)
    split
    · split
      · exact w.release_keptBut x d p.1 p.2
      · exact .refl d w
    · exact .refl d w

theorem Works.voidMarks_keptBut (w : Works) (l : List SlotAddr) (who : VoidOwner) :
    w.KeptBut d (l.foldl (fun w s => w.voidMark s who) w) := by
  induction l generalizing w with
  | nil => exact .refl d w
  | cons a l ih => exact (w.voidMark_onChan a who).keptBut.trans (ih _)

/-- Images admitted change the queue of postings, the images offered and the consequences. -/
theorem Works.admitList_frame (w : Works) (l : List Post) :
    (∃ more posting offered, w.admitList l = { w with
      tasks := w.tasks ++ more, array := { w.array with posting := posting, offered := offered } }) ∧
      ∀ p ∈ (w.admitList l).array.posting ++ (w.admitList l).array.offered, p ∈ w.array.posting ++ w.array.offered ∨ p ∈ l := by
  induction l generalizing w with
  | nil => exact ⟨⟨[], w.array.posting, w.array.offered, by rw [List.append_nil]; rfl⟩, fun p hp => .inl hp⟩
  | cons a l ih =>
    unfold Works.admitList
    split
    · obtain ⟨⟨more, posting, offered, heq⟩, hposts⟩ := ih (({ w with array := { w.array with
        posting := w.array.posting ++ [a], offered := w.array.offered.filter fun q => decide (q.id ≠ a.id) } } :
          Works).addTasks [.admitted a.poster, .allocate])
      refine ⟨⟨[.admitted a.poster, .allocate] ++ more, posting, offered, ?_⟩, fun p hp => ?_⟩
      · rw [heq, Works.addTasks_tasks, List.append_assoc]
        rfl
      · rcases hposts p hp with hp | hp
        · rcases List.mem_append.mp hp with hp | hp
          · rcases List.mem_append.mp hp with hp | hp
            · exact .inl (List.mem_append_left _ hp)
            · exact .inr (List.mem_cons.mpr (.inl (List.mem_singleton.mp hp)))
          · exact .inl (List.mem_append_right _ (List.mem_filter.mp hp).1)
        · exact .inr (List.mem_cons_of_mem _ hp)
    · obtain ⟨hframe, hposts⟩ := ih w
      exact ⟨hframe, fun p hp => (hposts p hp).imp_right (List.mem_cons_of_mem _)⟩

theorem Works.takeIn_keptBut (w : Works) : w.KeptBut d w.takeIn := by
  obtain ⟨⟨more, posting, offered, heq⟩, hposts⟩ := w.admitList_frame w.array.offered
  have heq : w.takeIn = _ := heq
  refine .of_days (by rw [heq]) (by rw [heq]) (by rw [heq]) (fun p hp => ?_) (by rw [heq])
  exact (hposts p hp).elim id (List.mem_append_right _)

end

/-- A group's own images after they have been withdrawn: each has a slot, and is an orphan. -/
theorem ArrayCtl.withdraw_orphans {a : ArrayCtl} {id : Nat} {p : Post} (hp : p ∈ (a.withdraw id).posting ++ (a.withdraw id).offered)
    (hgroup : p.poster.group = some id) : p.slot.isSome ∧ p.orphan = true := by
  rcases List.mem_append.mp hp with hp | hp
  · obtain ⟨q, hq, rfl⟩ := List.mem_map.mp hp
    have hcond := (List.mem_filter.mp hq).2
    by_cases hmine : q.poster.group = some id
    · simp only [hmine, decide_true, if_true]
      simp only [hmine, decide_true, Bool.true_and, Bool.not_eq_true', Option.isNone_eq_false_iff] at hcond
      exact ⟨hcond, trivial⟩
    · rw [if_neg (by simp [hmine])] at hgroup
      exact absurd hgroup hmine
  · have hcond := (List.mem_filter.mp hp).2
    simp [hgroup] at hcond

theorem exec_readyTimeout {mc : Fin 4} {s : State} {o : Op} (torn : Torn) (hbusy : (s.works.chan mc).busy = some o)
    (hsensing : (s.cfg.settings.media.get mc).sensing = .readyLine) :
    exec (.readyTimeout mc torn) s = (s.mapMedia mc fun m => m.torn o torn).settled (s.works.fault s.ctx mc) := by
  change execReadyTimeout mc torn s = _
  simp only [execReadyTimeout, hbusy, hsensing, ne_eq, not_true_eq_false, if_false]
  rfl

/-- Settles O39: the fault by its stages, and the abort, whose last steps change nothing that it has set. -/
theorem readyTimeoutTakesTheChannelOffline : Obligations.ReadyTimeoutTakesTheChannelOffline := by
  refine ⟨fun mc torn s hq => ⟨fun hidle => ?_, fun o hbusy hsensing => ?_⟩, fun x w id mc lost g d hg hd => ?_⟩
  · change execReadyTimeout mc torn s = _
    unfold execReadyTimeout
    split
    · rfl
    · next o hbusy =>
      rw [if_pos]
      rcases hidle with h | h
      · rw [hbusy] at h
        cases h
      · rw [h]
        decide
  · have hstart := s.works.opsSettled_fell s.ctx mc
    have hmiddle := (s.works.postsSettled_fell s.ctx mc).trans (s.works.slotsDeferred_fell s.ctx mc)
    have hend := (s.works.abortsTold_fell s.ctx mc).trans (s.works.fault_fell s.ctx mc)
    have hfell := (hstart.trans hmiddle).trans hend
    obtain ⟨-, hintake, hpacker, hdays, hsunk⟩ := hfell
    obtain ⟨⟨hoff, hidle, hqueue, hwaiting⟩, hprobing, hdue, -, -⟩ := hsunk (s.works.downed_down s.ctx mc)
    have hdowned : (s.works.downed s.ctx mc).chan mc = _ := s.works.mapChan_chan_self mc _
    rw [hdowned] at hprobing hdue
    refine ⟨_, _, exec_readyTimeout torn hbusy hsensing, rfl, fun c hc => Quad.get_set_other _ _ _ _ hc, hoff, hidle, hqueue, hwaiting,
      ?_, hprobing, hdue, fun idx i hi hstate => ?_, fun p hp hstray idx who again hkind q hq => ?_, hdays, hintake,
      congrArg Packer.queue hpacker, fun p hp a g hslot hch horphan hgroup => ?_⟩
    · exact s.works.fault_relocation s.ctx mc
    · obtain ⟨-, -, -, -, hsunk'⟩ := hend
      obtain ⟨-, -, -, -, hslots⟩ := hsunk' (s.works.slotsDeferred_down s.ctx mc)
      obtain ⟨j, hj, hstale⟩ := Option.map_eq_some_iff.mp (s.works.slotsDeferred_stale s.ctx mc hi hstate)
      obtain ⟨l, hl, hlstate⟩ := hslots idx j hj
      rw [Works.slot, show ((s.works.fault s.ctx mc).chan mc).slot idx = some l from hl, Option.map_some]
      rcases hlstate with h | h
      · rw [h, hstale]
      · rw [h]
    · exact (hmiddle.trans hend).mem_tasks (s.works.mem_opsSettled_tasks s.ctx mc hp hstray hkind q hq)
    · obtain ⟨lost, hlost, ha⟩ := mem_lostSlots mc hp hslot hch horphan hgroup
      exact ⟨lost, (s.works.fault_fell s.ctx mc).mem_tasks (List.mem_append_right _ (List.mem_map.mpr ⟨_, hlost, rfl⟩)), ha⟩
  · intro t writing reached
    have hid : g.id = id := by simpa using List.find?_some hg
    let begun : Works :=
      ({ (({ w with array := w.array.withdraw id } : Works).mapDay g.day fun d => { d with owed := d.owed + reached.length, inProgress := none }) with
        packer := { w.packer with groups := w.packer.groups.filter fun h => decide (h.id ≠ id) } } : Works).mapItem g.item fun i =>
          { i with inGroup := false, channelWait := mc }
    have ht : t = (((reached.foldl (fun w s => w.voidMark s (.day g.day)) begun).releaseItem x g.day g.item g.claimed).takeIn).addTasks
        [.auditDrained g.day, .scan] := by
      simp only [t, Works.runTask, Works.abort, hg]
      rw [show (w.reachedSlots g ++ lost).eraseDups = reached by simp only [Works.reachedSlots, hid, reached, writing]]
      rfl
    have hkept : begun.KeptBut g.day t := by
      rw [ht]
      refine Works.KeptBut.trans (((Works.voidMarks_keptBut begun reached (.day g.day)).trans
        (Works.releaseItem_keptBut x _ g.day g.item g.claimed)).trans (Works.takeIn_keptBut _)) ?_
      exact .of_days rfl rfl rfl (fun p hp => hp) rfl
    obtain ⟨hpacker, hintake, hamend, hposts, hother, hday⟩ := hkept
    have hbegun := tblGet_modify g.day g.day (fun d => { d with owed := d.owed + reached.length, inProgress := none }) w.days
    rw [if_pos rfl, show tblGet g.day w.days = some d from hd] at hbegun
    obtain ⟨runs, he⟩ := hday _ hbegun
    refine ⟨by rw [hpacker]; rfl, ?_, fun k hk => (hother k hk).trans ?_, hintake, hamend, ?_, ?_, fun p hp hgroup => ?_,
      _, he, rfl, rfl, rfl, rfl, rfl, rfl, rfl, rfl, rfl, rfl, rfl⟩
    · rw [hpacker]
      simp only [begun, Works.mapItem, updateWhere, decide_eq_true_eq]
    · exact (tblGet_modify g.day k (fun d => { d with owed := d.owed + reached.length, inProgress := none }) w.days).trans (if_neg hk)
    · rw [ht]
      exact List.mem_append_right _ (by simp)
    · rw [ht]
      exact List.mem_append_right _ (by simp)
    · exact ArrayCtl.withdraw_orphans (hposts p hp) hgroup

end Sys2Proof.Machine
end

section
/-!
SUPPORT. The completion of a group (R48, R84).
-/

namespace Sys2Proof.Machine

/-! ## What the steps of a completion keep -/

/-- A run as the completion of a group leaves it, but for the marks of its entries. -/
def Run.seen (r : Run) : Nat × RunState × List (Key × Key × Triple × Nat × SlotAddr × Nat) :=
  (r.cls, r.state, r.entries.map fun q => (q.first, q.last, q.totals, q.bodyLen, q.slot, q.group))

/-- What the later steps of a completion on a day keep: the groups in progress, the records staged and late, every other day, and of the day
all but the marks of its entries. -/
def Works.Completed (d : Nat) (w v : Works) : Prop :=
  v.packer.groups = w.packer.groups ∧ v.intake.staging = w.intake.staging ∧ v.intake.late = w.intake.late ∧
    (∀ k, k ≠ d → v.day k = w.day k) ∧
    ∀ e, w.day d = some e → ∃ runs, v.day d = some { e with runs := runs } ∧ runs.map Run.seen = e.runs.map Run.seen

section
variable {d : Nat} {w v u : Works}

theorem Works.Completed.refl (d : Nat) (w : Works) : w.Completed d w :=
  ⟨rfl, rfl, rfl, fun _ _ => rfl, fun e he => ⟨e.runs, he, rfl⟩⟩

theorem Works.Completed.trans (h : w.Completed d v) (k : v.Completed d u) : w.Completed d u := by
  obtain ⟨hg, hs, hl, hother, hday⟩ := h
  obtain ⟨hg', hs', hl', hother', hday'⟩ := k
  refine ⟨hg'.trans hg, hs'.trans hs, hl'.trans hl, fun k hk => (hother' k hk).trans (hother k hk), fun e he => ?_⟩
  obtain ⟨runs, hv, hruns⟩ := hday e he
  obtain ⟨runs', hu, hruns'⟩ := hday' _ hv
  exact ⟨runs', hu, hruns'.trans hruns⟩

theorem Works.Completed.of_days (hg : v.packer.groups = w.packer.groups) (hs : v.intake.staging = w.intake.staging)
    (hl : v.intake.late = w.intake.late) (hd : v.days = w.days) : w.Completed d v :=
  ⟨hg, hs, hl, fun k _ => congrArg (tblGet k) hd, fun e he => ⟨e.runs, (congrArg (tblGet d) hd).trans he, rfl⟩⟩

theorem DayEntry.seen_freed (e : DayEntry) (cls : Nat) (first : Key) :
    (e.mapEntry cls first Entry.freed).runs.map Run.seen = e.runs.map Run.seen := by
  simp only [DayEntry.mapEntry, updateWhere, List.map_map]
  refine List.map_congr_left fun r _ => ?_
  simp only [Function.comp_apply]
  split
  · simp only [Run.seen, List.map_map, Prod.mk.injEq, true_and]
    refine List.map_congr_left fun s _ => ?_
    simp only [Function.comp_apply]
    split <;> rfl
  · rfl

theorem Works.release_completed (x : Ctx) (w : Works) (d cls : Nat) (first : Key) : w.Completed d (w.release x d cls first) := by
  rcases w.release_eq x d cls first with h | ⟨port, h⟩
  · rw [h]
    exact .refl d w
  · rw [h]
    refine ⟨rfl, rfl, rfl, fun k hk => ?_, fun e he => ?_⟩
    · exact (tblGet_modify d k (fun e => e.mapEntry cls first Entry.freed) w.days).trans (if_neg hk)
    · have hday := tblGet_modify d d (fun e => e.mapEntry cls first Entry.freed) w.days
      rw [if_pos rfl, show tblGet d w.days = some e from he] at hday
      exact ⟨(e.mapEntry cls first Entry.freed).runs, hday, e.seen_freed cls first⟩

theorem Works.releaseItem_completed (x : Ctx) (w : Works) (d item : Nat) (claimed : List (Nat × Key)) :
    w.Completed d (w.releaseItem x d item claimed) := by
  unfold Works.releaseItem
  induction claimed generalizing w with
  | nil => exact .refl d w
  | cons p l ih =>
    rw [List.foldl_cons]
    refine Works.Completed.trans ?_ (ih _)
    split
    · split
      · exact w.release_completed x d p.1 p.2
      · exact .refl d w
    · exact .refl d w

theorem Works.settleRecord_completed (x : Ctx) (w : Works) (slot : Nat) (fate : Option Fate) : w.Completed d (w.settleRecord x slot fate) := by
  unfold Works.settleRecord
  split
  · exact .refl d w
  · dsimp only
    split
    · rw [Works.fileNotice, Works.notice_eq]
      exact .of_days rfl rfl rfl rfl
    · exact .of_days rfl rfl rfl rfl

theorem Works.settleRecords_completed {α : Type} (x : Ctx) (f : α → Nat) (g : α → Option Fate) (l : List α) (w : Works) :
    w.Completed d (l.foldl (fun w a => w.settleRecord x (f a) (g a)) w) := by
  induction l generalizing w with
  | nil => exact .refl d w
  | cons a l ih => exact (w.settleRecord_completed x (f a) (g a)).trans (ih _)

theorem Works.reportDone_completed (w : Works) (g : Group) (i : Item) (left : List (Nat × Entry)) : w.Completed d (w.reportDone g i left) := by
  unfold Works.reportDone
  split <;> exact .of_days rfl rfl rfl rfl

theorem Works.unblock_completed (w : Works) (k : Nat) : w.Completed d (w.unblock k) := by
  have hfold : ∀ (l : List Nat) (w : Works), w.Completed d
      (l.foldl (fun w c => w.mapSched k c fun m => { m with held := 0, rearm := none }) w) := by
    intro l
    induction l with
    | nil => exact .refl d
    | cons c l ih => exact fun w => Works.Completed.trans (.of_days rfl rfl rfl rfl) (ih _)
  exact (hfold _ w).trans (.of_days rfl rfl rfl rfl)

theorem Works.OnChan.completed {R : MediaChan → MediaChan → Prop} {m : Fin 4} (h : w.OnChan R m v) : w.Completed d v := by
  obtain ⟨⟨more, serial, port, full, heq⟩, -, -⟩ := h
  exact .of_days (by rw [heq]) (by rw [heq]) (by rw [heq]) (by rw [heq])

theorem Works.voidMarks_completed (w : Works) (l : List SlotAddr) (who : VoidOwner) :
    w.Completed d (l.foldl (fun w s => w.voidMark s who) w) := by
  induction l generalizing w with
  | nil => exact .refl d w
  | cons a l ih =>
    exact (w.voidMark_onChan a who).completed.trans (ih _)

theorem Works.itemCompletes_completed (w : Works) (g : Group) (i : Item) : w.Completed d (w.itemCompletes g i) := by
  unfold Works.itemCompletes
  split
  · dsimp only
    split <;> exact .of_days rfl rfl rfl rfl
  · exact .of_days rfl rfl rfl rfl

theorem Works.gateTest_completed (w : Works) : w.Completed d w.gateTest := .of_days rfl rfl rfl rfl

end

/-! ## The completion by its stages -/

/-- The records of a group's item taken from the Intake Unit, before they are counted in their files. -/
def Works.intakeTaken (w : Works) (g : Group) : Work → Works
  | .closeRun c => { w with intake := { w.intake with staging := tblDrop (stagingKey g.day c) w.intake.staging } }
  | .merge _ => { w with intake := { w.intake with late := w.intake.late.filter fun r => !((g.merging.map (·.1)).contains r) } }
  | .restore f _ _ => w.mapFile f fun f => { f with restoreSet := [] }
  | _ => w

theorem Works.intakeCompletes_completed {d : Nat} (x : Ctx) (w : Works) (g : Group) (work : Work) :
    (w.intakeTaken g work).Completed d (w.intakeCompletes x g work) := by
  cases work with
  | closeRun c => exact Works.settleRecords_completed x (fun r : StagedRec => r.file) (fun _ => none) (w.intake.set g.day c) _
  | merge c =>
    exact Works.settleRecords_completed x (fun p : LateRec × MergeOutcome => p.1.file) (fun p => match p.2 with
      | .inserted => none
      | .duplicate => some .lateDuplicate
      | .conflict => some .lateConflict) g.merging _
  | restore f e b => exact Works.settleRecords_completed x (fun _ : Nat => f) (fun _ => none) _ _
  | _ => exact .refl d w

/-- A day as the completion of its group leaves it. -/
def DayEntry.completed (d : DayEntry) (g : Group) (a : SlotAddr) (work : Work) : DayEntry :=
  let e : DayEntry := { (d.reindex g).count g.amounts with
    group := g.number, inProgress := none, owed := (d.leaving g).length + d.summary.toList.length, summary := some a }
  match work with
  | .closeRun c => e.classClosed c
  | _ => e

/-- The day and the groups in progress set, and the busy marks of the group's item released. -/
def Works.daySet (x : Ctx) (w : Works) (g : Group) (e : DayEntry) : Works :=
  ({ w with days := tblPut g.day e w.days,
            packer := { w.packer with groups := w.packer.groups.filter fun h => decide (h.id ≠ g.id) } } : Works).releaseItem x g.day g.item
    g.claimed

theorem Works.complete_completed {x : Ctx} {w : Works} {id : Nat} {a : SlotAddr} {g : Group} {d : DayEntry} {i : Item}
    (hg : w.group id = some g) (hd : w.day g.day = some d) (hi : w.item g.item = some i) :
    ((w.daySet x g (d.completed g a i.work)).intakeTaken g i.work).Completed g.day (w.complete x id a) ∧
      .scan ∈ (w.complete x id a).tasks ∧ .auditDrained g.day ∈ (w.complete x id a).tasks := by
  have hid : g.id = id := by simpa using List.find?_some hg
  let left := d.leaving g
  let slots := left.map (fun p => p.2.slot) ++ d.summary.toList
  have howed : slots.length = (d.leaving g).length + d.summary.toList.length := by simp [slots, left]
  let w₁ := w.daySet x g (d.completed g a i.work)
  let w₂ := ((w₁.intakeCompletes x g i.work).gateTest).reportDone g i left
  let removes := match i.work with | .retire _ => true | .restore _ _ _ => true | _ => false
  let w₃ := if removes && left.any (fun p => p.2.quarantined) then w₂.unblock g.day else w₂
  let w₄ := if d.state ≠ .closed ∧ (d.completed g a i.work).state = .closed then w₃.testMerges g.day else w₃
  let w₅ := (slots.foldl (fun w a => w.voidMark a (.day g.day)) w₄).itemCompletes g i
  let told := (d.runsGone (d.completed g a i.work)).map (fun c => Task.runRemoved g.day c) ++ releasesTold g left ++ [.auditDrained g.day, .scan]
  have ht : w.complete x id a = w₅.addTasks told := by
    subst hid
    simp only [Works.complete, hg, hd, hi]
    rw [show (d.leaving g).map (fun p => p.2.slot) ++ d.summary.toList = slots from rfl, howed]
    rfl
  refine ⟨?_, ?_, ?_⟩
  · rw [ht]
    have h₂ : (w₁.intakeTaken g i.work).Completed g.day w₂ :=
      ((Works.intakeCompletes_completed x w₁ g i.work).trans (Works.gateTest_completed _)).trans (Works.reportDone_completed _ g i left)
    have h₃ : w₂.Completed g.day w₃ := by
      simp only [w₃]
      split
      · exact w₂.unblock_completed g.day
      · exact .refl _ _
    have h₄ : w₃.Completed g.day w₄ := by
      simp only [w₄]
      split
      · exact .of_days rfl rfl rfl rfl
      · exact .refl _ _
    have h₅ : w₄.Completed g.day w₅ := (Works.voidMarks_completed w₄ slots _).trans (Works.itemCompletes_completed _ g i)
    exact (((h₂.trans h₃).trans h₄).trans h₅).trans (.of_days rfl rfl rfl rfl)
  · rw [ht]
    exact List.mem_append_right _ (List.mem_append_right _ (by simp))
  · rw [ht]
    exact List.mem_append_right _ (List.mem_append_right _ (by simp))

/-- The day, the groups and the records once a completion's item has been taken. -/
theorem Works.intakeTaken_facts (x : Ctx) (w : Works) (g : Group) (e : DayEntry) (work : Work) :
    let v := (w.daySet x g e).intakeTaken g work
    v.packer.groups = w.packer.groups.filter (fun h => decide (h.id ≠ g.id)) ∧ (∀ k, k ≠ g.day → v.day k = w.day k) ∧
      (∃ runs, v.day g.day = some { e with runs := runs } ∧ runs.map Run.seen = e.runs.map Run.seen) ∧
      (∀ c, work = .closeRun c → v.intake.set g.day c = []) ∧
      ∀ c, work = .merge c → v.intake.late = w.intake.late.filter fun r => decide (r ∉ g.merging.map fun p => p.1) := by
  intro v
  let base : Works := { w with
    days := tblPut g.day e w.days, packer := { w.packer with groups := w.packer.groups.filter fun h => decide (h.id ≠ g.id) } }
  obtain ⟨hgroups, -, hlate, hother, hday⟩ : base.Completed g.day (w.daySet x g e) := base.releaseItem_completed x g.day g.item g.claimed
  have hv : v.packer = (w.daySet x g e).packer ∧ v.days = (w.daySet x g e).days := by
    simp only [v]
    cases work with
    | _ => exact ⟨rfl, rfl⟩
  refine ⟨(congrArg Packer.groups hv.1).trans hgroups, fun k hk => ?_, ?_, fun c hc => ?_, fun c hc => ?_⟩
  · exact (congrArg (tblGet k) hv.2).trans ((hother k hk).trans (tblGet_put_other _ _ _ _ hk))
  · obtain ⟨runs, hruns, hseen⟩ := hday e (tblGet_put_self _ _ _)
    exact ⟨runs, (congrArg (tblGet g.day) hv.2).trans hruns, hseen⟩
  · subst hc
    show (tblGet _ (tblDrop _ _)).getD [] = []
    rw [tblGet_drop_self]
    rfl
  · subst hc
    show (w.daySet x g e).intake.late.filter _ = _
    rw [show (w.daySet x g e).intake.late = w.intake.late from hlate]
    refine List.filter_congr fun r _ => ?_
    by_cases hr : r ∈ g.merging.map fun p => p.1
    · simp only [hr, List.contains_iff_mem, not_true, decide_false, Bool.not_eq_false']
    · simp only [hr, not_false_eq_true, decide_true, Bool.not_eq_true', ← Bool.not_eq_true, List.contains_iff_mem]

/-! ## Balance (R46) -/

theorem indexTotals_congr {a b : List Run} (h : a.map Run.seen = b.map Run.seen) :
    indexTotals (a.flatMap (·.entries)) = indexTotals (b.flatMap (·.entries)) := by
  have htotals : ∀ l : List Run, (l.flatMap (·.entries)).map (·.totals) = (l.map Run.seen).flatMap fun r => r.2.2.map fun q => q.2.2.1 := by
    intro l
    simp only [List.map_flatMap, List.flatMap_map, Run.seen, List.map_map]
    rfl
  simp only [indexTotals, htotals, h]

/-- A day whose counters balance still balances when its amounts account for the change of its index. -/
theorem DayEntry.completed_conserved {d e : DayEntry} {g : Group} (hd : d.conserved)
    (hindex : indexTotals e.entries =
      (((((indexTotals d.entries).add g.amounts.packed).add g.amounts.inserted).add g.amounts.corr).sub g.amounts.voided).sub
        g.amounts.retired)
    (hi : e.intake = d.intake.sub g.amounts.dropped) (hs : e.staged = d.staged.sub g.amounts.packed)
    (hl : e.late = d.late.sub (g.amounts.inserted.add g.amounts.dropped)) (hr : e.retired = d.retired.add g.amounts.retired)
    (hv : e.voided = d.voided.add g.amounts.voided) (hc : e.corr = d.corr.add g.amounts.corr) : e.conserved := by
  unfold DayEntry.conserved at hd ⊢
  rw [hindex, hi, hs, hl, hr, hv, hc]
  simp only [Triple.add, Triple.sub, Triple.mk.injEq] at hd ⊢
  omega

/-- What a group's completion leaves of its day. -/
theorem DayEntry.completed_facts (d : DayEntry) (g : Group) (a : SlotAddr) (work : Work) :
    let e := d.completed g a work
    e.group = g.number ∧ e.inProgress = none ∧ e.summary = some a ∧ e.owed = (d.leaving g).length + d.summary.toList.length ∧
      e.runs = (d.reindex g).runs ∧ e.intake = d.intake.sub g.amounts.dropped ∧ e.staged = d.staged.sub g.amounts.packed ∧
      e.late = d.late.sub (g.amounts.inserted.add g.amounts.dropped) ∧ e.retired = d.retired.add g.amounts.retired ∧
      e.voided = d.voided.add g.amounts.voided ∧ e.corr = d.corr.add g.amounts.corr ∧
      (∀ c, work = .closeRun c → e.awaiting = d.awaiting.filter (fun k => decide (k ≠ c)) ∧
        e.state = if e.awaiting = [] ∧ d.state = .closing then .closed else d.state) ∧
      ((∀ c, work ≠ .closeRun c) → e.awaiting = d.awaiting ∧ e.state = d.state) := by
  cases work with
  | closeRun c =>
    refine ⟨rfl, rfl, rfl, rfl, rfl, rfl, rfl, rfl, rfl, rfl, rfl, fun k hk => ?_, fun h => absurd rfl (h c)⟩
    cases hk
    exact ⟨rfl, rfl⟩
  | _ => exact ⟨rfl, rfl, rfl, rfl, rfl, rfl, rfl, rfl, rfl, rfl, rfl, fun k hk => (by cases hk), fun _ => ⟨rfl, rfl⟩⟩

/-! ## A program's end (R99) -/

section
variable {mc : Fin 4} {s : State} {o : Op} (hbusy : (s.works.chan mc).busy = some o)
include hbusy

theorem exec_programDone {post idx : Nat} {image : Bytes} (hkind : o.kind = .program post idx image) (r : ProgramEnd) :
    exec (.programDone mc r) s = (s.mapMedia mc fun m => m.programmed idx image r).settled
      (if o.stray then s.works.opEnded mc else s.works.programEnded s.ctx mc post idx (programOk r)) := by
  change execProgramDone mc r s = _
  simp only [execProgramDone, hbusy, hkind]
  rfl

theorem exec_copyDone {idx : Nat} {image : Bytes} {source : Fin 4} (hkind : o.kind = .copy idx image source) (r : ProgramEnd) :
    exec (.programDone mc r) s = (s.mapMedia mc fun m => m.programmed idx image r).settled
      (if o.stray then s.works.opEnded mc else s.works.copyEnded s.ctx mc idx source (programOk r)) := by
  change execProgramDone mc r s = _
  simp only [execProgramDone, hbusy, hkind]
  rfl

end

theorem Works.takeIn_of_none {w : Works} (h : w.array.offered = []) : w.takeIn = w := by
  rw [Works.takeIn, h]
  rfl

/-- What a program's end leaves alone. -/
def Works.Apart (mc : Fin 4) (w v : Works) : Prop :=
  v.days = w.days ∧ v.intake = w.intake ∧ v.packer = w.packer ∧ v.retention = w.retention ∧ v.enquiry = w.enquiry ∧ v.amend = w.amend ∧
    (v.chan mc).busy = none

section
variable {x : Ctx} {w : Works} {mc : Fin 4} {post idx : Nat} {p : Post}
  (hp : w.array.posting.find? (fun q => decide (q.id = post)) = some p) (hoffered : w.array.offered = [])
include hp hoffered

/-- A posted image's program passed. -/
theorem Works.programEnded_passed :
    let t := w.programEnded x mc post idx true
    w.Apart mc t ∧ (t.slot ⟨mc, idx⟩).map (fun i => i.state) = some .live ∧
      t.array.posting = w.array.posting.filter (fun q => decide (q.id ≠ post)) ∧ t.HeadImage ⟨mc, idx⟩ p.image ∧
      t.tasks = w.tasks ++ (if p.orphan then [] else [.sheetLive p.poster ⟨mc, idx⟩]) ++ [.allocate, .grant mc] := by
  intro t
  let w₁ : Works := { w.mapChan mc fun c => c.setSlot idx .live with
    array := { (w.mapChan mc fun c => c.setSlot idx .live).array with posting := w.array.posting.filter fun q => decide (q.id ≠ post) } }
  obtain ⟨serial, cache, henter⟩ := w₁.enterCache_frame ⟨mc, idx⟩ p.image
  have hhead := w₁.enterCache_head ⟨mc, idx⟩ p.image
  let w₂ := (w₁.enterCache ⟨mc, idx⟩ p.image).2
  let w₃ := if p.orphan then w₂ else w₂.task (.sheetLive p.poster ⟨mc, idx⟩)
  have h₂ : w₂ = { w₁ with serial := serial, array := { w₁.array with cache := cache } } := henter
  have h₃ : w₃ = { w₂ with tasks := w.tasks ++ if p.orphan then [] else [.sheetLive p.poster ⟨mc, idx⟩] } := by
    simp only [w₃]
    split
    · rw [List.append_nil, h₂]
      rfl
    · rw [h₂]
      rfl
  have ht : t = (w₃.takeIn.task .allocate).opEnded mc := by
    simp only [t, Works.programEnded, hp, if_true]
    rfl
  have htake : w₃.takeIn = w₃ := Works.takeIn_of_none (by rw [h₃, h₂]; exact hoffered)
  rw [htake] at ht
  have hslot : ((w.mapChan mc fun c => c.setSlot idx .live).chan mc).slot idx =
      some ⟨.live, (((w.chan mc).slot idx).map (·.kind)).getD .data⟩ := by
    rw [w.mapChan_chan_self]
    exact tblGet_put_self _ _ _
  have hended := Works.opEnded_onChan (w₃.task .allocate) mc
  have hchan : t.chan mc = { w₃.chan mc with busy := none } := by rw [ht]; exact hended.2.1
  have hchan₃ : w₃.chan mc = (w.mapChan mc fun c => c.setSlot idx .live).chan mc := by
    rw [h₃, h₂]
    rfl
  refine ⟨⟨?_, ?_, ?_, ?_, ?_, ?_, ?_⟩, ?_, ?_, ?_, ?_⟩
  · rw [ht, h₃, h₂]; rfl
  · rw [ht, h₃, h₂]; rfl
  · rw [ht, h₃, h₂]; rfl
  · rw [ht, h₃, h₂]; rfl
  · rw [ht, h₃, h₂]; rfl
  · rw [ht, h₃, h₂]; rfl
  · rw [hchan]
  · rw [Works.slot, hchan, MediaChan.idle_slot, hchan₃, hslot]
    rfl
  · rw [ht, h₃, h₂]; rfl
  · rw [ht, h₃]
    exact hhead
  · rw [ht, h₃]
    simp only [Works.opEnded, Works.task_tasks, Works.mapChan_tasks, List.append_assoc]
    rfl

omit hp hoffered in
/-- A slot made STALE by a failed program, and the failure of its extent counted. -/
theorem Works.slotFailed_onChan (x : Ctx) (w : Works) (mc : Fin 4) (idx : Nat) :
    w.OnChan (fun c d => (d.slot idx).map (fun i => i.state) = some .stale ∧ (d.ext (idx / 64)).failures = min 2 ((c.ext (idx / 64)).failures + 1) ∧
      d.relocation = c.relocation ∧ d.busy = c.busy ∧ d.owed = c.owed ∧ d.queue = c.queue ∧ d.waiting = c.waiting) mc
      ((w.mapChan mc fun c => c.stale idx).failExt x mc (extOf idx)) := by
  refine (Works.OnChan.map w mc (R := fun c d => d = c.stale idx) (fun c => c.stale idx) rfl).trans (Works.failExt_onChan x _ mc _) ?_
  rintro c d e hd ⟨he, hcount⟩
  have hslot : e.slot idx = d.slot idx := by rw [he]; rfl
  refine ⟨?_, ?_, ?_, ?_, ?_, ?_, ?_⟩
  · rw [hslot, hd]
    show ((c.stale idx).slot idx).map (fun i => i.state) = some .stale
    exact congrArg (Option.map fun i : SlotInfo => i.state) (tblGet_put_self _ _ _)
  · exact hcount.trans (by rw [hd]; rfl)
  all_goals
    rw [he, hd]
    rfl

/-- A posted image's program failed. -/
theorem Works.programEnded_failed :
    let t := w.programEnded x mc post idx false
    w.Apart mc t ∧ (t.slot ⟨mc, idx⟩).map (fun i => i.state) = some .stale ∧
      ((t.chan mc).ext (idx / 64)).failures = min 2 (((w.chan mc).ext (idx / 64)).failures + 1) ∧
      t.array.posting = (if p.orphan then w.array.posting.filter (fun q => decide (q.id ≠ post))
        else { p with slot := none } :: w.array.posting.filter fun q => decide (q.id ≠ post)) ∧ t.array.cache = w.array.cache := by
  intro t
  obtain ⟨⟨more, serial, port, full, hfail⟩, ⟨hstale, hcount, -⟩, -⟩ := w.slotFailed_onChan x mc idx
  let w₁ := (w.mapChan mc fun c => c.stale idx).failExt x mc (extOf idx)
  let w₂ : Works := { w₁ with array := { w₁.array with
    posting := if p.orphan then w.array.posting.filter (fun q => decide (q.id ≠ post))
      else { p with slot := none } :: w.array.posting.filter fun q => decide (q.id ≠ post) } }
  have h₁ : w₁ = _ := hfail
  have ht : t = (w₂.takeIn.addTasks [.allocate, .relocationTest mc, .relocationSettle mc]).opEnded mc := by
    simp only [t, Works.programEnded, hp, Bool.false_eq_true, if_false]
    rfl
  have htake : w₂.takeIn = w₂ := Works.takeIn_of_none (by
    show w₁.array.offered = []
    rw [h₁]
    exact hoffered)
  rw [htake] at ht
  have hended := Works.opEnded_onChan (w₂.addTasks [.allocate, .relocationTest mc, .relocationSettle mc]) mc
  have hchan : t.chan mc = { w₁.chan mc with busy := none } := by rw [ht]; exact hended.2.1
  refine ⟨⟨?_, ?_, ?_, ?_, ?_, ?_, ?_⟩, ?_, ?_, ?_, ?_⟩
  · rw [ht]; exact (show w₁.days = w.days by rw [h₁])
  · rw [ht]; exact (show w₁.intake = w.intake by rw [h₁])
  · rw [ht]; exact (show w₁.packer = w.packer by rw [h₁])
  · rw [ht]; exact (show w₁.retention = w.retention by rw [h₁])
  · rw [ht]; exact (show w₁.enquiry = w.enquiry by rw [h₁])
  · rw [ht]; exact (show w₁.amend = w.amend by rw [h₁])
  · rw [hchan]
  · rw [Works.slot, hchan, MediaChan.idle_slot]
    exact hstale
  · rw [hchan, MediaChan.idle_ext]
    exact hcount
  · rw [ht]
    rfl
  · rw [ht]; exact (show w₁.array.cache = w.array.cache by rw [h₁])

end

/-! ## A relocation copy's end (R45, R106) -/

/-- What a copy's end leaves of a channel before the operation's own end: its tables, its relocation, and a copy in progress. -/
def MediaChan.Carried (c d : MediaChan) : Prop :=
  d.slots = c.slots ∧ d.relocation = c.relocation ∧
    ∀ o idx image source, c.busy = some o → o.kind = .copy idx image source → d.busy = some o

/-- What a copy's end leaves of the part before the operation's own end. -/
def Works.Carried (w v : Works) : Prop := v.intake = w.intake ∧ v.packer = w.packer ∧ ∀ m, (w.chan m).Carried (v.chan m)

theorem Works.Carried.of_chans {w v : Works} (hi : v.intake = w.intake) (hp : v.packer = w.packer) (ha : v.array.chans = w.array.chans) :
    w.Carried v :=
  ⟨hi, hp, fun m => by rw [show v.chan m = w.chan m from congrArg (fun q => q.get m) ha]; exact ⟨rfl, rfl, fun _ _ _ _ h _ => h⟩⟩

theorem Works.Carried.trans {w v u : Works} (h : w.Carried v) (k : v.Carried u) : w.Carried u := by
  obtain ⟨hi, hp, hc⟩ := h
  obtain ⟨hi', hp', hc'⟩ := k
  refine ⟨hi'.trans hi, hp'.trans hp, fun m => ?_⟩
  obtain ⟨hs, hr, hb⟩ := hc m
  obtain ⟨hs', hr', hb'⟩ := hc' m
  exact ⟨hs'.trans hs, hr'.trans hr, fun o idx image source h hk => hb' o idx image source (hb o idx image source h hk) hk⟩

theorem Works.OnChan.carried {mc : Fin 4} {w v : Works} (h : w.OnChan MediaChan.Carried mc v) : w.Carried v := by
  obtain ⟨⟨more, serial, port, full, heq⟩, hself, hother⟩ := h
  refine ⟨by rw [heq], by rw [heq], fun m => ?_⟩
  by_cases hm : m = mc
  · rw [hm]
    exact hself
  · rw [hother m hm]
    exact ⟨rfl, rfl, fun _ _ _ _ h _ => h⟩

theorem Works.voidMark_carried (w : Works) (a : SlotAddr) (who : VoidOwner) : w.Carried (w.voidMark a who) := by
  refine Works.OnChan.carried (mc := a.ch) ?_
  unfold Works.voidMark
  dsimp only
  split
  · refine Works.OnChan.map w a.ch _ ⟨rfl, rfl, fun o idx image source h hk => ?_⟩
    simp only [MediaChan.mapOps, h, Option.map_some, Op.joinVoid, hk]
  · split
    · refine Works.OnChan.map w a.ch _ ?_
      unfold MediaChan.owe
      split
      · exact ⟨rfl, rfl, fun _ _ _ _ h _ => h⟩
      · exact ⟨rfl, rfl, fun _ _ _ _ h _ => h⟩
    · split
      · refine Works.OnChan.ask w a.ch _ _ ?_
        rw [Works.askOp_chan_self]
        split
        · exact ⟨rfl, rfl, fun _ _ _ _ h _ => h⟩
        · exact ⟨rfl, rfl, fun _ _ _ _ h _ => h⟩
      · exact (Works.OnChan.tell a.ch w [_]).mono fun h => by rw [h]; exact ⟨rfl, rfl, fun _ _ _ _ h _ => h⟩

theorem Works.voidMark_stands (w : Works) (a : SlotAddr) (who : VoidOwner) :
    (w.voidMark a who).days = w.days ∧ (w.voidMark a who).retention = w.retention := by
  obtain ⟨⟨more, serial, port, full, heq⟩, -, -⟩ := w.voidMark_onChan a who
  rw [heq]
  exact ⟨rfl, rfl⟩

/-- A void mark asked of a LIVE slot stands among those asked. -/
theorem Works.voidMark_asked {w : Works} {a : SlotAddr} (who : VoidOwner) (hlive : (w.slot a).map (fun i => i.state) = some .live) :
    ((w.voidMark a who).chan a.ch).voidAsked a.idx = true := by
  obtain ⟨i, hi, hstate⟩ := Option.map_eq_some_iff.mp hlive
  have hslot : (w.chan a.ch).slot a.idx = some i := hi
  have hreadable : i.readable = true := by simp [SlotInfo.readable, hstate]
  unfold Works.voidMark
  dsimp only
  split
  · next h =>
    rw [Works.mapChan_chan_self]
    refine (Bool.or_eq_true _ _).mpr (.inl ?_)
    obtain ⟨o, ho, hvoids⟩ := List.any_eq_true.mp h
    refine List.any_eq_true.mpr ⟨o.joinVoid a.idx who, ?_, ?_⟩
    · simp only [MediaChan.ops, MediaChan.mapOps, Option.toList_map, ← List.map_append]
      exact List.mem_map_of_mem ho
    · unfold Op.voids at hvoids
      split at hvoids
      · next l again hk =>
        obtain ⟨hidx, hstray⟩ := (Bool.and_eq_true _ _).mp hvoids
        simp [Op.joinVoid, Op.voids, hk, of_decide_eq_true hidx, show o.stray = false by simpa using hstray]
      · cases hvoids
  · split
    · rw [Works.mapChan_chan_self]
      refine (Bool.or_eq_true _ _).mpr (.inr ?_)
      unfold MediaChan.owe
      split
      · next h =>
        obtain ⟨m, hm, hidx⟩ := List.any_eq_true.mp h
        refine List.any_eq_true.mpr ⟨_, List.mem_map_of_mem hm, ?_⟩
        simp only [hidx, if_true]
      · exact List.any_eq_true.mpr ⟨_, List.mem_append_right _ (List.mem_singleton.mpr rfl), decide_eq_true rfl⟩
    · rw [if_pos (by rw [hslot]; exact hreadable), Works.askOp_chan_self]
      refine (Bool.or_eq_true _ _).mpr (.inl (List.any_eq_true.mpr ⟨⟨w.serial, false, .voidMark a.idx [who] false, false⟩, ?_, ?_⟩))
      · split
        · simp [MediaChan.ops]
        · simp [MediaChan.ops]
      · simp [Op.voids]

/-- The first entry of a class and first key in a day's walk is the one found under them. -/
theorem DayEntry.find_walk {day : DayEntry} {cls : Nat} {first : Key} {e : Entry} (h : day.entry cls first = some e) :
    day.walk.find? (fun q => decide (q.1 = cls ∧ q.2.first = first)) = some (cls, e) := by
  unfold DayEntry.entry DayEntry.runEntries DayEntry.run at h
  unfold DayEntry.walk
  generalize day.runs = runs at h ⊢
  induction runs with
  | nil => cases h
  | cons r l ih =>
    rw [List.flatMap_cons, List.find?_append, List.find?_map]
    by_cases hcls : r.cls = cls
    · rw [List.find?_cons_of_pos (by simpa using hcls)] at h
      have hsame : (fun q : Nat × Entry => decide (q.1 = cls ∧ q.2.first = first)) ∘ (fun s => (r.cls, s)) =
          fun s => decide (s.first = first) := by
        funext s
        simp [hcls]
      rw [hsame, show r.entries.find? _ = some e from h, hcls]
      rfl
    · rw [List.find?_cons_of_neg (by simpa using hcls)] at h
      have hnone : r.entries.find? ((fun q : Nat × Entry => decide (q.1 = cls ∧ q.2.first = first)) ∘ fun s => (r.cls, s)) = none :=
        List.find?_eq_none.mpr fun s _ => by simp [hcls]
      rw [hnone]
      exact ih h

/-- The first entry of a day, class and first key, in the order of the catalogue, is the one found under them. -/
theorem Works.find_of_entryAt {w : Works} {d cls : Nat} {first : Key} {e : Entry} (h : w.entryAt d cls first = some e) :
    (w.days.flatMap fun p => p.2.walk.map fun q => (p.1, q.1, q.2)).find?
      (fun t => decide (t.1 = d ∧ t.2.1 = cls ∧ t.2.2.first = first)) = some (d, cls, e) := by
  obtain ⟨day, hday, hentry⟩ := Option.bind_eq_some_iff.mp h
  have hfound : tblGet d w.days = some day := (Option.filter_eq_some_iff.mp hday).1
  generalize w.days = days at hfound ⊢
  induction days with
  | nil => cases hfound
  | cons p t ih =>
    obtain ⟨j, f⟩ := p
    rw [List.flatMap_cons, List.find?_append, List.find?_map]
    by_cases hj : j = d
    · have hf : f = day := by simpa [tblGet, hj] using hfound
      have hsame : (fun t : Nat × Nat × Entry => decide (t.1 = d ∧ t.2.1 = cls ∧ t.2.2.first = first)) ∘
          (fun q : Nat × Entry => (j, q.1, q.2)) = fun q => decide (q.1 = cls ∧ q.2.first = first) := by
        funext q
        simp [hj]
      rw [hsame, hf, DayEntry.find_walk hentry, hj]
      rfl
    · have hnone : f.walk.find? ((fun t : Nat × Nat × Entry => decide (t.1 = d ∧ t.2.1 = cls ∧ t.2.2.first = first)) ∘
          fun q : Nat × Entry => (j, q.1, q.2)) = none := List.find?_eq_none.mpr fun q _ => by simp [hj]
      rw [hnone]
      exact ih (by simpa [tblGet, hj] using hfound)

/-- The catalogue's entries in its order, those of a day, class and first key changed. -/
theorem Works.catalogue_mapEntry (w : Works) (d cls : Nat) (first : Key) (f : Entry → Entry) :
    ((w.mapEntry d cls first f).days.flatMap fun p => p.2.walk.map fun q => (p.1, q.1, q.2)) =
      updateWhere (fun t => decide (t.1 = d ∧ t.2.1 = cls ∧ t.2.2.first = first)) (fun t => (t.1, t.2.1, f t.2.2))
        (w.days.flatMap fun p => p.2.walk.map fun q => (p.1, q.1, q.2)) := by
  simp only [Works.mapEntry, Works.mapDay_days, tblModify, updateWhere, List.flatMap_map, List.map_flatMap, List.map_map]
  refine List.flatMap_congr fun p _ => ?_
  by_cases hd : p.1 = d
  · simp only [hd, if_true, DayEntry.walk_mapEntry, List.map_map]
    refine List.map_congr_left fun q _ => ?_
    by_cases hq : q.1 = cls ∧ q.2.first = first
    · simp [changeAt, hq]
    · simp [changeAt, hq]
  · simp only [hd, if_false]
    refine List.map_congr_left fun q _ => ?_
    simp [hd]

/-- The entry whose sheet has moved to a slot that none named is the one that names it. -/
theorem Works.entryOfSlot_moved {w : Works} {d cls : Nat} {e : Entry} {new : SlotAddr} (hnone : w.entryOfSlot new = none)
    (he : w.entryAt d cls e.first = some e) :
    (w.mapEntry d cls e.first fun e => { e with slot := new }).entryOfSlot new = some (d, cls, { e with slot := new }) := by
  unfold Works.entryOfSlot at hnone ⊢
  rw [Works.catalogue_mapEntry, updateWhere, List.find?_map]
  have hfree := List.find?_eq_none.mp hnone
  rw [List.find?_congr (p₂ := fun t => decide (t.1 = d ∧ t.2.1 = cls ∧ t.2.2.first = e.first)), Works.find_of_entryAt he]
  · simp
  · intro t ht
    have hne : t.2.2.slot ≠ new := by simpa using hfree t ht
    rw [Function.comp_apply]
    by_cases hmatch : t.1 = d ∧ t.2.1 = cls ∧ t.2.2.first = e.first
    · simp [hmatch]
    · simp [hmatch, hne]

/-- A copy whose program passed, its sheet's owner having been told: the walk goes on and the operation ends. -/
def Works.copyClosed (w : Works) (source mc : Fin 4) (old : Nat) : Works :=
  (((w.mapReloc source fun r => { (r.past old) with copy := none }).task (.relocationSettle source)).task .allocate).opEnded mc

theorem Works.copyClosed_chan (w : Works) (source mc : Fin 4) (old : Nat) (m : Fin 4) :
    (w.copyClosed source mc old).chan m = { w.chan m with
      busy := if m = mc then none else (w.chan m).busy
      relocation := if m = source then (w.chan m).relocation.map (fun r => { (r.past old) with copy := none })
        else (w.chan m).relocation } := by
  let u := ((w.mapReloc source fun r => { (r.past old) with copy := none }).task (.relocationSettle source)).task .allocate
  have hu : u.chan m = { w.chan m with
      relocation := if m = source then (w.chan m).relocation.map (fun r => { (r.past old) with copy := none })
        else (w.chan m).relocation } := by
    by_cases hm : m = source
    · subst hm
      refine (w.mapChan_chan_self m _).trans ?_
      rw [if_pos rfl]
    · refine (w.mapChan_chan_other _ hm).trans ?_
      rw [if_neg hm]
  obtain ⟨-, hself, hother⟩ := Works.opEnded_onChan u mc
  by_cases hm : m = mc
  · subst hm
    refine hself.trans ?_
    rw [hu, if_pos rfl]
  · refine (hother m hm).trans ?_
    rw [hu, if_neg hm]

/-- An operation's end takes no void mark from those asked, unless it was one. -/
theorem MediaChan.voidAsked_ended {c : MediaChan} {o : Op} {i idx : Nat} {image : Bytes} {source : Fin 4} (hbusy : c.busy = some o)
    (hkind : o.kind = .copy idx image source) (r : Option Relocation) :
    ({ c with busy := none, relocation := r } : MediaChan).voidAsked i = c.voidAsked i := by
  simp [MediaChan.voidAsked, MediaChan.ops, hbusy, Op.voids, hkind]

section
variable {x : Ctx} {w : Works} {mc source : Fin 4} {o : Op} {idx : Nat} {image : Bytes} {r : Relocation} {cp : Copy}
  (hbusy : (w.chan mc).busy = some o) (hkind : o.kind = .copy idx image source) (hr : (w.chan source).relocation = some r)
  (hcopy : r.copy = some cp) (hnew : cp.new = some ⟨mc, idx⟩)

/-- The part with the new slot LIVE. -/
def Works.copyLive (w : Works) (mc : Fin 4) (idx : Nat) : Works := w.mapChan mc fun c => c.setSlot idx .live

theorem Works.copyLive_chan (w : Works) (mc : Fin 4) (idx : Nat) (m : Fin 4) :
    ((w.copyLive mc idx).chan m).relocation = (w.chan m).relocation ∧ ((w.copyLive mc idx).chan m).busy = (w.chan m).busy := by
  by_cases hm : m = mc
  · subst hm
    rw [Works.copyLive, Works.mapChan_chan_self]
    exact ⟨rfl, rfl⟩
  · rw [Works.copyLive, Works.mapChan_chan_other _ _ hm]
    exact ⟨rfl, rfl⟩

theorem Works.copyLive_slot (w : Works) (mc : Fin 4) (idx : Nat) :
    ((w.copyLive mc idx).slot ⟨mc, idx⟩).map (fun i => i.state) = some .live ∧
      ∀ b, (w.slot b).map (fun i => i.state) = some .live → ((w.copyLive mc idx).slot b).map (fun i => i.state) = some .live := by
  have hself : ((w.copyLive mc idx).slot ⟨mc, idx⟩).map (fun i => i.state) = some .live := by
    show (((w.copyLive mc idx).chan mc).slot idx).map (fun i => i.state) = some .live
    rw [Works.copyLive, Works.mapChan_chan_self]
    exact congrArg (Option.map fun i : SlotInfo => i.state) (tblGet_put_self _ _ _)
  refine ⟨hself, fun b hb => ?_⟩
  by_cases hmc : b.ch = mc
  · by_cases hidx : b.idx = idx
    · rw [SlotAddr.eq_of_parts (a := ⟨mc, idx⟩) hmc hidx]
      exact hself
    · refine Eq.trans ?_ hb
      rw [Works.slot, Works.slot, hmc, Works.copyLive, Works.mapChan_chan_self]
      exact congrArg (Option.map fun i : SlotInfo => i.state) (tblGet_put_other _ _ _ _ hidx)
  · rw [Works.slot, Works.copyLive, Works.mapChan_chan_other _ _ hmc]
    exact hb

include hbusy hkind hr in
/-- A copy closed after a step that carried the channels on. -/
theorem Works.copyClosed_facts {v : Works} (old : Nat) (hv : (w.copyLive mc idx).Carried v) :
    let t := v.copyClosed source mc old
    t.intake = w.intake ∧ t.packer = w.packer ∧ (t.chan mc).busy = none ∧ (t.slot ⟨mc, idx⟩).map (fun i => i.state) = some .live ∧
      (t.chan source).relocation = some { (r.past old) with copy := none } ∧ t.days = v.days ∧ t.retention = v.retention ∧
      ∀ m i, (t.chan m).voidAsked i = (v.chan m).voidAsked i := by
  obtain ⟨hi, hp, hc⟩ := hv
  intro t
  have hchan := v.copyClosed_chan source mc old
  refine ⟨hi, hp, ?_, ?_, ?_, rfl, rfl, fun m i => ?_⟩
  · rw [hchan]
    exact if_pos rfl
  · obtain ⟨hs, -, -⟩ := hc mc
    have hslot : t.slot ⟨mc, idx⟩ = (w.copyLive mc idx).slot ⟨mc, idx⟩ := by
      rw [Works.slot, hchan]
      exact congrArg (tblGet idx) hs
    rw [hslot]
    exact (w.copyLive_slot mc idx).1
  · obtain ⟨-, hrel, -⟩ := hc source
    rw [hchan]
    refine (if_pos rfl).trans ?_
    rw [hrel, (w.copyLive_chan mc idx source).1, hr]
    rfl
  · rw [hchan]
    by_cases hm : m = mc
    · subst hm
      obtain ⟨-, -, hb⟩ := hc m
      rw [if_pos rfl]
      exact MediaChan.voidAsked_ended (hb o idx image source ((w.copyLive_chan m idx m).2.trans hbusy) hkind) hkind _
    · rw [if_neg hm]
      rfl

include hr hcopy hnew in
/-- A copy's program passed: the new slot is LIVE, the sheet's owner is told, and the copy is closed. -/
theorem Works.copyEnded_passed :
    w.copyEnded x mc idx source true =
      (match cp.kind with
        | .data =>
          match w.entryOfSlot ⟨source, cp.old⟩ with
          | some (d, cls, e) =>
            (((((w.copyLive mc idx).mapEntry d cls e.first fun e => { e with slot := ⟨mc, idx⟩ }).moveCached ⟨source, cp.old⟩
              ⟨mc, idx⟩).releaseSlot x ⟨mc, idx⟩).voidMark ⟨source, cp.old⟩ .untold).copyClosed source mc cp.old
          | none => ((w.copyLive mc idx).voidMark ⟨mc, idx⟩ .untold).copyClosed source mc cp.old
        | _ =>
          if w.named ⟨source, cp.old⟩ then
            ((((w.copyLive mc idx).rename ⟨source, cp.old⟩ ⟨mc, idx⟩).moveCached ⟨source, cp.old⟩ ⟨mc, idx⟩).voidMark ⟨source, cp.old⟩
              .untold).copyClosed source mc cp.old
          else ((w.copyLive mc idx).voidMark ⟨mc, idx⟩ .untold).copyClosed source mc cp.old) := by
  have hbind : (((w.mapChan mc fun c => c.setSlot idx .live).chan source).relocation.bind fun r => r.copy) = some cp := by
    rw [show ((w.mapChan mc fun c => c.setSlot idx .live).chan source).relocation = some r from (w.copyLive_chan mc idx source).1.trans hr]
    exact hcopy
  simp only [Works.copyEnded, if_true, Works.copyPassed, hbind]
  rw [if_neg (by simp [hnew])]
  cases cp.kind with
  | data =>
    dsimp only
    rw [show (w.mapChan mc fun c => c.setSlot idx .live).entryOfSlot ⟨source, cp.old⟩ = w.entryOfSlot ⟨source, cp.old⟩ from rfl]
    cases w.entryOfSlot ⟨source, cp.old⟩ with
    | none => rfl
    | some t => rfl
  | _ =>
    dsimp only
    rw [show (w.mapChan mc fun c => c.setSlot idx .live).named ⟨source, cp.old⟩ = w.named ⟨source, cp.old⟩ from rfl]
    split
    · rfl
    · rfl

end

/-- Opening an extent anew leaves every failure count as it was. -/
theorem MediaChan.reopen_counts (c : MediaChan) (extents e : Nat) : ((c.reopen extents).ext e).failures = (c.ext e).failures := by
  have hset : ∀ (c : MediaChan) (f : Nat) (st : ExtState), ((c.setExt f st).ext e).failures = (c.ext e).failures := by
    intro c f st
    by_cases he : e = f
    · rw [he, c.setExt_ext_self]
    · rw [c.setExt_ext_other st he]
  have hshut : (c.shut.ext e).failures = (c.ext e).failures := by
    unfold MediaChan.shut
    split
    · exact hset c _ _
    · rfl
  rcases c.reopen_cases extents with ⟨heq, -⟩ | ⟨f, -, heq⟩ | heq
  · rw [heq]
  · rw [heq]
    exact (hset c.shut f .opened).trans hshut
  · rw [heq]
    exact hshut

/-- A slot allocated: the relocations and failure counts of every channel are as they were. -/
theorem Works.takeSlot_kept {x : Ctx} {w t : Works} {kind : SheetKind} {a : SlotAddr} (h : w.takeSlot x kind = some (a, t)) :
    t.intake = w.intake ∧ t.packer = w.packer ∧
      ∀ m, (t.chan m).relocation = (w.chan m).relocation ∧ ∀ e, ((t.chan m).ext e).failures = ((w.chan m).ext e).failures := by
  obtain ⟨-, -, ⟨⟨more, serial, port, full, heq⟩, hself, hother⟩⟩ := Works.takeSlot_spec h
  refine ⟨by rw [heq], by rw [heq], fun m => ?_⟩
  by_cases hm : m = a.ch
  · subst hm
    rw [hself]
    refine ⟨?_, fun e => MediaChan.reopen_counts _ _ e⟩
    rw [(w.chan a.ch).reopen_reopened]
  · rw [hother m hm]
    exact ⟨rfl, fun _ => rfl⟩

theorem Works.releaseSlot_stands (x : Ctx) (w : Works) (a : SlotAddr) :
    (w.releaseSlot x a).intake = w.intake ∧ (w.releaseSlot x a).packer = w.packer ∧ (w.releaseSlot x a).array = w.array ∧
      (w.releaseSlot x a).retention = w.retention := by
  have hrelease : ∀ d cls first, (w.release x d cls first).intake = w.intake ∧ (w.release x d cls first).packer = w.packer ∧
      (w.release x d cls first).array = w.array ∧ (w.release x d cls first).retention = w.retention := by
    intro d cls first
    rcases w.release_eq x d cls first with h | ⟨port, h⟩
    · rw [h]; exact ⟨rfl, rfl, rfl, rfl⟩
    · rw [h]; exact ⟨rfl, rfl, rfl, rfl⟩
  unfold Works.releaseSlot
  split
  · split
    · exact hrelease _ _ _
    · exact ⟨rfl, rfl, rfl, rfl⟩
  · exact ⟨rfl, rfl, rfl, rfl⟩

theorem Works.mapReloc_chan (w : Works) (mc : Fin 4) (f : Relocation → Relocation) (m : Fin 4) :
    (w.mapReloc mc f).chan m = { w.chan m with
      relocation := if m = mc then (w.chan m).relocation.map f else (w.chan m).relocation } := by
  by_cases hm : m = mc
  · subst hm
    refine (w.mapChan_chan_self m _).trans ?_
    rw [if_pos rfl]
  · refine (w.mapChan_chan_other _ hm).trans ?_
    rw [if_neg hm]

/-- What asking an operation leaves of the channels. -/
theorem Works.askOp_kept (w : Works) (mc : Fin 4) (kind : OpKind) (fg : Bool) (m : Fin 4) :
    ((w.askOp mc kind fg).chan m).slots = (w.chan m).slots ∧ ((w.askOp mc kind fg).chan m).exts = (w.chan m).exts ∧
      ((w.askOp mc kind fg).chan m).relocation = (w.chan m).relocation := by
  by_cases hm : m = mc
  · subst hm
    rw [Works.askOp_chan_self]
    split
    · exact ⟨rfl, rfl, rfl⟩
    · exact ⟨rfl, rfl, rfl⟩
  · rw [w.askOp_chan_other kind fg hm]
    exact ⟨rfl, rfl, rfl⟩

/-- A copy whose slot was lost takes another, or ends with its claim released and the relocation paused. -/
theorem Works.recopy_facts {x : Ctx} {w : Works} {source : Fin 4} {r : Relocation} {cp : Copy}
    (hr : (w.chan source).relocation = some r) (hcopy : r.copy = some cp) :
    let v := w.recopy x source
    v.intake = w.intake ∧ v.packer = w.packer ∧ (∀ b, w.slot b ≠ none → v.slot b = w.slot b) ∧
      (∀ m e, ((v.chan m).ext e).failures = ((w.chan m).ext e).failures) ∧
      ∃ q, (v.chan source).relocation = some q ∧ q.source = r.source ∧
        ((∃ a, w.slot a = none ∧ q.copy = some { cp with new := some a } ∧ (v.slot a).map (fun i => i.state) = some .writing) ∨
          (q.copy = none ∧ q.paused = true ∧ v.days = (w.releaseSlot x ⟨source, cp.old⟩).days)) := by
  intro v
  have hbind : ((w.chan source).relocation.bind fun r => r.copy) = some cp := by rw [hr]; exact hcopy
  cases htake : w.takeSlot x cp.kind with
  | none =>
    obtain ⟨hi, hp, ha, -⟩ := w.releaseSlot_stands x ⟨source, cp.old⟩
    have hv : v = (w.releaseSlot x ⟨source, cp.old⟩).mapReloc source fun r => { r with copy := none, paused := true } := by
      simp only [v, Works.recopy, hbind, htake, Works.pauseCopy]
    have hsame : ∀ m, (w.releaseSlot x ⟨source, cp.old⟩).chan m = w.chan m := fun m => by rw [Works.chan, ha]; rfl
    have hchan : ∀ m, v.chan m = { w.chan m with
        relocation := if m = source then (w.chan m).relocation.map (fun r => { r with copy := none, paused := true })
          else (w.chan m).relocation } := fun m => by
      rw [hv, Works.mapReloc_chan, hsame]
    refine ⟨by rw [hv]; exact hi, by rw [hv]; exact hp, fun b _ => ?_, fun m e => by rw [hchan]; rfl,
      { r with copy := none, paused := true }, ?_, rfl, .inr ⟨rfl, rfl, by rw [hv]; rfl⟩⟩
    · rw [Works.slot, hchan]
      rfl
    · rw [hchan, hr]
      exact if_pos rfl
  | some taken =>
    obtain ⟨a, t⟩ := taken
    obtain ⟨-, hnone, hwriting, hslots, -⟩ := Works.takeSlot_chan htake
    obtain ⟨hi, hp, hc⟩ := Works.takeSlot_kept htake
    let u := t.mapReloc source fun r => { r with copy := some { cp with new := some a } }
    have hv : v = match cp.image with
        | some b => u.askOp a.ch (.copy a.idx b source) false
        | none => u := by
      simp only [v, Works.recopy, hbind, htake]
      rfl
    have hkept : v.intake = u.intake ∧ v.packer = u.packer ∧
        ∀ m, (v.chan m).slots = (u.chan m).slots ∧ (v.chan m).exts = (u.chan m).exts ∧ (v.chan m).relocation = (u.chan m).relocation := by
      rw [hv]
      split
      · exact ⟨rfl, rfl, u.askOp_kept _ _ _⟩
      · exact ⟨rfl, rfl, fun _ => ⟨rfl, rfl, rfl⟩⟩
    obtain ⟨hvi, hvp, hvc⟩ := hkept
    have hslot : ∀ b, v.slot b = t.slot b := by
      intro b
      obtain ⟨hs, -, -⟩ := hvc b.ch
      rw [Works.slot, MediaChan.slot, hs, Works.mapReloc_chan]
      rfl
    refine ⟨hvi.trans hi, hvp.trans hp, fun b hb => ?_, fun m e => ?_, { r with copy := some { cp with new := some a } }, ?_, rfl,
      .inl ⟨a, hnone, rfl, ?_⟩⟩
    · rw [hslot]
      exact hslots b fun heq => hb (heq ▸ hnone)
    · obtain ⟨-, he, -⟩ := hvc m
      rw [MediaChan.ext, he, Works.mapReloc_chan]
      exact (hc m).2 e
    · obtain ⟨-, -, hrel⟩ := hvc source
      rw [hrel, Works.mapReloc_chan, (hc source).1, hr]
      exact if_pos rfl
    · rw [hslot, hwriting]
      rfl

/-- A copy's program failed: the slot is STALE, the failure counted, and the copy takes another slot or ends. -/
theorem Works.copyEnded_failed {x : Ctx} {w : Works} {mc source : Fin 4} {idx : Nat} {r : Relocation} {cp : Copy}
    (hr : (w.chan source).relocation = some r) (hcopy : r.copy = some cp) (hnew : cp.new = some ⟨mc, idx⟩) :
    let t := w.copyEnded x mc idx source false
    t.intake = w.intake ∧ t.packer = w.packer ∧ (t.chan mc).busy = none ∧ (t.slot ⟨mc, idx⟩).map (fun i => i.state) = some .stale ∧
      ((t.chan mc).ext (idx / 64)).failures = min 2 (((w.chan mc).ext (idx / 64)).failures + 1) ∧
      ∃ q, (t.chan source).relocation = some q ∧ q.source = r.source ∧
        ((∃ a, a ≠ ⟨mc, idx⟩ ∧ q.copy = some { cp with new := some a } ∧ (t.slot a).map (fun i => i.state) = some .writing) ∨
          (q.copy = none ∧ q.paused = true ∧ ∃ v : Works, v.days = w.days ∧ t.days = (v.releaseSlot x ⟨source, cp.old⟩).days)) := by
  intro t
  let v := (w.mapChan mc fun c => c.stale idx).failExt x mc (extOf idx)
  obtain ⟨⟨more, serial, port, full, heq⟩, ⟨hstale, hcount, hrel, -⟩, hother⟩ := w.slotFailed_onChan x mc idx
  have hv : v = _ := heq
  have hr' : (v.chan source).relocation = some r := by
    by_cases hm : source = mc
    · subst hm
      exact hrel.trans hr
    · rw [show v.chan source = w.chan source from hother source hm]
      exact hr
  obtain ⟨hi, hp, hslots, hcounts, q, hq, hqs, hcases⟩ := Works.recopy_facts (x := x) hr' hcopy
  have hmine : (((v.chan source).relocation.bind fun r => r.copy).any fun cp => decide (cp.new = some ⟨mc, idx⟩)) = true := by
    rw [hr', Option.bind_some, hcopy]
    simp [hnew]
  have ht : t = ((v.recopy x source).addTasks [.allocate, .relocationTest mc, .relocationSettle mc]).opEnded mc := by
    simp only [t, Works.copyEnded, Bool.false_eq_true, if_false]
    rw [if_pos hmine]
  obtain ⟨-, hself, hother'⟩ := Works.opEnded_onChan ((v.recopy x source).addTasks [.allocate, .relocationTest mc, .relocationSettle mc]) mc
  have hchan : ∀ m, t.chan m = { (v.recopy x source).chan m with
      busy := if m = mc then none else ((v.recopy x source).chan m).busy } := by
    intro m
    rw [ht]
    by_cases hm : m = mc
    · subst hm
      rw [if_pos rfl]
      exact hself
    · rw [if_neg hm]
      exact hother' m hm
  have hslot : ∀ b, t.slot b = (v.recopy x source).slot b := fun b => by
    rw [Works.slot, hchan]
    rfl
  have hold : (v.slot ⟨mc, idx⟩).map (fun i => i.state) = some .stale := hstale
  have hsome : v.slot ⟨mc, idx⟩ ≠ none := fun h => by simp [h] at hold
  refine ⟨?_, ?_, ?_, ?_, ?_, q, ?_, hqs, ?_⟩
  · rw [ht]
    exact hi.trans (by rw [hv])
  · rw [ht]
    exact hp.trans (by rw [hv])
  · rw [hchan]
    exact if_pos rfl
  · rw [hslot, hslots _ hsome]
    exact hold
  · rw [hchan]
    exact (hcounts mc _).trans hcount
  · rw [hchan]
    exact hq
  · rcases hcases with ⟨a, hnone, hqc, hwriting⟩ | ⟨hqc, hpaused, hdays⟩
    · refine .inl ⟨a, fun h => hsome (h ▸ hnone), hqc, ?_⟩
      rw [hslot]
      exact hwriting
    · refine .inr ⟨hqc, hpaused, v, by rw [hv], ?_⟩
      rw [ht]
      exact hdays

/-- The claim of the sheet whose copy ended released. -/
theorem Works.releaseSlot_frees {x : Ctx} {w : Works} {a : SlotAddr} {d cls : Nat} {e : Entry} (h : w.entryOfSlot a = some (d, cls, e))
    (he : w.entryAt d cls e.first = some e) (hbusy : e.busy = some .relocation) :
    (w.releaseSlot x a).entryAt d cls e.first = some e.freed ∧ ∀ k, k ≠ d → (w.releaseSlot x a).day k = w.day k := by
  rw [Works.releaseSlot_claimed h hbusy]
  exact ⟨(Works.release_frees he).2.2, (w.release_facts x d cls e.first).2.2⟩

theorem Relocation.past_closed (r : Relocation) (old : Nat) :
    { (r.past old) with copy := none } =
      if r.next < 64 ∧ 64 * r.source + r.next = old then { r with copy := none, next := r.next + 1 }
      else { r with copy := none, revisit := r.revisit.filter fun i => decide (i ≠ old) } := by
  unfold Relocation.past
  by_cases h : r.next < Config.extentSlots ∧ Config.extentSlots * r.source + r.next = old
  · rw [if_pos h]
    exact (if_pos h).symm
  · rw [if_neg h]
    exact (if_neg h).symm

/-- Settles O35: a program's end makes its slot LIVE or STALE and tells its poster; a copy's moves its sheet; a summary's completes its
group. -/
theorem programEndMakesTheSlotLiveOrStale : Obligations.ProgramEndMakesTheSlotLiveOrStale := by
  refine ⟨fun mc s o post idx image hq hbusy hkind => ⟨fun hstray => ?_, fun p hstray hp hoffered => ⟨fun horphan => ⟨?_, fun found => ?_⟩,
    fun horphan => ⟨?_, fun found => ?_⟩⟩⟩,
    fun mc source s o idx image r cp hq hbusy hkind hstray hr hcopy hnew hfree => ⟨?passed, fun found => ?failed⟩,
    fun x w id a g d i hg hd hi => ?completed⟩
  · refine (exec_programDone hbusy hkind .passed).trans ?_
    rw [if_pos hstray, Works.opEnded, Works.task, Works.mapChan_tasks, show s.works.tasks = [] from hq]
    rfl
  · obtain ⟨hapart, hlive, hposting, -, htasks⟩ := Works.programEnded_passed (x := s.ctx) (mc := mc) (idx := idx) hp hoffered
    refine ⟨_, (exec_programDone hbusy hkind .passed).trans ?_, hapart, hlive, hposting, ?_⟩
    · rw [if_neg (by simp [hstray])]
      rfl
    · intro q a h
      rw [htasks, show s.works.tasks = [] from hq, horphan] at h
      simp at h
  · obtain ⟨hapart, hstale, -, hposting, -⟩ := Works.programEnded_failed (x := s.ctx) (mc := mc) (idx := idx) hp hoffered
    rw [if_pos horphan] at hposting
    refine ⟨_, (exec_programDone hbusy hkind (.failed found)).trans ?_, hapart, hstale, hposting⟩
    rw [if_neg (by simp [hstray])]
    rfl
  · obtain ⟨hapart, hlive, hposting, hhead, htasks⟩ := Works.programEnded_passed (x := s.ctx) (mc := mc) (idx := idx) hp hoffered
    refine ⟨_, (exec_programDone hbusy hkind .passed).trans ?_, hapart, hlive, hposting, ?_, ?_⟩
    · rw [if_neg (by simp [hstray])]
      rfl
    · obtain ⟨i, hi, hslot, himage, hattached⟩ := hhead
      exact ⟨i, hi, hslot, hattached, himage⟩
    · rw [htasks, horphan]
      simp
  · obtain ⟨hapart, hstale, hcount, hposting, hcache⟩ := Works.programEnded_failed (x := s.ctx) (mc := mc) (idx := idx) hp hoffered
    rw [if_neg (by simp [horphan])] at hposting
    refine ⟨_, (exec_programDone hbusy hkind (.failed found)).trans ?_, hapart, hstale, hcount, hposting, hcache⟩
    rw [if_neg (by simp [hstray])]
    rfl
  case passed =>
    let old : SlotAddr := ⟨source, cp.old⟩
    let new : SlotAddr := ⟨mc, idx⟩
    let live := s.works.copyLive mc idx
    have hexec : exec (.programDone mc .passed) s = ({ s with media := s.media.set mc ((s.media.get mc).put idx ⟨some image, false⟩) } :
        State).settled (s.works.copyEnded s.ctx mc idx source true) := by
      refine (exec_copyDone hbusy hkind .passed).trans ?_
      rw [if_neg (by simp [hstray])]
      rfl
    have hended := Works.copyEnded_passed (x := s.ctx) hr hcopy hnew
    have hnewLive : (live.slot new).map (fun i => i.state) = some .live := (s.works.copyLive_slot mc idx).1
    have hvoidNew : ((live.voidMark new .untold).chan mc).voidAsked idx = true := Works.voidMark_asked (a := new) .untold hnewLive
    have hclosed {v : Works} := Works.copyClosed_facts (v := v) hbusy hkind hr cp.old
    have hmarked : ∀ v : Works, live.Carried v → (s.works.slot old).map (fun i => i.state) = some .live →
        ((v.voidMark old .untold).chan source).voidAsked cp.old = true := by
      intro v hv h
      refine Works.voidMark_asked (a := old) .untold ?_
      obtain ⟨-, -, hc⟩ := hv
      obtain ⟨hs, -, -⟩ := hc source
      rw [show v.slot old = live.slot old from congrArg (tblGet cp.old) hs]
      exact (s.works.copyLive_slot mc idx).2 old h
    have hends : ∀ W : Works, live.Carried W → s.works.copyEnded s.ctx mc idx source true = W.copyClosed source mc cp.old →
        let t := s.works.copyEnded s.ctx mc idx source true
        (t.intake = s.works.intake ∧ t.packer = s.works.packer ∧ (t.chan mc).busy = none) ∧
          (t.slot new).map (fun i => i.state) = some .live ∧
          (t.chan source).relocation = some
            (if r.next < 64 ∧ 64 * r.source + r.next = cp.old then { r with copy := none, next := r.next + 1 }
             else { r with copy := none, revisit := r.revisit.filter fun i => decide (i ≠ cp.old) }) ∧
          t.days = W.days ∧ t.retention = W.retention ∧ ∀ m i, (t.chan m).voidAsked i = (W.chan m).voidAsked i := by
      intro W hW heq
      obtain ⟨hi, hp, hidle, hlive, hrel, hdays, hret, hvoids⟩ := hclosed hW
      rw [heq]
      exact ⟨⟨hi, hp, hidle⟩, hlive, hrel.trans (congrArg some (r.past_closed cp.old)), hdays, hret, hvoids⟩
    by_cases hdata : cp.kind = .data
    · simp only [hdata] at hended
      cases hslot : s.works.entryOfSlot old with
      | none =>
        simp only [show s.works.entryOfSlot ⟨source, cp.old⟩ = none from hslot] at hended
        obtain ⟨hapart, hlive, hrel, hdays, -, hvoids⟩ := hends _ (live.voidMark_carried new .untold) hended
        refine ⟨_, hexec, hapart, hlive, hrel, fun _ _ => ⟨hdays.trans (live.voidMark_stands new .untold).1, (hvoids mc idx).trans hvoidNew⟩,
          fun _ d cls e h => absurd h (by simp), fun h => absurd hdata h, fun h => absurd hdata h⟩
      | some found =>
        obtain ⟨d, cls, e⟩ := found
        simp only [show s.works.entryOfSlot ⟨source, cp.old⟩ = some (d, cls, e) from hslot] at hended
        let moved := (live.mapEntry d cls e.first fun e => { e with slot := new }).moveCached old new
        obtain ⟨hi, hp, ha, -⟩ := moved.releaseSlot_stands s.ctx new
        have hcarried : live.Carried (moved.releaseSlot s.ctx new) := .of_chans hi hp (by rw [ha]; rfl)
        obtain ⟨hapart, hlive, hrel, hdays, -, hvoids⟩ := hends _ (hcarried.trans (Works.voidMark_carried _ old .untold)) hended
        refine ⟨_, hexec, hapart, hlive, hrel, fun _ h => absurd h (by simp), fun _ d' cls' e' h he hclaim => ?_,
          fun h => absurd hdata h, fun h => absurd hdata h⟩
        cases h
        have hdays' := hdays.trans ((moved.releaseSlot s.ctx new).voidMark_stands old .untold).1
        have hslot' : moved.entryOfSlot new = some (d, cls, { e with slot := new }) := Works.entryOfSlot_moved (w := live) hfree he
        have he' : moved.entryAt d cls e.first = some { e with slot := new } := by
          have hmap := live.entryAt_mapEntry d cls e.first (f := fun e => { e with slot := new }) fun _ => rfl
          rw [show live.entryAt d cls e.first = some e from he] at hmap
          exact hmap
        obtain ⟨hentry, hother⟩ := Works.releaseSlot_frees (x := s.ctx) hslot' he' hclaim
        refine ⟨(Works.entryAt_congr hdays' d cls e.first).trans hentry, fun k hk => ?_, fun h => (hvoids source cp.old).trans (hmarked _ hcarried h)⟩
        refine (congrArg (tblGet k) hdays').trans ((hother k hk).trans ?_)
        exact (tblGet_modify d k (fun day => day.mapEntry cls e.first fun e => { e with slot := new }) s.works.days).trans (if_neg hk)
    · have hended' : s.works.copyEnded s.ctx mc idx source true = if s.works.named old then
            (((live.rename old new).moveCached old new).voidMark old .untold).copyClosed source mc cp.old
          else (live.voidMark new .untold).copyClosed source mc cp.old := by
        rw [hended]
        cases hk : cp.kind with
        | data => exact absurd hk hdata
        | _ => rfl
      cases hnamed : s.works.named old with
      | false =>
        rw [hnamed, if_neg (by simp)] at hended'
        obtain ⟨hapart, hlive, hrel, hdays, -, hvoids⟩ := hends _ (live.voidMark_carried new .untold) hended'
        exact ⟨_, hexec, hapart, hlive, hrel, fun h => absurd h hdata, fun h => absurd h hdata,
          fun _ _ => ⟨hdays.trans (live.voidMark_stands new .untold).1, (hvoids mc idx).trans hvoidNew⟩, fun _ h => Bool.noConfusion h⟩
      | true =>
        rw [hnamed, if_pos rfl] at hended'
        let renamed := (live.rename old new).moveCached old new
        have hcarried : live.Carried renamed := .of_chans rfl rfl rfl
        obtain ⟨hapart, hlive, hrel, hdays, hret, hvoids⟩ := hends _ (hcarried.trans (renamed.voidMark_carried old .untold)) hended'
        obtain ⟨hdays', hret'⟩ := renamed.voidMark_stands old .untold
        refine ⟨_, hexec, hapart, hlive, hrel, fun h => absurd h hdata, fun h => absurd h hdata, fun _ h => Bool.noConfusion h,
          fun _ _ => ⟨hdays.trans hdays', ?_, fun h => (hvoids source cp.old).trans (hmarked _ hcarried h)⟩⟩
        rw [hret, hret']
        rfl
  case failed =>
    obtain ⟨hi, hp, hidle, hstale, hcount, q, hq', hqs, hcases⟩ := Works.copyEnded_failed (x := s.ctx) hr hcopy hnew
    refine ⟨_, (exec_copyDone hbusy hkind (.failed found)).trans ?_, ⟨hi, hp, hidle⟩, hstale, hcount, q, hq', hqs, ?_⟩
    · rw [if_neg (by simp [hstray])]
      rfl
    · refine hcases.imp id fun ⟨hqc, hpaused, v, hv, hdays⟩ => ⟨hqc, hpaused, fun d cls e hslot he hclaim => ?_⟩
      rw [Works.entryAt_congr hdays]
      have hslot' : v.entryOfSlot ⟨source, cp.old⟩ = some (d, cls, e) := by
        rw [Works.entryOfSlot, hv]
        exact hslot
      exact (Works.releaseSlot_frees hslot' ((Works.entryAt_congr hv d cls e.first).trans he) hclaim).1
  case completed =>
    intro t seen
    obtain ⟨hkept, hscan, haudit⟩ := Works.complete_completed (x := x) (a := a) hg hd hi
    obtain ⟨hgroups, hstaging, hlate, hother, hday⟩ := hkept
    obtain ⟨hgroups', hother', ⟨runs', hday', hseen'⟩, hset', hlate'⟩ := w.intakeTaken_facts x g (d.completed g a i.work) i.work
    obtain ⟨runs, ht, hseen⟩ := hday _ hday'
    obtain ⟨hnumber, hprogress, hsummary, howed, hruns, hintake, hstaged, hlateSum, hretired, hvoided, hcorr, hclosing, hkept⟩ :=
      d.completed_facts g a i.work
    have hid : g.id = id := by simpa using List.find?_some hg
    have hindexed : runs.map Run.seen = (d.reindex g).runs.map Run.seen := (hseen.trans hseen').trans (congrArg _ hruns)
    refine ⟨hgroups.trans (by rw [hgroups', hid]), fun k hk => (hother k hk).trans (hother' k hk), hscan, haudit, fun c hc => ?_,
      fun c hc => hlate.trans (hlate' c hc), _, ht, hnumber, hprogress, hsummary, howed, hindexed, hintake, hstaged, hlateSum, hretired,
      hvoided, hcorr, hclosing, hkept, fun hbalance hindex => ?_⟩
    · exact (congrArg (fun t => (tblGet (stagingKey g.day c) t).getD []) hstaging).trans (hset' c hc)
    · exact DayEntry.completed_conserved hbalance ((indexTotals_congr hindexed).trans hindex) hintake hstaged hlateSum hretired hvoided hcorr

end Sys2Proof.Machine
end

section
/-!
SUPPORT. The sweep (R153 to R157): a decision's cases, what carrying it out changes, and the walk's first visit.
-/

namespace Sys2Proof.Machine

/-- The part with the sweep as given. -/
def Works.sweeping (w : Works) (s : Sweep) : Works := { w with retention := { w.retention with sweep := some s } }

theorem Works.mapSweep_eq {w : Works} {s : Sweep} (h : w.retention.sweep = some s) (f : Sweep → Sweep) : w.mapSweep f = w.sweeping (f s) := by
  simp only [Works.mapSweep, Works.mapRetention, h, Option.map_some]
  rfl

theorem Works.sweeping_self {w : Works} {s : Sweep} (h : w.retention.sweep = some s) : w.sweeping s = w := by
  unfold Works.sweeping
  rw [← h]

@[simp] theorem Works.mapSweep_sweeping (w : Works) (s : Sweep) (f : Sweep → Sweep) : (w.sweeping s).mapSweep f = w.sweeping (f s) := rfl

/-- The visits of a sweep, that of a run replaced. -/
def Sweep.visitsWith (s : Sweep) (d c : Nat) (v : Visit) : List Visit := s.visits.map fun u => if u.day = d ∧ u.cls = c then v else u

/-- A visit of a run, given as a function of the one it replaces, where that one is known. -/
theorem Works.mapVisit_sweeping (w : Works) (s : Sweep) (d c : Nat) (v : Visit) :
    (w.sweeping s).mapVisit d c (fun _ => v) = w.sweeping { s with visits := s.visitsWith d c v } := by
  simp only [Works.mapVisit, Works.mapSweep_sweeping, updateWhere, Sweep.visitsWith, Bool.and_eq_true, decide_eq_true_eq]

/-- The visit put in a run's place, changed again. -/
theorem Works.mapVisit_visitsWith (w : Works) (s t : Sweep) {d c : Nat} {v : Visit} (hd : v.day = d) (hc : v.cls = c) (f : Visit → Visit) :
    (w.sweeping { s with visits := t.visitsWith d c v }).mapVisit d c f = w.sweeping { s with visits := t.visitsWith d c (f v) } := by
  simp only [Works.mapVisit, Works.mapSweep_sweeping, updateWhere, Sweep.visitsWith, List.map_map]
  congr 2
  refine List.map_congr_left fun u _ => ?_
  by_cases hu : u.day = d ∧ u.cls = c
  · simp [hu, hd, hc]
  · simp only [Function.comp_apply, if_neg hu, Bool.and_eq_true, decide_eq_true_eq]

/-! ## The decision of an entry (R155) -/

section
variable {w : Works} {s : Sweep} {v : Visit} {e : Entry} {image : Option (List Rec)}

/-- Whether the sweep has decided an entry already. -/
def Sweep.Decided (s : Sweep) (v : Visit) (r : SheetRef) : Prop := r ∈ s.decided ∨ r ∈ s.openRetire ∨ r ∈ v.retire

/-- Whether the Pending Amendment Set holds an entry of a day in an entry's account span. -/
def Works.PendsIn (w : Works) (d : Nat) (e : Entry) : Prop :=
  ∃ p ∈ w.amend.pending, p.id.day = d ∧ e.first.account ≤ p.id.account ∧ p.id.account ≤ e.last.account

/-- Whether an account of an entry's span is held. -/
def Works.HeldIn (w : Works) (e : Entry) : Prop := ∃ p ∈ w.retention.holds, e.first.account ≤ p.1 ∧ p.1 ≤ e.last.account

theorem Works.pendingIn_iff (w : Works) (d : Nat) (e : Entry) : w.pendingIn d e.first e.last = true ↔ w.PendsIn d e := by
  simp [Works.pendingIn, Works.PendsIn, spans]

theorem Works.heldIn_iff (w : Works) (e : Entry) : w.heldIn e.first e.last = true ↔ w.HeldIn e := by
  simp [Works.heldIn, Works.HeldIn, spans]

theorem Works.judge_decided (h : s.Decided v (e.ref v.day v.cls)) : w.judge s v e image = .decided :=
  if_pos (by simpa [Sweep.Decided, or_assoc] using h)

section
variable (h : ¬ s.Decided v (e.ref v.day v.cls))
include h

theorem Works.judge_open : w.judge s v e image =
    if (w.day v.day).any (·.underAudit) then .defer .audit
    else if e.busy.isSome then .defer .busy
    else if w.pendingIn v.day e.first e.last then .defer .pending
    else if e.quarantined then if w.heldIn e.first e.last then .keep else .retire
    else if !w.heldIn e.first e.last then .retire
    else match image with
      | none => .read
      | some recs =>
        let all := accountsOf recs
        let k := all.filter fun a => (tblGet a w.retention.holds).isSome
        if k = [] then .retire else if k = all then .keep else .trim k :=
  if_neg (by simpa [Sweep.Decided, or_assoc] using h)

theorem Works.judge_audit (ha : (w.day v.day).any (·.underAudit) = true) : w.judge s v e image = .defer .audit := by
  rw [Works.judge_open h, if_pos ha]

variable (ha : (w.day v.day).any (·.underAudit) = false)
include ha

theorem Works.judge_busy (hb : e.busy.isSome) : w.judge s v e image = .defer .busy := by
  rw [Works.judge_open h, ha, if_neg (by simp), if_pos hb]

variable (hb : e.busy = none)
include hb

theorem Works.judge_pending (hp : w.PendsIn v.day e) : w.judge s v e image = .defer .pending := by
  rw [Works.judge_open h, ha, hb, if_neg (by simp), if_neg (by simp), if_pos ((w.pendingIn_iff v.day e).mpr hp)]

variable (hp : ¬ w.PendsIn v.day e)
include hp

theorem Works.judge_keep (hq : e.quarantined = true) (hh : w.HeldIn e) : w.judge s v e image = .keep := by
  rw [Works.judge_open h, ha, hb, if_neg (by simp), if_neg (by simp), if_neg fun hpend => hp ((w.pendingIn_iff v.day e).mp hpend),
    if_pos hq, if_pos ((w.heldIn_iff e).mpr hh)]

theorem Works.judge_retire (hh : ¬ w.HeldIn e) : w.judge s v e image = .retire := by
  have hfree : w.heldIn e.first e.last = false := by
    rw [← Bool.not_eq_true]
    exact fun hheld => hh ((w.heldIn_iff e).mp hheld)
  rw [Works.judge_open h, ha, hb, if_neg (by simp), if_neg (by simp), if_neg fun hpend => hp ((w.pendingIn_iff v.day e).mp hpend), hfree]
  split
  · rfl
  · rfl

theorem Works.judge_held (hq : e.quarantined = false) (hh : w.HeldIn e) : w.judge s v e image =
    match image with
    | none => .read
    | some recs =>
      let all := accountsOf recs
      let k := all.filter fun a => (tblGet a w.retention.holds).isSome
      if k = [] then .retire else if k = all then .keep else .trim k := by
  rw [Works.judge_open h, ha, hb, if_neg (by simp), if_neg (by simp), if_neg fun hpend => hp ((w.pendingIn_iff v.day e).mp hpend), hq,
    if_neg (by simp), (w.heldIn_iff e).mpr hh, if_neg (by simp)]

end
end

/-! ## A decision carried out -/

section
variable (w : Works) (s : Sweep) (v : Visit) (e : Entry)

theorem Works.carryOut_keep : (w.sweeping s).carryOut v e .keep = w.sweeping { s with
    kept := s.kept.filter (fun p => decide (p.1 ≠ e.ref v.day v.cls)) ++ [(e.ref v.day v.cls, e.quarantined)] } := rfl

theorem Works.carryOut_retire_walk (h : v.walk = true) : (w.sweeping s).carryOut v e .retire = w.sweeping { s with
    kept := s.kept.filter (fun p => decide (p.1 ≠ e.ref v.day v.cls)), openRetire := s.openRetire ++ [e.ref v.day v.cls] } :=
  if_pos h

/-- A revisit keeps a list of its own of what it retires. -/
theorem Works.carryOut_retire_revisit (t : Sweep) (h : v.walk = false) :
    (w.sweeping { s with visits := t.visitsWith v.day v.cls v }).carryOut v e .retire = w.sweeping { s with
      kept := s.kept.filter (fun p => decide (p.1 ≠ e.ref v.day v.cls))
      visits := t.visitsWith v.day v.cls { v with retire := v.retire ++ [e.ref v.day v.cls] } } := by
  refine (if_neg (by simp [h])).trans ?_
  exact w.mapVisit_visitsWith { s with kept := s.kept.filter fun p => decide (p.1 ≠ e.ref v.day v.cls) } t rfl rfl _

theorem Works.carryOut_read (t : Sweep) : (w.sweeping { s with visits := t.visitsWith v.day v.cls v }).carryOut v e .read =
    (w.sweeping { s with visits := t.visitsWith v.day v.cls { v with reading := some (e.ref v.day v.cls) } }).askRead e.slot
      (.sweep (e.ref v.day v.cls)) := by
  simp only [Works.carryOut]
  rw [w.mapVisit_visitsWith s t rfl rfl]

/-- An item of the sweep that finds room in the Packer's queue, none having been refused. -/
theorem Works.sweepQueue_room (d : Nat) (work : Work) (sheets : List SheetRef) (hrefused : s.refusedItems = [])
    (hroom : w.packer.queue.length < 1024) :
    (w.sweeping s).sweepQueue d work sheets = { w.sweeping { s with decided := s.decided ++ sheets } with
      serial := w.serial + 1, tasks := w.tasks ++ [.scan]
      packer := { w.packer with queue := w.packer.queue ++ [⟨w.serial, d, work, [], false, none⟩] } } := by
  let u := w.sweeping { s with decided := s.decided ++ sheets }
  have hpush : u.pushItem d work [] = some (w.serial, _) := if_pos hroom
  have hpaused : (u.retention.sweep.any fun s => decide (s.refusedItems ≠ [])) = false := by simp [u, Works.sweeping, hrefused]
  simp only [u] at hpush hpaused
  simp only [Works.sweepQueue, Works.mapSweep_sweeping, hpaused, Bool.false_eq_true, if_false, hpush]
  rfl

theorem Works.carryOut_trim (keep : List Nat) (hrefused : s.refusedItems = []) (hroom : w.packer.queue.length < 1024) :
    (w.sweeping s).carryOut v e (.trim keep) = { w.sweeping { s with
        kept := s.kept.filter (fun p => decide (p.1 ≠ e.ref v.day v.cls)), decided := s.decided ++ [e.ref v.day v.cls] } with
      serial := w.serial + 1, tasks := w.tasks ++ [.scan]
      packer := { w.packer with queue := w.packer.queue ++ [⟨w.serial, v.day, .trim (e.ref v.day v.cls) keep, [], false, none⟩] } } :=
  w.sweepQueue_room { s with kept := s.kept.filter fun p => decide (p.1 ≠ e.ref v.day v.cls) } v.day _ _ hrefused hroom

end

/-! ## The walk's decision and the answer to its read -/

/-- A visit's step that decides an entry. -/
theorem Works.visitStep_entry {x : Ctx} {w : Works} {s : Sweep} {v : Visit} {e : Entry} (hs : w.retention.sweep = some s)
    (h : w.nextEntry v = some e) : w.visitStep x s v =
      (w.sweeping { s with visits := s.visitsWith v.day v.cls { v with at_ := some e.first } }).carryOut { v with at_ := some e.first } e
        (w.judge s v e none) := by
  simp only [Works.visitStep, h]
  rw [show w.mapVisit v.day v.cls _ = (w.sweeping s).mapVisit v.day v.cls _ from by rw [Works.sweeping_self hs], w.mapVisit_sweeping]

/-- The first entry of a run beyond the key last decided. -/
theorem Works.nextEntry_eq {w : Works} {v : Visit} {e : DayEntry} {run : Run} {before after : List Entry} {x : Entry}
    (hday : tblGet v.day w.days = some e) (hgoing : e.going = false) (hrun : e.runs.find? (fun q => decide (q.cls = v.cls)) = some run)
    (hentries : run.entries = before ++ x :: after) (hx : ∀ k, v.at_ = some k → k.lt x.first = true)
    (hbefore : ∀ a ∈ before, ∃ k, v.at_ = some k ∧ k.lt a.first = false) : w.nextEntry v = some x := by
  have hl : ((w.liveDay v.day).map fun e => e.runEntries v.cls).getD [] = before ++ x :: after := by
    rw [Works.liveDay_eq_some hday hgoing]
    simp only [Option.map_some, Option.getD_some, DayEntry.runEntries, DayEntry.run, hrun, hentries]
  simp only [Works.nextEntry, hl]
  refine find?_append_cons ?_ fun a ha => ?_
  · split
    · rfl
    · next k hk => exact hx k hk
  · obtain ⟨k, hk, hlt⟩ := hbefore a ha
    simp [hk, hlt]

/-- The records of an answer that gives an image. -/
def ReadAnswer.recs : ReadAnswer → Option (List Rec)
  | .image b _ => some (imageRecs b)
  | _ => none

/-- The answer to a sweep's read, its run's visit waiting for it. -/
theorem Works.sweepAnswer_eq {w : Works} {s : Sweep} {v : Visit} {r : SheetRef} (hs : w.retention.sweep = some s)
    (hv : s.visits.find? (fun u => decide (u.day = r.day) && decide (u.cls = r.cls)) = some v) (hr : v.reading = some r) (a : ReadAnswer) :
    let free : Visit := { v with reading := none }
    let on := w.sweeping { s with visits := s.visitsWith r.day r.cls free }
    let t := match w.entryAt r.day r.cls r.first with
      | none => on
      | some e =>
        match a with
        | .media mc => on.carryOut free e (.defer (.channel mc))
        | _ => on.carryOut free e (w.judge s free e (if e.group = r.group then a.recs else none))
    w.sweepAnswer r a = if v.walk then t else { t with tasks := t.tasks ++ [.visit r.day r.cls] } := by
  intro free on t
  obtain ⟨hd, hc⟩ : v.day = r.day ∧ v.cls = r.cls := by simpa using List.find?_some hv
  have hvisit : s.visitOf r.day r.cls = some v := hv
  have hmap : w.mapVisit v.day v.cls (fun _ => free) = on := by
    rw [hd, hc]
    exact (congrArg (fun u : Works => u.mapVisit r.day r.cls fun _ => free) (Works.sweeping_self hs).symm).trans (w.mapVisit_sweeping s _ _ _)
  simp only [Works.sweepAnswer, hs, hvisit, hr, ne_eq, not_true_eq_false, if_false]
  rw [show { v with reading := none } = free from rfl, hmap, hd, hc]
  rfl

/-- Settles O53: the walk's next entry is decided by the first case that holds, and afresh when its image has been read. -/
theorem sweepDecidesByTheFirstCaseThatHolds : Obligations.SweepDecidesByTheFirstCaseThatHolds := by
  refine ⟨fun s sw v e run before after x hq hsweep hrefused hpassed hv hreading hday hgoing hrun hentries hx hbefore => ?walk,
    fun x w sw v r a hs hv hr => ?answer⟩
  case walk =>
    intro ref onto at_ rest ends defers decided pends held
    have hwalk : v.walk = true := by simpa using List.find?_some hv
    have hnext : s.works.nextEntry v = some x := Works.nextEntry_eq hday hgoing hrun hentries hx hbefore
    have hexec : exec .sweepWalk s = s.settled ((s.works.sweeping at_).carryOut { v with at_ := some x.first } x
        (s.works.judge sw v x none)) := by
      change s.settled (s.works.sweepWalk s.ctx) = _
      have hopen : ¬ (sw.refusedItems ≠ [] ∨ sw.passed = true) := by simp [hrefused, hpassed]
      have hwaits : v.reading.isSome = false := by rw [hreading]; rfl
      simp only [Works.sweepWalk, hsweep, if_neg hopen, hv, hwaits, Bool.false_eq_true, if_false, Works.visitStep_entry hsweep hnext]
      rfl
    have hends : ∀ sw', s.settled (s.works.sweeping sw') = .next (ends sw') := fun sw' => State.settled_quiet s _ hq
    have haudit : (s.works.day v.day).any (·.underAudit) = e.underAudit := by
      rw [show s.works.day v.day = some e from hday]
      rfl
    refine ⟨fun h => ?_, fun h ha => ?_, fun h ha hb => ?_, fun h ha hb hp => ?_, fun h ha hb hp => ⟨fun hquar hh => ?_, fun hh => ?_,
      fun hquar hh => ?_⟩⟩
    · rw [hexec, Works.judge_decided h]
      exact hends at_
    · rw [hexec, Works.judge_audit h (haudit.trans ha)]
      exact hends _
    · rw [hexec, Works.judge_busy h (haudit.trans ha) hb]
      exact hends _
    · rw [hexec, Works.judge_pending h (haudit.trans ha) hb hp]
      exact hends _
    · rw [hexec, Works.judge_keep h (haudit.trans ha) hb hp hquar hh, Works.carryOut_keep, hquar]
      exact hends _
    · rw [hexec, Works.judge_retire h (haudit.trans ha) hb hp hh, Works.carryOut_retire_walk _ _ { v with at_ := some x.first } _ hwalk]
      exact hends _
    · rw [hexec, Works.judge_held h (haudit.trans ha) hb hp hquar hh]
      exact congrArg s.settled (s.works.carryOut_read sw { v with at_ := some x.first } x sw)
  case answer =>
    obtain ⟨hd, hc⟩ : v.day = r.day ∧ v.cls = r.cls := by simpa using List.find?_some hv
    have heq := Works.sweepAnswer_eq hs hv hr a
    obtain ⟨d, c, at_, reading, walk, again, retire⟩ := v
    obtain rfl : d = r.day := hd
    obtain rfl : c = r.cls := hc
    intro t onto free on with_ goes
    have hgoes : ∀ u : Works, (if walk then u else { u with tasks := u.tasks ++ [.visit r.day r.cls] }) = goes u := fun _ => rfl
    refine ⟨fun hnone => ?_, fun n hn => ?_⟩
    · rw [hnone] at heq
      exact heq
    · intro ref rest defers keeps retires decided audited pends held
      rw [hn] at heq
      have haudit : (w.day r.day).any (·.underAudit) = true ↔ audited := by simp [audited, Option.any_eq_true]
      have hretires : goes ((with_ on).carryOut free n .retire) = retires := by
        cases walk with
        | true => exact congrArg goes ((w.carryOut_retire_walk on free n rfl).trans (congrArg with_ (if_pos rfl).symm))
        | false => exact congrArg goes ((w.carryOut_retire_revisit sw free n sw rfl).trans (congrArg with_ (if_neg (by simp)).symm))
      have hread : goes ((with_ on).carryOut free n .read) =
          goes ((with_ { sw with visits := onto { free with reading := some ref } }).askRead n.slot (.sweep ref)) :=
        congrArg goes (w.carryOut_read sw free n sw)
      refine ⟨fun mc ha => ?_, fun ha => ?_⟩
      · subst ha
        exact heq
      · have hjudged : t = goes ((with_ on).carryOut free n (w.judge sw free n (if n.group = r.group then a.recs else none))) := by
          cases a with
          | media mc => exact absurd rfl (ha mc)
          | _ => exact heq
        rw [hjudged]
        refine ⟨fun h => ?_, fun h hau => ?_, fun h hau hb => ?_, fun h hau hb hp => ?_, fun h hau hb hp => ?_⟩
        · rw [Works.judge_decided (v := free) h]
          rfl
        · rw [Works.judge_audit (v := free) h (haudit.mpr hau)]
          rfl
        · rw [Works.judge_busy (v := free) h (by simpa using mt haudit.mp hau) hb]
          rfl
        · rw [Works.judge_pending (v := free) h (by simpa using mt haudit.mp hau) hb hp]
          rfl
        · have hfree : (w.day r.day).any (·.underAudit) = false := by simpa using mt haudit.mp hau
          refine ⟨fun hquar hh => ?_, fun hh => ?_, fun hquar hh => ⟨fun hlost => ?_, fun b pin himage hgroup => ?_⟩⟩
          · rw [Works.judge_keep (v := free) h hfree hb hp hquar hh]
            rfl
          · rw [Works.judge_retire (v := free) h hfree hb hp hh]
            exact hretires
          · rw [Works.judge_held (v := free) h hfree hb hp hquar hh]
            have hnone : (if n.group = r.group then a.recs else none) = none := by
              rcases hlost with hgroup | himage
              · exact if_neg hgroup
              · cases a with
                | image b pin => exact absurd rfl (himage b pin)
                | _ => exact ite_self _
            rw [hnone]
            exact hread
          · subst himage
            intro accounts kept
            rw [if_pos hgroup, Works.judge_held (v := free) h hfree hb hp hquar hh]
            refine ⟨fun hnone => ?_, fun hsome hall => ?_, fun hsome hsplit hrefused hroom => ?_⟩
            · refine Eq.trans ?_ hretires
              exact congrArg (fun c => goes ((with_ on).carryOut free n c)) (if_pos hnone)
            · exact congrArg (fun c => goes ((with_ on).carryOut free n c)) ((if_neg hsome).trans (if_pos hall))
            · refine (congrArg (fun c => goes ((with_ on).carryOut free n c)) ((if_neg hsome).trans (if_neg hsplit))).trans ?_
              exact congrArg goes (w.carryOut_trim on free n kept hrefused hroom)

end Sys2Proof.Machine
end

section
/-!
SUPPORT. A sweep's start, its walk's first visit, a trim's completion and the sweep's end (R153, R154, R156, R157).
-/

namespace Sys2Proof.Machine

theorem exec_sweep_of_offers {ch : Fin 4} {s : State} {r : Req} (ho : s.offers ch .retention r) (hr : r.request = .sweep) :
    exec (.sweep ch) s = s.settled ((s.works.startSweep s.ctx).2.done r.id (.swept (s.works.startSweep s.ctx).1)) :=
  State.serve_some s ch .retention _ r _ ho.1 (by simp only [hr]; rfl)

/-- The walk with no visit under way that stands before the first day. -/
theorem Works.sweepWalk_first {x : Ctx} {w : Works} {s : Sweep} (hs : w.retention.sweep = some s) (hrefused : s.refusedItems = [])
    (hpassed : s.passed = false) (hvisits : ∀ v ∈ s.visits, v.walk = false) (hposition : s.position = none) :
    w.sweepWalk x = match (w.days.map (·.1)).head? with
      | none => (w.sweeping { s with passed := true }).task .sweepEnd
      | some d =>
        match ((((w.liveDay d).map (·.runs)).getD []).map (·.cls)).head? with
        | some c => (w.sweeping { s with position := some ⟨d, none, false⟩ }).visitRun x s d c
        | none => w.sweeping { s with position := some ⟨d, none, false⟩ } := by
  have hopen : ¬ (s.refusedItems ≠ [] ∨ s.passed = true) := by simp [hrefused, hpassed]
  have hnone : s.visits.find? (fun v => v.walk) = none := List.find?_eq_none.mpr fun v hv => by simp [hvisits v hv]
  simp only [Works.sweepWalk, hs, if_neg hopen, hnone, hposition]
  have hany : ∀ l : List Nat, (l.find? fun _ => true) = l.head? := fun l => by cases l <;> rfl
  simp only [Option.all_none, hany, Works.mapSweep_eq hs, hposition] <;> rfl

/-- The runs of a class given a state. -/
theorem Works.setRun_eq (w : Works) (d c : Nat) (st : RunState) : w.setRun d c st = { w with
    days := tblModify d (fun e => { e with runs := e.runs.map fun q => if q.cls = c then { q with state := st } else q }) w.days } := by
  simp only [Works.setRun, updateWhere, decide_eq_true_eq]
  rfl

/-- What a trim's completion leaves of the sweep. -/
def Sweep.trimmedBy (s : Sweep) (r : SheetRef) (n : Nat) : Sweep :=
  { s with decided := s.decided.filter (fun q => decide (q ≠ r))
           counts := { s.counts with trimmed := s.counts.trimmed + 1, recordsRetired := s.counts.recordsRetired + n } }

theorem Sweep.unfinished_trimmedBy (s : Sweep) (r : SheetRef) (n : Nat) : (s.trimmedBy r n).unfinished r.day r.cls = true ↔
    (∃ q ∈ s.decided, q ≠ r ∧ q.day = r.day ∧ q.cls = r.cls) ∨ (∃ q ∈ s.openRetire, q.day = r.day ∧ q.cls = r.cls) ∨
      (∃ q ∈ s.revisit, q.day = r.day ∧ q.cls = r.cls) ∨ ∃ q ∈ s.visits, q.day = r.day ∧ q.cls = r.cls := by
  simp only [Sweep.unfinished, Sweep.trimmedBy, Bool.or_eq_true, List.any_eq_true, List.mem_filter, Bool.and_eq_true, decide_eq_true_eq,
    and_assoc, or_assoc]

/-- A day with a run is not removable. -/
theorem Works.offerDay_of_runs {x : Ctx} {w : Works} {d : Nat} {e : DayEntry} (h : w.day d = some e) (hruns : e.runs ≠ []) :
    w.offerDay x d = w := by
  have hnot : w.removable x d = false := by simp [Works.removable, h, hruns]
  simp only [Works.offerDay, h, hnot, Bool.not_false, if_true]

/-- Settles O52: one sweep at a time, its walk's first visit, a trim's completion and the sweep's end. -/
theorem sweepStartsOnceAndWalksTheDays : Obligations.SweepStartsOnceAndWalksTheDays := by
  refine ⟨fun s hq => ?starts, fun x w sw r n e run hs hday hrun hexpiring => ?trimmed, fun x w sw hs => ?ends⟩
  case starts =>
    intro swept
    refine ⟨fun ch r ho hr => ⟨fun hnone => ?_, fun sw hsw => ?_⟩, fun hnone => ?_, fun sw hsw => ⟨fun hidle => ?_,
      fun hrefused hpassed hvisits hposition => ?_⟩⟩
    · rw [exec_sweep_of_offers ho hr]
      simp only [Works.startSweep, hnone]
      exact State.settled_done (w := s.works.mapRetention fun t => { t with sweep := some (.start s.ctx.today s.ctx.cfg.policies) }) ho rfl hq _
    · rw [exec_sweep_of_offers ho hr]
      simp only [Works.startSweep, hsw, Works.mapSweep_eq hsw]
      exact State.settled_done (w := s.works.sweeping { sw with again := true }) ho rfl hq _
    · change s.settled (s.works.sweepWalk s.ctx) = _
      simp only [Works.sweepWalk, hnone]
      exact State.settled_quiet s _ hq
    · change s.settled (s.works.sweepWalk s.ctx) = _
      simp only [Works.sweepWalk, hsw, if_pos hidle]
      exact State.settled_quiet s _ hq
    · have hexec : exec .sweepWalk s = s.settled _ :=
        congrArg s.settled (Works.sweepWalk_first (x := s.ctx) hsw hrefused hpassed hvisits hposition)
      refine ⟨fun hdays => ?_, fun d e l hdays hgoing => ⟨fun hruns => ?_, fun run runs hruns => ?_⟩⟩
      · rw [hexec, hdays]
        refine congrArg s.settled (congrArg (fun l => { swept { sw with passed := true } with tasks := l }) ?_)
        rw [show (s.works.sweeping { sw with passed := true }).tasks = [] from hq]
        rfl
      · have hlive : s.works.liveDay d = some e := Works.liveDay_eq_some (by rw [hdays]; simp [tblGet]) hgoing
        have hfirst : (s.works.days.map (·.1)).head? = some d := by rw [hdays]; rfl
        have hnext : ((((s.works.liveDay d).map (·.runs)).getD []).map (·.cls)).head? = none := by rw [hlive, Option.map_some, hruns]; rfl
        simp only [hexec, hfirst, hnext]
        exact State.settled_quiet s _ hq
      · intro at_ expires counted
        have hday : s.works.day d = some e := by simp [Works.day, hdays, tblGet]
        have hlive : s.works.liveDay d = some e := Works.liveDay_eq_some hday hgoing
        have hfirst : (s.works.days.map (·.1)).head? = some d := by rw [hdays]; rfl
        have hnext : ((((s.works.liveDay d).map (·.runs)).getD []).map (·.cls)).head? = some run.cls := by
          rw [hlive, Option.map_some, hruns]
          rfl
        simp only [hexec, hfirst, hnext]
        have haudit : ((expires counted).day d).any (·.underAudit) = e.underAudit := by
          simp only [Works.day, expires, tblGet_modify, if_true]
          rw [show tblGet d s.works.days = some e from hday]
          rfl
        have hvisit : due s.cfg.settings.epoch sw.policies sw.today d run.cls = true →
            (s.works.sweeping { sw with position := some ⟨d, none, false⟩ }).visitRun s.ctx sw d run.cls =
              if ((expires counted).day d).any (·.underAudit) then (expires counted).deferRun d run.cls .audit
              else (expires counted).mapSweep fun s => { s with visits := s.visits ++ [⟨d, run.cls, none, none, true, false, []⟩] } := by
          intro hdue
          have hexpires : ((s.works.sweeping at_).setRun d run.cls .expiring).mapSweep
              (fun s => { s with counts := { s.counts with runsDue := s.counts.runsDue + 1 } }) = expires counted := by
            rw [Works.setRun_eq]
            rfl
          rw [← hexpires]
          simp only [Works.visitRun]
          rw [if_neg (by rw [show due s.ctx.set.epoch sw.policies sw.today d run.cls = true from hdue]; simp)]
          rfl
        refine ⟨fun hdue => ?_, fun hdue hau => ?_, fun hdue hau => ?_⟩
        · have hpassedOver : (s.works.sweeping { sw with position := some ⟨d, none, false⟩ }).visitRun s.ctx sw d run.cls =
              s.works.sweeping at_ := by
            simp only [Works.visitRun]
            rw [if_pos (by rw [show due s.ctx.set.epoch sw.policies sw.today d run.cls = false from hdue]; rfl)]
            rfl
          rw [hpassedOver]
          exact State.settled_quiet s _ hq
        · rw [hvisit hdue, haudit, if_pos hau]
          exact State.settled_quiet s _ hq
        · rw [hvisit hdue, haudit, if_neg (by simp [hau])]
          exact State.settled_quiet s _ hq
  case trimmed =>
    intro t of_ left
    have hleft : (sw.trimmedBy r n).unfinished r.day r.cls = true ↔ left := sw.unfinished_trimmedBy r n
    have ht : t = (w.sweeping (sw.trimmedBy r n)).sweepCheck x r.day r.cls := by
      show w.sweepTrimmed x r n = _
      simp only [Works.sweepTrimmed, Works.mapSweep_eq hs]
      rfl
    by_cases h : left
    · have hkept : t = w.sweeping (sw.trimmedBy r n) := ht.trans (if_pos (hleft.mpr h))
      rw [hkept]
      exact ⟨rfl, fun _ => rfl, fun hnot => absurd h hnot⟩
    · have hdone : t = ((w.sweeping (sw.trimmedBy r n)).setRun r.day r.cls .residual).task .sweepEnd := by
        rw [ht]
        refine (if_neg (mt hleft.mp h)).trans ?_
        have hexp : (((w.sweeping (sw.trimmedBy r n)).day r.day).bind (·.run r.cls)).any (fun q => decide (q.state = .expiring)) = true := by
          rw [show (w.sweeping (sw.trimmedBy r n)).day r.day = some e from hday, Option.bind_some,
            show e.run r.cls = some run from hrun]
          simp [hexpiring]
        rw [if_pos hexp]
        have hstays : ((w.sweeping (sw.trimmedBy r n)).setRun r.day r.cls .residual).offerDay x r.day =
            (w.sweeping (sw.trimmedBy r n)).setRun r.day r.cls .residual := by
          rw [Works.setRun_eq]
          refine Works.offerDay_of_runs (e := { e with runs := e.runs.map fun q => if q.cls = r.cls then { q with state := .residual } else q })
            ?_ ?_
          · simp only [Works.day, tblGet_modify, if_true]
            rw [show tblGet r.day (w.sweeping (sw.trimmedBy r n)).days = some e from hday]
            rfl
          · intro hempty
            rw [List.map_eq_nil_iff.mp hempty] at hrun
            cases hrun
        rw [hstays, ite_self]
      rw [hdone, Works.setRun_eq]
      exact ⟨rfl, fun hl => absurd hl h, fun _ => ⟨List.mem_append_right _ (List.mem_singleton.mpr rfl), rfl⟩⟩
  case ends =>
    intro t open_ report next ch merged
    have hopen : (!sw.passed) = true ∨ sw.revisit ≠ [] ∨ sw.decided ≠ [] ∨ sw.visits ≠ [] ∨ sw.openRetire ≠ [] ∨ sw.refusedItems ≠ [] ↔ open_ := by
      simp only [open_, Bool.not_eq_true']
    refine ⟨fun h => ?_, fun h => ?_⟩
    · show w.sweepEnd x = w
      simp only [Works.sweepEnd, hs]
      exact if_pos (hopen.mpr h)
    · have ht : t = { w with retention := { w.retention with sweep := next }, port := w.port.noticed x .sweepDone report } := by
        show w.sweepEnd x = _
        simp only [Works.sweepEnd, hs]
        refine (if_neg (mt hopen.mp h)).trans ?_
        rw [Works.notice_eq]
        rfl
      rw [ht]
      refine ⟨fun hactive hroom => ?_, fun hfull => ?_⟩
      · rw [Port.noticed, if_pos ⟨hactive, hroom⟩]
        rfl
      · rw [Port.noticed, if_neg fun ⟨hactive, hroom⟩ => hfull.elim (fun h => h hactive) fun h => absurd hroom (Nat.not_lt.mpr h)]
        rfl

end Sys2Proof.Machine
end

section
/-!
SUPPORT. A batch's close tests (R128), its refusal (R134), the finding of an entry (R130, R131), the placement event (R132) and the commit
(R138).
-/

namespace Sys2Proof.Machine

/-! ## The position of the first that fails -/

theorem firstIndex_eq_some {α : Type} {p : α → Bool} {q : α → Prop} (hpq : ∀ a, p a = true ↔ q a) {l : List α} {k : Nat}
    (hk : ∃ a, l[k]? = some a ∧ q a) (hbefore : ∀ j < k, ¬ ∃ a, l[j]? = some a ∧ q a) : firstIndex p 0 l = some k := by
  obtain ⟨a, ha, hqa⟩ := hk
  obtain ⟨hlt, hget⟩ := List.getElem?_eq_some_iff.mp ha
  have hsplit : l = l.take k ++ a :: l.drop (k + 1) := by rw [← hget, List.cons_getElem_drop_succ, List.take_append_drop]
  have hfree : ∀ b ∈ l.take k, p b = false := by
    intro b hb
    obtain ⟨j, hj, hjb⟩ := List.mem_take_iff_getElem.mp hb
    have hjk : j < k := by omega
    rw [← Bool.not_eq_true]
    exact fun hp => hbefore j hjk ⟨b, by rw [List.getElem?_eq_getElem (by omega), hjb], (hpq b).mp hp⟩
  have hfirst := firstIndex_append 0 hfree ((hpq a).mpr hqa) (after := l.drop (k + 1))
  rwa [← hsplit, Nat.zero_add, List.length_take, Nat.min_eq_left (by omega)] at hfirst

theorem firstIndex_eq_none {α : Type} {p : α → Bool} {q : α → Prop} (hpq : ∀ a, p a = true ↔ q a) {l : List α}
    (h : ∀ k : Nat, ¬ ∃ a, l[k]? = some a ∧ q a) : firstIndex p 0 l = none := by
  refine (firstIndex_eq_none_iff p 0 l).mpr fun a ha => ?_
  obtain ⟨k, hk⟩ := List.mem_iff_getElem?.mp ha
  rw [← Bool.not_eq_true]
  exact fun hp => h k ⟨a, hk, (hpq a).mp hp⟩

/-- Whether the identity at a position stands earlier in a list, or in those seen before it. -/
def Repeats (seen l : List Identity) (k : Nat) : Prop := ∃ i, l[k]? = some i ∧ (i ∈ seen ∨ ∃ j < k, l[j]? = some i)

theorem Repeats.cons {seen l : List Identity} {i : Identity} (k : Nat) : Repeats seen (i :: l) (k + 1) ↔ Repeats (seen ++ [i]) l k := by
  simp only [Repeats, List.getElem?_cons_succ, List.mem_append, List.mem_singleton]
  refine exists_congr fun a => and_congr_right fun _ => ?_
  constructor
  · rintro (hseen | ⟨j, hj, hjl⟩)
    · exact .inl (.inl hseen)
    · cases j with
      | zero => exact .inl (.inr (Option.some.inj hjl).symm)
      | succ j => exact .inr ⟨j, by omega, hjl⟩
  · rintro ((hseen | heq) | ⟨j, hj, hjl⟩)
    · exact .inl hseen
    · exact .inr ⟨0, by omega, by rw [heq]; rfl⟩
    · exact .inr ⟨j + 1, by omega, hjl⟩

theorem Repeats.zero {seen l : List Identity} {i : Identity} : Repeats seen (i :: l) 0 ↔ i ∈ seen := by
  simp [Repeats]

theorem firstRepeat_eq_some {seen l : List Identity} {k n : Nat} (hk : Repeats seen l k) (hbefore : ∀ j < k, ¬ Repeats seen l j) :
    firstRepeat seen n l = some (n + k) := by
  induction l generalizing seen k n with
  | nil =>
    obtain ⟨i, hi, -⟩ := hk
    cases hi
  | cons i l ih =>
    unfold firstRepeat
    cases k with
    | zero =>
      rw [if_pos (List.contains_iff_mem.mpr (Repeats.zero.mp hk))]
      rfl
    | succ k =>
      rw [if_neg fun hseen => hbefore 0 (by omega) (Repeats.zero.mpr (List.contains_iff_mem.mp hseen)),
        ih ((Repeats.cons k).mp hk) fun j hj hrep => hbefore (j + 1) (by omega) ((Repeats.cons j).mpr hrep)]
      congr 1
      omega

theorem firstRepeat_eq_none {seen l : List Identity} {n : Nat} (h : ∀ k, ¬ Repeats seen l k) : firstRepeat seen n l = none := by
  induction l generalizing seen n with
  | nil => rfl
  | cons i l ih =>
    unfold firstRepeat
    rw [if_neg fun hseen => h 0 (Repeats.zero.mpr (List.contains_iff_mem.mp hseen))]
    exact ih fun k hrep => h (k + 1) ((Repeats.cons k).mpr hrep)

/-! ## The close tests (R128) -/

section
variable (given : List AmendEntry)

/-- The entry at a position fails a test. -/
def Fails (p : AmendEntry → Prop) (k : Nat) : Prop := ∃ e, given[k]? = some e ∧ p e

/-- The tests of a batch's entries, in their order. -/
def FailsKind : Nat → Prop := Fails given fun e => e.kind ≠ 1 ∧ e.kind ≠ 2

def FailsIdentity : Nat → Prop :=
  Fails given fun e => ¬(e.day ≤ 49710 ∧ 1 ≤ e.account ∧ e.account ≤ 999999999999999 ∧ e.switch ≤ 4095)

def FailsValues : Nat → Prop := Fails given fun e => e.kind = 1 ∧ (1048575 < e.dur ∨ 2147483647 < e.charge)

def FailsDay : Nat → Prop := Fails given fun e => ∀ a, given.head? = some a → e.day ≠ a.day

def FailsAgain (k : Nat) : Prop := ∃ j < k, ∃ a e, given[j]? = some a ∧ given[k]? = some e ∧
  a.day = e.day ∧ a.account = e.account ∧ a.switch = e.switch ∧ a.seq = e.seq

/-- A test fails first at a position, the tests before it nowhere. -/
def FailsFirst (before : List (Nat → Prop)) (t : Nat → Prop) (k : Nat) : Prop := (∀ u ∈ before, ∀ j, ¬ u j) ∧ t k ∧ ∀ j < k, ¬ t j

end

theorem failsAgain_iff (given : List AmendEntry) (k : Nat) : FailsAgain given k ↔ Repeats [] (given.map (·.identity)) k := by
  simp only [FailsAgain, Repeats, List.getElem?_map, Option.map_eq_some_iff, List.not_mem_nil, false_or]
  constructor
  · rintro ⟨j, hj, a, e, ha, he, hd, hacc, hs, hq⟩
    refine ⟨_, ⟨e, he, rfl⟩, j, hj, a, ha, ?_⟩
    simp only [AmendEntry.identity, hd, hacc, hs, hq]
  · rintro ⟨i, ⟨e, he, rfl⟩, j, hj, a, ha, hi⟩
    simp only [AmendEntry.identity, Identity.mk.injEq] at hi
    obtain ⟨hd, hacc, hs, hq⟩ := hi
    exact ⟨j, hj, a, e, ha, he, hd, hacc, hs, hq⟩

theorem AmendEntry.inRange_iff (e : AmendEntry) :
    (!e.inRange) = true ↔ ¬(e.day ≤ 49710 ∧ 1 ≤ e.account ∧ e.account ≤ 999999999999999 ∧ e.switch ≤ 4095) := by
  rw [Bool.not_eq_true', ← Bool.not_eq_true]
  simp only [AmendEntry.inRange, Bool.and_eq_true, decide_eq_true_eq, and_assoc]
  exact Iff.rfl

theorem AmendEntry.otherKind_iff (e : AmendEntry) : (decide (e.kind ≠ 1) && decide (e.kind ≠ 2)) = true ↔ e.kind ≠ 1 ∧ e.kind ≠ 2 := by
  simp

theorem AmendEntry.outOfRange_iff (e : AmendEntry) :
    (decide (e.kind = 1) && (decide (1048575 < e.dur) || decide (2147483647 < e.charge))) = true ↔
      e.kind = 1 ∧ (1048575 < e.dur ∨ 2147483647 < e.charge) := by
  simp

/-- Another day than that of the first entry. -/
theorem failsDay_iff {given : List AmendEntry} {a : AmendEntry} (hhead : given.head? = some a) (e : AmendEntry) :
    decide (e.day ≠ (given.head?.map (·.day)).getD 0) = true ↔ ∀ a, given.head? = some a → e.day ≠ a.day := by
  rw [decide_eq_true_eq, hhead]
  simp

section
variable {w : Works} {net : Int} {given : List AmendEntry} {a : AmendEntry} (hhead : given.head? = some a) (hlow : -(2 ^ 41) ≤ net)
  (hhigh : net ≤ 2 ^ 41)
include hhead hlow hhigh

/-- The first test that an entry fails, with that entry's position. -/
theorem Works.closeTest_fails {k : Nat} (h : FailsFirst [] (FailsKind given) k ∨ FailsFirst [FailsKind given] (FailsIdentity given) k ∨
    FailsFirst [FailsKind given, FailsIdentity given] (FailsValues given) k ∨
    FailsFirst [FailsKind given, FailsIdentity given, FailsValues given] (FailsDay given) k ∨
    FailsFirst [FailsKind given, FailsIdentity given, FailsValues given, FailsDay given] (FailsAgain given) k) :
    w.closeTest net given = some (.malformed, k) := by
  have hne : given ≠ [] := by
    rintro rfl
    cases hhead
  have hrange : ¬ (net < -(2 ^ 41) ∨ 2 ^ 41 < net) := by omega
  unfold Works.closeTest
  simp only [if_neg hne, if_neg hrange]
  rcases h with ⟨-, hk, hbefore⟩ | ⟨hearlier, hk, hbefore⟩ | ⟨hearlier, hk, hbefore⟩ | ⟨hearlier, hk, hbefore⟩ | ⟨hearlier, hk, hbefore⟩
  · rw [firstIndex_eq_some AmendEntry.otherKind_iff hk hbefore]
    rfl
  · rw [firstIndex_eq_none AmendEntry.otherKind_iff (hearlier (FailsKind given) (by simp)), firstIndex_eq_some AmendEntry.inRange_iff hk hbefore]
    rfl
  · rw [firstIndex_eq_none AmendEntry.otherKind_iff (hearlier (FailsKind given) (by simp)), firstIndex_eq_none AmendEntry.inRange_iff (hearlier (FailsIdentity given) (by simp)),
      firstIndex_eq_some AmendEntry.outOfRange_iff hk hbefore]
    rfl
  · rw [firstIndex_eq_none AmendEntry.otherKind_iff (hearlier (FailsKind given) (by simp)), firstIndex_eq_none AmendEntry.inRange_iff (hearlier (FailsIdentity given) (by simp)),
      firstIndex_eq_none AmendEntry.outOfRange_iff (hearlier (FailsValues given) (by simp)),
      firstIndex_eq_some (failsDay_iff hhead) hk hbefore]
    rfl
  · rw [firstIndex_eq_none AmendEntry.otherKind_iff (hearlier (FailsKind given) (by simp)), firstIndex_eq_none AmendEntry.inRange_iff (hearlier (FailsIdentity given) (by simp)),
      firstIndex_eq_none AmendEntry.outOfRange_iff (hearlier (FailsValues given) (by simp)),
      firstIndex_eq_none (failsDay_iff hhead) (hearlier (FailsDay given) (by simp)),
      firstRepeat_eq_some ((failsAgain_iff given k).mp hk) fun j hj hrep => hbefore j hj ((failsAgain_iff given j).mpr hrep), Nat.zero_add]
    rfl

/-- No entry fails a test: the day decides. -/
theorem Works.closeTest_passes
    (h : ∀ t ∈ [FailsKind given, FailsIdentity given, FailsValues given, FailsDay given, FailsAgain given], ∀ k, ¬ t k) :
    w.closeTest net given = match w.liveDay a.day with
      | none => some (.notFound, 0)
      | some d => if d.state = .closed then none else some (.state, 0) := by
  have hne : given ≠ [] := by
    rintro rfl
    cases hhead
  have hrange : ¬ (net < -(2 ^ 41) ∨ 2 ^ 41 < net) := by omega
  unfold Works.closeTest
  simp only [if_neg hne, if_neg hrange]
  rw [firstIndex_eq_none AmendEntry.otherKind_iff (h (FailsKind given) (by simp)), firstIndex_eq_none AmendEntry.inRange_iff (h (FailsIdentity given) (by simp)),
    firstIndex_eq_none AmendEntry.outOfRange_iff (h (FailsValues given) (by simp)),
    firstIndex_eq_none (failsDay_iff hhead) (h (FailsDay given) (by simp)),
    firstRepeat_eq_none fun k hrep => h (FailsAgain given) (by simp) k ((failsAgain_iff given k).mpr hrep), hhead]
  rfl

end

/-! ## A batch refused (R134) -/

/-- A batch has ended, nothing pending and no day having changed, and its closing request has been answered as given where it can be. -/
def Works.BatchEnded (w : Works) (ch : Fin 4) (closing : Option Nat) (v : Verdict) (reason : Option Reason) (res : Result) (t : Works) : Prop :=
  (t.batch ch).state = .none ∧ (t.batch ch).entries = [] ∧ t.amend.pending = w.amend.pending ∧ t.days = w.days ∧
    ∀ q, closing = some q.id → w.req q.id = some q → q.discarded = false → (w.port.out.get q.ch).length < 64 →
      t.port = w.port.answered q v reason res

/-- A batch ended and its closing request, if it has one, answered. -/
theorem Works.endBatch_ended (w : Works) (ch : Fin 4) (closing : Option Nat) (v : Verdict) (reason : Option Reason) (res : Result) :
    w.BatchEnded ch closing v reason res
      (match closing with | some id => (w.endBatch ch).reply id v reason res false | none => w.endBatch ch) := by
  have hbatch := w.endBatch_batch_self ch
  cases closing with
  | none =>
    refine ⟨congrArg Batch.state hbatch, congrArg Batch.entries hbatch, ?_, ?_, fun q h => by cases h⟩
    · rw [Works.endBatch_eq]
    · rw [Works.endBatch_eq]
  | some id =>
    dsimp only
    refine ⟨?_, ?_, ?_, ?_, fun q h hreq hheard hroom => ?_⟩
    · rw [Works.reply_port]
      exact congrArg Batch.state hbatch
    · rw [Works.reply_port]
      exact congrArg Batch.entries hbatch
    · rw [Works.reply_port, Works.endBatch_eq]
    · rw [Works.reply_port, Works.endBatch_eq]
    · cases h
      have hreq' : (w.endBatch ch).req q.id = some q := by
        rw [Works.endBatch_eq]
        exact hreq
      have hroom' : ((w.endBatch ch).port.out.get q.ch).length < Config.outbound := by
        rw [Works.endBatch_eq]
        exact hroom
      rw [Works.reply_answered _ q v reason res hreq' hheard hroom', Works.endBatch_eq]

theorem Works.refuseBatch_ended (w : Works) (ch : Fin 4) (reason : Reason) (n : Nat) :
    w.BatchEnded ch (w.batch ch).closing .refused (some reason) (.named n) (w.refuseBatch ch reason n) := by
  have h := w.endBatch_ended ch (w.batch ch).closing .refused (some reason) (.named n)
  unfold Works.refuseBatch
  cases hc : (w.batch ch).closing with
  | none =>
    rw [hc] at h
    exact h
  | some id =>
    rw [hc] at h
    exact h

theorem Works.setBatch_batch_self (w : Works) (ch : Fin 4) (b : Batch) : (w.setBatch ch b).batch ch = b := Quad.get_set_self _ _ _

theorem Works.setBatch_batch_other (w : Works) {ch c : Fin 4} (b : Batch) (h : c ≠ ch) : (w.setBatch ch b).batch c = w.batch c :=
  Quad.get_set_other _ _ _ _ h

/-! ## AMEND and AMEND_CLOSE (R127, R128) -/

/-- The next batch of a channel, as its end leaves it with its request answered. -/
def State.batchEnds (s : State) (ch : Fin 4) (r : Req) (reason : Reason) (n : Nat) (o : Host.Outcome State Fault Refusal) : Prop :=
  ∃ w, o = .next { s with works := w } ∧
    w = { s.works with serial := w.serial, array := w.array, amend := w.amend, port := w.port } ∧
    w.amend.pending = s.works.amend.pending ∧ (w.batch ch).state = .none ∧ (w.batch ch).entries = [] ∧
    (∀ c, c ≠ ch → w.batch c = s.works.batch c) ∧ w.port.out = s.works.port.out.set ch
      (s.works.port.out.get ch ++ [⟨r.tag, .refused, some reason, none, false, false, .named n⟩])

section
variable {ch : Fin 4} {s : State} {r : Req} {close : Bool} {net : Int} {entries : List AmendEntry} (ho : s.offers ch .amendment r)
  (hr : r.request = .amend close net entries)
include ho hr

theorem exec_amend_of_offers (hclose : close = false) : exec (.amend ch) s = s.settled (s.works.amendCollect r entries) :=
  State.serve_some s ch .amendment _ r _ ho.1 (by simp only [hr, hclose]; rfl)

theorem exec_amendClose_of_offers (hclose : close = true) : exec (.amendClose ch) s = s.settled (s.works.amendClose r net entries) :=
  State.serve_some s ch .amendment _ r _ ho.1 (by simp only [hr, hclose]; rfl)

end

section
variable {s : State} {r : Req} {l : List AmendEntry} (hlen : l.length ≤ 64)
include hlen

theorem Works.collect_busy (hb : (s.works.batch r.ch).state = .checking ∨ (s.works.batch r.ch).state = .applying) :
    s.works.collect r l = .error (s.works.refuse r.id .busy) :=
  (if_neg (Nat.not_lt.mpr hlen)).trans (if_pos hb)

variable (hb : (s.works.batch r.ch).state = .none ∨ (s.works.batch r.ch).state = .collecting)
include hb

theorem Works.collect_tooLarge (hmany : 1024 < (s.works.batch r.ch).entries.length + l.length) : s.works.collect r l =
    .error ((s.works.endBatch r.ch).refuseWith r.id .tooLarge (.named (1024 - (s.works.batch r.ch).entries.length))) := by
  have hopen : ¬ ((s.works.batch r.ch).state = .checking ∨ (s.works.batch r.ch).state = .applying) := by
    rcases hb with h | h
    · simp [h]
    · simp [h]
  exact (if_neg (Nat.not_lt.mpr hlen)).trans ((if_neg hopen).trans (if_pos hmany))

theorem Works.collect_ok (hfew : (s.works.batch r.ch).entries.length + l.length ≤ 1024) :
    s.works.collect r l = .ok ((s.works.batch r.ch).collect l) := by
  have hopen : ¬ ((s.works.batch r.ch).state = .checking ∨ (s.works.batch r.ch).state = .applying) := by
    rcases hb with h | h
    · simp [h]
    · simp [h]
  exact (if_neg (Nat.not_lt.mpr hlen)).trans ((if_neg hopen).trans (if_neg (Nat.not_lt.mpr hfew)))

end

/-- A closing AMEND's request taken, found again with its phase changed. -/
theorem Port.taken_find {p : Port} {r : Req} (h : p.reqs.find? (fun q => decide (q.id = r.id)) = some r) :
    (p.taken r).reqs.find? (fun q => decide (q.id = r.id)) = some { r with phase := .taken } := by
  have hsame : ∀ q : Req, decide ((if q.id = r.id then { q with phase := .taken } else q).id = r.id) = decide (q.id = r.id) := fun q => by
    split
    · rfl
    · rfl
  rw [Port.taken, List.find?_map, Function.comp_def]
  simp only [hsame, h, Option.map_some, if_true]

/-- A batch refused at its close. -/
theorem State.batchEnds_refused {ch : Fin 4} {s : State} {r : Req} (ho : s.offers ch .amendment r) (hq : s.quiet) (b : Batch)
    (hclosing : b.closing = some r.id) (reason : Reason) (n : Nat) :
    s.batchEnds ch r reason n (s.settled (((s.works.setBatch ch b).take r.id).refuseBatch ch reason n)) := by
  obtain ⟨hreq, hheard, hroom⟩ := s.offers_req ho
  have hch := State.offers_channel ho
  let w := (s.works.setBatch ch b).take r.id
  have hw : w = { s.works.setBatch ch b with port := s.works.port.taken r } := Works.take_taken _ _
  have hbatch : w.batch ch = b := by
    rw [hw]
    exact s.works.setBatch_batch_self ch b
  have heq : w.refuseBatch ch reason n = { w.endBatch ch with
      port := (s.works.port.taken r).answered { r with phase := .taken } .refused (some reason) (.named n) } := by
    have hport : (w.endBatch ch).port = s.works.port.taken r := by rw [Works.endBatch_eq, hw]
    simp only [Works.refuseBatch, hbatch, hclosing]
    refine (Works.reply_answered (w.endBatch ch) { r with phase := .taken } .refused (some reason) (.named n) ?_ hheard ?_).trans ?_
    · rw [Works.req, hport]
      exact Port.taken_find (r := r) hreq
    · rw [hport]
      exact hroom
    · rw [hport]
  have hend := w.endBatch_batch_self ch
  refine ⟨_, State.settled_quiet s _ ?_, ?_, ?_, ?_, ?_, fun c hc => ?_, ?_⟩
  · show (w.refuseBatch ch reason n).tasks = []
    rw [heq, Works.endBatch_eq, hw]
    exact hq
  · show w.refuseBatch ch reason n = _
    rw [heq, Works.endBatch_eq, hw]
    rfl
  · show (w.refuseBatch ch reason n).amend.pending = _
    rw [heq, Works.endBatch_eq, hw]
    rfl
  · show ((w.refuseBatch ch reason n).batch ch).state = _
    rw [heq]
    exact congrArg Batch.state hend
  · show ((w.refuseBatch ch reason n).batch ch).entries = _
    rw [heq]
    exact congrArg Batch.entries hend
  · show (w.refuseBatch ch reason n).batch c = _
    rw [heq]
    refine (w.endBatch_batch_other hc).trans ?_
    rw [hw]
    exact s.works.setBatch_batch_other b hc
  · show (w.refuseBatch ch reason n).port.out = _
    rw [heq, ← hch]
    rfl

/-- AMEND_CLOSE once its entries have been collected. -/
theorem Works.amendClose_ok {s : State} {r : Req} {l : List AmendEntry} (net : Int) (hlen : l.length ≤ 64)
    (hb : (s.works.batch r.ch).state = .none ∨ (s.works.batch r.ch).state = .collecting)
    (hfew : (s.works.batch r.ch).entries.length + l.length ≤ 1024) :
    let b := { (s.works.batch r.ch).collect l with net := some net, closing := some r.id }
    let w := (s.works.setBatch r.ch b).take r.id
    let given := (s.works.batch r.ch).entries.map (·.given) ++ l
    s.works.amendClose r net l = match s.works.closeTest net given with
      | some (reason, n) => w.refuseBatch r.ch reason n
      | none => (w.setBatch r.ch { b with state := .checking, day := given.head?.map (·.day) }).beginFinding r.ch 0 := by
  intro b w given
  have hgiven : ((s.works.batch r.ch).collect l).entries.map (·.given) = given := by
    simp only [Batch.collect, given, List.map_append, List.map_map, Function.comp_def, List.map_id']
  have htest : w.closeTest net given = s.works.closeTest net given := by
    have hlive : ∀ d, w.liveDay d = s.works.liveDay d := fun d => by
      simp only [w]
      rw [Works.take_taken]
      rfl
    simp only [Works.closeTest, hlive]
  simp only [Works.amendClose, Works.collect_ok hlen hb hfew, hgiven]
  rw [show ((s.works.setBatch r.ch { (s.works.batch r.ch).collect l with net := some net, closing := some r.id }).take r.id).closeTest net
    given = s.works.closeTest net given from htest] <;> rfl

/-! ## The finding, the placement and the commit (R130, R132, R138) -/

theorem Works.dropStaleHit_of_current {w : Works} {ch : Fin 4}
    (h : ∀ f, (w.batch ch).hit = some f → ∃ y : Entry, w.current f.ref = some y ∧ y.quarantined = false) : w.dropStaleHit ch = w := by
  unfold Works.dropStaleHit
  dsimp only
  split
  · rfl
  · next f hf =>
    obtain ⟨y, hy, hquar⟩ := h f hf
    rw [if_pos (by simp [hy, hquar])]

/-- The finding goes on with the first entry not found, or the placement event follows. -/
theorem Works.findNext_eq (w : Works) (ch : Fin 4) : ∃ b' serial more, w.findNext ch =
    { w.setBatch ch b' with serial := serial, tasks := w.tasks ++ more } ∧
      b'.state = (w.batch ch).state ∧ b'.entries = (w.batch ch).entries ∧ b'.hit = (w.batch ch).hit := by
  unfold Works.findNext
  split
  · next n _ =>
    exact ⟨{ w.batch ch with wait := .finding n none, examined := [], serial := w.serial }, w.serial + 1, [.find ch], rfl, rfl, rfl, rfl⟩
  · exact ⟨{ w.batch ch with wait := .placing }, w.serial, [.place ch], rfl, rfl, rfl, rfl⟩

/-- A find is stale: the index does not hold its entry, or holds it QUARANTINED. -/
theorem Works.staleFind_iff (w : Works) (e : BatchEntry) :
    w.staleFind e = true ↔ ∃ f, e.found = some f ∧ ∀ y, w.current f.ref = some y → y.quarantined = true := by
  cases hf : e.found with
  | none => simp [Works.staleFind, hf]
  | some f =>
    simp only [Works.staleFind, hf, Option.any_some, Option.some.injEq, exists_eq_left']
    cases w.current f.ref with
    | none => simp
    | some y => simp

/-- The APPLY item of a placed batch asked: its batch stays as placed but for what it waits for and its item. -/
theorem Works.queueApply_eq (w : Works) {ch : Fin 4} (b : Batch) (hstate : b.state = .applying) :
    let t := (w.setBatch ch b).queueApply ch
    ∃ b', t = { w.setBatch ch b' with serial := t.serial, packer := t.packer, tasks := t.tasks } ∧
      b'.state = .applying ∧ b'.entries = b.entries := by
  unfold Works.queueApply
  rw [Works.setBatch_batch_self]
  dsimp only
  split
  · exact ⟨b, rfl, hstate, rfl⟩
  · split
    · next n u hpush =>
      unfold Works.pushItem at hpush
      split at hpush
      · cases hpush
        refine ⟨{ b with wait := .none, item := some w.serial }, ?_, hstate, rfl⟩
        simp only [Works.setBatch, Works.task, Quad.set_set]
      · cases hpush
    · refine ⟨{ b with wait := .queue }, ?_, hstate, rfl⟩
      simp only [Works.setBatch, Works.noteAsker, Quad.set_set]

/-- The entries of a batch as they join the Pending Amendment Set. -/
def Batch.pends (b : Batch) (ch : Fin 4) : List PendingEntry :=
  b.entries.zipIdx.filterMap fun p => p.1.found.map fun f =>
    (⟨p.1.given.identity, ch, p.2, p.1.given.change, f.call.cls, f.call.key⟩ : PendingEntry)

theorem Works.foldl_unpinFound (l : List BatchEntry) (w : Works) :
    l.foldl (fun w e => match e.found with | some f => w.unpin f.pin | none => w) w =
      { w with array := (l.foldl (fun w e => match e.found with | some f => w.unpin f.pin | none => w) w).array } := by
  induction l generalizing w with
  | nil => rfl
  | cons e l ih =>
    rw [List.foldl_cons, ih]
    cases e.found with
    | none => rfl
    | some f => rfl

section
variable {x : Ctx} {w : Works} {ch : Fin 4} {n : Nat} {e : BatchEntry} (hstate : (w.batch ch).state = .checking)
  (hwait : (w.batch ch).wait = .finding n none) (hentry : (w.batch ch).entries[n]? = some e)
  (hhit : ∀ f, (w.batch ch).hit = some f → ∃ y : Entry, w.current f.ref = some y ∧ y.quarantined = false)
include hstate hwait hentry hhit

/-- The finding of the entry under way, no hit being stale. -/
theorem Works.findEntry_eq {id : Identity} (hid : e.given.identity = id) : w.findEntry ch =
    let b := w.batch ch
    let sheets := w.accountEntries id.day id.account
    let bad := sheets.any fun p => p.2.quarantined
    if w.liveDay id.day = none then w.refuseBatch ch .notFound n
    else match w.intake.late.find? fun l => decide (l.call.identity = id) with
      | some l =>
        if bad then w.refuseBatch ch .quarantined n
        else (w.setBatch ch { b with wait := .merge n id.day l.call.cls }).askMerge ch id.day l.call.cls
      | none =>
        match sheets.find? fun p => !p.2.quarantined && !(b.examined.contains (p.2.ref id.day p.1)) with
        | some p =>
          (w.setBatch ch { b with wait := .finding n (some (p.2.ref id.day p.1)) }).askRead p.2.slot
            (.batch ch b.serial n (p.2.ref id.day p.1))
        | none =>
          match b.hit with
          | some f => (w.setBatch ch { b with entries := b.entries.set n { e with found := some f }, hit := none }).findNext ch
          | none => if bad then w.refuseBatch ch .quarantined n else w.refuseBatch ch .notFound n := by
  subst hid
  simp only [Works.findEntry, Works.dropStaleHit_of_current hhit, hstate, hwait, hentry, Option.isNone_iff_eq_none] <;> rfl

end

theorem Works.beginFinding_setBatch (w : Works) (ch : Fin 4) (b : Batch) (n : Nat) : (w.setBatch ch b).beginFinding ch n =
    { w.setBatch ch { b with wait := .finding n none, examined := [], serial := w.serial } with
      serial := w.serial + 1, tasks := w.tasks ++ [.find ch] } := by
  simp only [Works.beginFinding, Works.next, Works.setBatch, Works.batch, Works.task, Quad.get_set_self, Quad.set_set]

/-- AMEND and AMEND_CLOSE: the batch refused or collected, and at its close refused or CHECKING. -/
theorem amend_collects (ch : Fin 4) (s : State) (r : Req) (close : Bool) (net : Int) (entries : List AmendEntry)
    (ho : s.offers ch .amendment r) (hr : r.request = .amend close net entries) (hq : s.quiet) (hlen : entries.length ≤ 64) :
    let command : Instr := if close then .amendClose ch else .amend ch
    let b := s.works.batch ch
    let given := b.entries.map (fun e => e.given) ++ entries
    ((b.state = .checking ∨ b.state = .applying) → exec command s = .next (s.refusing r .busy)) ∧
    ((b.state = .none ∨ b.state = .collecting) →
      (1024 < given.length → s.batchEnds ch r .tooLarge (1024 - b.entries.length) (exec command s)) ∧
      (given.length ≤ 1024 → close = false → exec command s = .next
        { s with works := { s.works.setBatch ch (b.collect entries) with
          port := s.works.port.answered r .done none (.entries given.length) } }) ∧
      (given.length ≤ 1024 → close = true →
        (∀ reason n, s.works.closeTest net given = some (reason, n) → s.batchEnds ch r reason n (exec command s)) ∧
        (s.works.closeTest net given = none → ∃ b', Settles (exec command s) s { s.works.setBatch ch b' with
            serial := s.works.serial + 1, tasks := [.find ch], port := s.works.port.taken r } ∧
          b' = { b with state := .checking, entries := (b.collect entries).entries, net := some net, closing := some r.id,
                        day := given.head?.map (·.day), wait := .finding 0 none, examined := [], serial := s.works.serial }))) := by
  have hch := State.offers_channel ho
  subst hch
  intro command b given
  have hcommand : exec command s = s.settled (if close then s.works.amendClose r net entries else s.works.amendCollect r entries) := by
    cases hclose : close with
    | true =>
      simp only [command, hclose, if_true]
      exact exec_amendClose_of_offers ho hr hclose
    | false =>
      simp only [command, hclose, Bool.false_eq_true, if_false]
      exact exec_amend_of_offers ho hr hclose
  have hgiven : given.length = (s.works.batch r.ch).entries.length + entries.length := by simp [given, b]
  have herror : ∀ u, s.works.collect r entries = .error u → exec command s = s.settled u := by
    intro u hu
    rw [hcommand]
    cases close with
    | true => simp only [if_true, Works.amendClose, hu]
    | false => simp only [Bool.false_eq_true, if_false, Works.amendCollect, hu]
  refine ⟨fun hb => ?_, fun hb => ⟨fun hmany => ?_, fun hfew hclose => ?_, fun hfew hclose => ⟨fun reason n htest => ?_, fun htest => ?_⟩⟩⟩
  · rw [herror _ (Works.collect_busy hlen hb)]
    exact State.settled_refuse ho hq .busy
  · rw [herror _ (Works.collect_tooLarge hlen hb (by omega))]
    obtain ⟨hreq, hheard, hroom⟩ := s.offers_req ho
    have hend := s.works.endBatch_batch_self r.ch
    have heq : (s.works.endBatch r.ch).refuseWith r.id .tooLarge (.named (1024 - b.entries.length)) = { s.works.endBatch r.ch with
        port := s.works.port.answered r .refused (some .tooLarge) (.named (1024 - b.entries.length)) } := by
      rw [Works.refuseWith, Works.reply_answered _ r _ _ _ (by rw [Works.endBatch_eq]; exact hreq) hheard (by rw [Works.endBatch_eq]; exact hroom),
        Works.endBatch_eq]
    refine ⟨_, (congrArg s.settled heq).trans (State.settled_quiet s _ ?_), ?_, ?_, congrArg Batch.state hend, congrArg Batch.entries hend,
      fun c hc => s.works.endBatch_batch_other hc, rfl⟩
    · rw [Works.endBatch_eq]
      exact hq
    · rw [Works.endBatch_eq]
    · rw [Works.endBatch_eq]
  · rw [hcommand, hclose]
    simp only [Bool.false_eq_true, if_false, Works.amendCollect, Works.collect_ok hlen hb (by omega)]
    rw [show (b.collect entries).entries.length = given.length by simp [Batch.collect, hgiven, b]]
    exact State.settled_done (w := s.works.setBatch r.ch (b.collect entries)) ho rfl hq _
  · have hok := Works.amendClose_ok (s := s) net hlen hb (by omega)
    dsimp only at hok
    rw [show s.works.closeTest net ((s.works.batch r.ch).entries.map (·.given) ++ entries) = _ from htest] at hok
    rw [hcommand, hclose, if_pos rfl, hok]
    exact State.batchEnds_refused ho hq _ rfl reason n
  · have hok := Works.amendClose_ok (s := s) net hlen hb (by omega)
    dsimp only at hok
    rw [show s.works.closeTest net ((s.works.batch r.ch).entries.map (·.given) ++ entries) = _ from htest] at hok
    refine ⟨_, ?_, rfl⟩
    rw [hcommand, hclose, if_pos rfl, hok]
    refine congrArg s.settled ?_
    rw [Works.beginFinding_setBatch, Works.take_taken]
    simp only [Works.setBatch, Quad.set_set, show s.works.tasks = [] from hq]
    rfl

/-- Settles O48: a batch is collected within its limits, tested at its close, found, placed and committed. -/
theorem amendCollectsUpToItsLimits : Obligations.AmendCollectsUpToItsLimits := by
  refine ⟨fun ch s r close net entries ho hr hq hlen => ?amend, fun x w ch => ?unit⟩
  case amend =>
    intro command b given ends fails kind identity values otherDay again first
    obtain ⟨hbusy, hopen⟩ := amend_collects ch s r close net entries ho hr hq hlen
    refine ⟨hbusy, fun hb => ?_⟩
    obtain ⟨hmany, hcollect, hclosing⟩ := hopen hb
    refine ⟨hmany, fun hfew hclose => ⟨_, hcollect hfew hclose, rfl, rfl, rfl⟩, fun hfew hclose => ?_⟩
    obtain ⟨hfails, hpasses⟩ := hclosing hfew hclose
    refine ⟨fun hempty => hfails _ _ ?_, fun hsome hrange => hfails _ _ ?_, fun hlow hhigh => ⟨fun k hk => hfails _ _ ?_,
      fun hnone a hhead => ?_⟩⟩
    · exact if_pos hempty
    · exact (if_neg hsome).trans (if_pos hrange)
    · obtain ⟨a, hhead⟩ : ∃ a, given.head? = some a := by
        cases hgiven : given with
        | nil =>
          have hout : ∀ (k : Nat) (e : AmendEntry), given[k]? ≠ some e := fun k e h => by simp [hgiven] at h
          rcases hk with ⟨-, ⟨e, he, -⟩, -⟩ | ⟨-, ⟨e, he, -⟩, -⟩ | ⟨-, ⟨e, he, -⟩, -⟩ | ⟨-, ⟨e, he, -⟩, -⟩ | ⟨-, ⟨j, -, e, -, he, -⟩, -⟩
          all_goals exact absurd he (hout _ _)
        | cons a l => exact ⟨a, rfl⟩
      exact Works.closeTest_fails hhead hlow hhigh hk
    · have htest := Works.closeTest_passes (w := s.works) hhead hlow hhigh hnone
      refine ⟨fun hgone => hfails _ _ ?_, fun d hd hgoing => ⟨fun hstate => hfails _ _ ?_, fun hstate => ?_⟩⟩
      · exact htest.trans (by rw [Works.liveDay_eq_none hgone])
      · exact htest.trans (by rw [Works.liveDay_eq_some hd hgoing]; exact if_neg hstate)
      · obtain ⟨b', hsettles, hb'⟩ := hpasses (htest.trans (by rw [Works.liveDay_eq_some hd hgoing]; exact if_pos hstate))
        have hself := s.works.setBatch_batch_self ch b'
        refine ⟨_, hsettles, rfl, rfl, fun c hc => s.works.setBatch_batch_other b' hc, ?_, ?_, ?_, ?_, ?_, ?_⟩
        · exact (congrArg Batch.state hself).trans (by rw [hb'])
        · exact (congrArg Batch.net hself).trans (by rw [hb'])
        · exact (congrArg Batch.closing hself).trans (by rw [hb'])
        · exact (congrArg Batch.wait hself).trans (by rw [hb'])
        · exact (congrArg Batch.day hself).trans (by rw [hb', hhead]; rfl)
        · exact (congrArg Batch.entries hself).trans (by rw [hb']; rfl)
  case unit =>
    intro b refused
    have hrefused : ∀ reason n, refused (w.refuseBatch ch reason n) reason n := fun reason n => w.refuseBatch_ended ch reason n
    refine ⟨fun n e hstate hwait hentry hhit => ?finding, fun n d c hwait => ?told, fun d c hnone hheld hclock => ?stays,
      fun hstate hwait => ?placing, fun group => ?commits⟩
    case finding =>
      intro id t sheets bad
      have ht : t = _ := Works.findEntry_eq hstate hwait hentry hhit (show e.given.identity = id from rfl)
      have hbad : (sheets.any fun p => p.2.quarantined) = true ↔ bad := List.any_eq_true
      refine ⟨fun hgone => ?_, fun hlive => ⟨fun l hl => ⟨fun hb => ?_, fun hb => ?_⟩, fun hlate => ⟨fun p hp => ?_, fun hall => ?_⟩⟩⟩
      · rw [ht.trans (if_pos hgone)]
        exact hrefused _ _
      · have ht' := ht.trans (if_neg (Option.isSome_iff_ne_none.mp hlive))
        rw [hl] at ht'
        rw [ht'.trans (if_pos (hbad.mpr hb))]
        exact hrefused _ _
      · have ht' := ht.trans (if_neg (Option.isSome_iff_ne_none.mp hlive))
        rw [hl] at ht'
        exact ht'.trans (if_neg (mt hbad.mp hb))
      · have ht' := ht.trans (if_neg (Option.isSome_iff_ne_none.mp hlive))
        rw [List.find?_eq_none.mpr fun l hl => by simpa using hlate l hl, hp] at ht'
        exact ht'
      · have ht' := ht.trans (if_neg (Option.isSome_iff_ne_none.mp hlive))
        have hnone : (sheets.find? fun p => !p.2.quarantined && !(b.examined.contains (p.2.ref id.day p.1))) = none :=
          List.find?_eq_none.mpr fun p hp => by
            cases hq : p.2.quarantined with
            | true => simp
            | false => simpa using hall p hp hq
        rw [List.find?_eq_none.mpr fun l hl => by simpa using hlate l hl, hnone] at ht'
        refine ⟨fun f hf => ?_, fun hf hb => ?_, fun hf hb => ?_⟩
        · rw [hf] at ht'
          obtain ⟨b', serial, more, heq, -, hentries, hhit'⟩ :=
            (w.setBatch ch { b with entries := b.entries.set n { e with found := some f }, hit := none }).findNext_eq ch
          have hself : t.batch ch = b' := (congrArg (fun u => u.batch ch) (ht'.trans heq)).trans (Works.setBatch_batch_self _ _ _)
          rw [hself, hentries, hhit', Works.setBatch_batch_self]
          exact ⟨rfl, rfl⟩
        · rw [hf] at ht'
          rw [ht'.trans (if_pos (hbad.mpr hb))]
          exact hrefused _ _
        · rw [hf] at ht'
          rw [ht'.trans (if_neg (mt hbad.mp hb))]
          exact hrefused _ _
    case told =>
      show w.mergeTold ch = _
      simp only [Works.mergeTold, show (w.batch ch).wait = .merge n d c from hwait]
      rfl
    case stays =>
      show w.mergeTest x d c = w
      have hstays : w.askStays d c = true := by simp [Works.askStays, hheld, hnone]
      have hexpiry : (w.mergeExpiry x d c).any (fun t => decide (t ≤ x.clock)) = false := by
        cases h : w.mergeExpiry x d c with
        | none => rfl
        | some t => simpa using hclock t h
      have hfew : ¬ Config.mergeCount + (w.packer.schedOf d c).held ≤ (w.intake.lateOf d c).length := by
        have : 0 < Config.mergeCount := by decide
        omega
      have hdue : w.mergeDue x d c = false := by
        simp only [Works.mergeDue, hstays, hexpiry, hfew, decide_false, Bool.not_true, Bool.and_false, Bool.or_false]
      rw [Works.mergeTest, hdue]
      rfl
    case placing =>
      intro t stale held
      have hstale : ∀ e, w.staleFind e = true ↔ stale e := w.staleFind_iff
      have hchecks : ¬ ((w.batch ch).state ≠ .checking ∨ (w.batch ch).wait ≠ .placing) := by
        rintro (h | h)
        · exact h hstate
        · exact h hwait
      have ht : t = _ := if_neg hchecks
      have hany : ((w.batch ch).entries.any w.staleFind = true) ↔ ∃ e ∈ b.entries, stale e := by
        simp only [List.any_eq_true, hstale]
        exact Iff.rfl
      have hheld : ((w.batch ch).entries.any fun e => w.amend.pending.any fun p => decide (p.id = e.given.identity)) = true ↔ held := by
        simp only [List.any_eq_true, decide_eq_true_eq]
        exact Iff.rfl
      have hnone : (∀ e ∈ b.entries, ¬ stale e) → ¬ (w.batch ch).entries.any w.staleFind = true := fun h hs =>
        let ⟨e, he, hse⟩ := hany.mp hs
        h e he hse
      refine ⟨fun h => ?_, fun h hh => ?_, fun h hh hnet => ?_, fun h hh hnet => ?_⟩
      · let freed := ((w.batch ch).entries.filter w.staleFind).foldl
          (fun w e => match e.found with | some f => w.unpin f.pin | none => w) w
        have hfreed : freed = { w with array := freed.array } := Works.foldl_unpinFound _ w
        let b₁ : Batch := { b with entries := updateWhere w.staleFind (fun e => { e with found := none }) b.entries }
        have ht' : t = (freed.setBatch ch b₁).findNext ch := ht.trans (if_pos (hany.mpr h))
        obtain ⟨b', serial, more, heq, hstate', hentries, -⟩ := (freed.setBatch ch b₁).findNext_eq ch
        rw [Works.setBatch_batch_self] at hstate' hentries
        have hself : t.batch ch = b' := (congrArg (fun u => u.batch ch) (ht'.trans heq)).trans (Works.setBatch_batch_self _ _ _)
        refine ⟨(congrArg Batch.state hself).trans (hstate'.trans hstate), ?_, fun k e he => ?_⟩
        · refine (congrArg (fun u => u.amend.pending) (ht'.trans heq)).trans ?_
          rw [hfreed]
          rfl
        · refine ⟨if w.staleFind e then { e with found := none } else e, ?_, ?_, fun hs => ?_, fun hs => ?_⟩
          · rw [hself, hentries]
            simp only [b₁, updateWhere, List.getElem?_map, he, Option.map_some]
          · split
            · rfl
            · rfl
          · rw [if_pos ((hstale e).mpr hs)]
          · rw [if_neg (mt (hstale e).mp hs)]
      · exact ht.trans ((if_neg (hnone h)).trans (if_pos (hheld.mpr hh)))
      · rw [ht.trans ((if_neg (hnone h)).trans ((if_neg (mt hheld.mp hh)).trans (if_pos (Ne.symm hnet))))]
        exact hrefused _ _
      · have ht' := ht.trans ((if_neg (hnone h)).trans ((if_neg (mt hheld.mp hh)).trans (if_neg (not_not.mpr hnet.symm))))
        let placed : Works := { w with amend := { w.amend with pending := w.amend.pending ++ b.pends ch } }
        obtain ⟨b', heq, hstate', hentries⟩ := placed.queueApply_eq (ch := ch) { b with state := .applying, wait := .queue } rfl
        have htt : t = _ := ht'.trans heq
        have hself : t.batch ch = b' := (congrArg (fun u => u.batch ch) htt).trans (Works.setBatch_batch_self _ _ _)
        exact ⟨(congrArg Batch.state hself).trans hstate', (congrArg Batch.entries hself).trans hentries, by rw [htt]; rfl, by rw [htt]; rfl,
          congrArg (fun u => u.amend.pending) htt⟩
    case commits =>
      intro t
      let left := w.leavePending ch
      have hended : left.BatchEnded ch b.closing .done none (.committed b.entries.length (b.day.getD 0) group b.netChange) t := by
        have h := left.endBatch_ended ch b.closing .done none (.committed b.entries.length (b.day.getD 0) group b.netChange)
        show left.BatchEnded ch _ _ _ _ (w.commit ch group)
        unfold Works.commit
        dsimp only
        cases hc : (w.batch ch).closing with
        | none =>
          rw [show b.closing = none from hc] at h
          exact h
        | some id =>
          rw [show b.closing = some id from hc] at h
          exact h
      obtain ⟨hstate, hentries, hpending, hdays, hport⟩ := hended
      have htasks : t.tasks = left.tasks := by
        show (w.commit ch group).tasks = _
        unfold Works.commit
        dsimp only
        split
        · rw [Works.done, Works.reply_port, Works.endBatch_eq]
        · rw [Works.endBatch_eq]
      refine ⟨hstate, hentries, hpending, hdays, ?_, hport⟩
      rw [htasks]
      exact List.mem_append_right _ (List.mem_singleton.mpr rfl)

end Sys2Proof.Machine
end

section
/-!
SUPPORT. The Hold Table's requests (R149, R150, R152) and the rewrites of its ranges (R148): which releases are taken, the parts a rewrite
posts, what a posted image or a void mark asked changes, and the requests answered.
-/

namespace Sys2Proof.Machine

/-! ## The releases taken, in order (R150) -/

/-- For each waiting request, in order, whether it is taken. -/
def holdFates : Tbl HoldEntry → List HoldReq → List Bool
  | _, [] => []
  | t, q :: l => (q.place || acceptsRelease t q) :: holdFates (if q.place || acceptsRelease t q then applyReleases t [q] else t) l

/-- The requests taken, and those refused. -/
def holdsTaken (l : List (HoldReq × Bool)) : List HoldReq := (l.filter fun p => p.2).map fun p => p.1

def holdsRefused (l : List (HoldReq × Bool)) : List HoldReq := (l.filter fun p => !p.2).map fun p => p.1

theorem length_holdFates (t : Tbl HoldEntry) (l : List HoldReq) : (holdFates t l).length = l.length := by
  induction l generalizing t with
  | nil => rfl
  | cons q l ih => simp [holdFates, ih]

theorem settleReleases_eq (t : Tbl HoldEntry) (l : List HoldReq) :
    settleReleases t l = (holdsTaken (l.zip (holdFates t l)), holdsRefused (l.zip (holdFates t l))) := by
  induction l generalizing t with
  | nil => rfl
  | cons q l ih =>
    unfold settleReleases holdFates
    cases hplace : q.place with
    | true => simp [ih, holdsTaken, holdsRefused, applyReleases, hplace]
    | false =>
      cases haccepts : acceptsRelease t q with
      | true => simp [ih, holdsTaken, holdsRefused, applyReleases, hplace]
      | false => simp [ih, holdsTaken, holdsRefused]

/-- A request is taken when the table, those taken before it applied, has the hold it releases. -/
theorem holdFates_getElem {t : Tbl HoldEntry} {l : List HoldReq} {i : Nat} {q : HoldReq} (h : l[i]? = some q) :
    (holdFates t l)[i]? =
      some (q.place || acceptsRelease (applyReleases t (holdsTaken ((l.zip (holdFates t l)).take i))) q) := by
  induction l generalizing t i with
  | nil => cases h
  | cons a l ih =>
    cases i with
    | zero =>
      cases h
      rfl
    | succ i =>
      have hrest := ih (t := if a.place || acceptsRelease t a then applyReleases t [a] else t) h
      unfold holdFates
      rw [List.getElem?_cons_succ, hrest, List.zip_cons_cons, List.take_succ_cons]
      cases hb : a.place || acceptsRelease t a with
      | true => simp [holdsTaken, applyReleases]
      | false => simp [holdsTaken]

theorem acceptsRelease_eq (t : Tbl HoldEntry) (q : HoldReq) :
    acceptsRelease t q = if q.kind = .dispute then decide (0 < ((tblGet q.account t).getD ⟨0, none⟩).disputes)
      else ((tblGet q.account t).getD ⟨0, none⟩).reg.isSome := by
  unfold acceptsRelease holdOf
  cases q.kind with
  | dispute => rfl
  | regulatory => rfl

/-! ## The parts of a rewrite (R148) -/

theorem divide_spec {α : Type} (size : Nat) {k extra : Nat} {l : List α} (hextra : extra ≤ k) (hlen : l.length = k * size + extra) :
    (divide size k extra l).length = k ∧ (divide size k extra l).flatten = l ∧
      ∀ (i : Nat) (a : List α), (divide size k extra l)[i]? = some a → a.length = size + if i < extra then 1 else 0 := by
  induction k generalizing extra l with
  | zero =>
    have : l = [] := List.eq_nil_of_length_eq_zero (by omega)
    subst this
    exact ⟨rfl, rfl, fun i a h => by simp [divide] at h⟩
  | succ k ih =>
    have hn : (if 0 < extra then size + 1 else size) ≤ l.length := by
      rw [hlen, Nat.add_mul]
      split
      · omega
      · omega
    obtain ⟨hcount, hflat, hsizes⟩ := ih (extra := extra - 1) (l := l.drop (if 0 < extra then size + 1 else size)) (by omega) (by
      rw [List.length_drop, hlen, Nat.add_mul]
      split
      · omega
      · omega)
    refine ⟨by simp [divide, hcount], ?_, fun i a h => ?_⟩
    · simp only [divide, List.flatten_cons, hflat, List.take_append_drop]
    · cases i with
      | zero =>
        cases h
        rw [List.length_take, Nat.min_eq_left hn]
        split
        · rfl
        · rfl
      | succ i =>
        rw [hsizes i a h]
        by_cases hi : i + 1 < extra
        · rw [if_pos hi, if_pos (by omega)]
        · rw [if_neg hi, if_neg (by omega)]

/-- The spans of the parts follow on another over the range. -/
theorem partSpans_spec (hi lo : Nat) {l : List (Tbl HoldEntry)} (hne : l ≠ []) (hrows : ∀ rows ∈ l, rows ≠ []) :
    (partSpans hi lo l).map (·.rows) = l ∧ (∃ first rest, partSpans hi lo l = first :: rest ∧ first.lo = lo) ∧
      ((partSpans hi lo l).getLast?.map (·.hi)) = some hi ∧
      ∀ (i : Nat) (a b : HoldPart), (partSpans hi lo l)[i]? = some a → (partSpans hi lo l)[i + 1]? = some b →
        (b.rows.head?.map (·.1)) = some b.lo ∧ a.hi = b.lo - 1 := by
  induction l generalizing lo with
  | nil => exact absurd rfl hne
  | cons rows l ih =>
    cases l with
    | nil => exact ⟨rfl, ⟨_, _, rfl, rfl⟩, rfl, fun i a b _ h => by simp [partSpans] at h⟩
    | cons next l =>
      obtain ⟨hmap, ⟨first, rest, hfirst, hlo⟩, hlast, hnext⟩ := ih (((next.head?).map (·.1)).getD hi) (by simp) fun r hr =>
        hrows r (List.mem_cons_of_mem _ hr)
      refine ⟨?_, ⟨_, _, rfl, rfl⟩, ?_, fun i a b ha hb => ?_⟩
      · simp only [partSpans, List.map_cons, hmap]
      · simp only [partSpans]
        rw [hfirst] at hlast ⊢
        rw [List.getLast?_cons_cons]
        exact hlast
      · simp only [partSpans] at ha hb
        cases i with
        | zero =>
          cases ha
          rw [List.getElem?_cons_succ, hfirst] at hb
          cases hb
          have hnextRows : first.rows = next := by
            rw [hfirst, List.map_cons] at hmap
            exact (List.cons.inj hmap).1
          obtain ⟨p, t, hp⟩ := List.exists_cons_of_ne_nil (hrows next (by simp))
          rw [hnextRows, hlo, hp]
          exact ⟨rfl, rfl⟩
        | succ i => exact hnext i a b (by simpa using ha) (by simpa using hb)

/-- A rewrite's parts: the fewest of at most 120 entries, the first ones larger by one, over the range's span. -/
theorem holdParts_spec (lo hi : Nat) {rows : Tbl HoldEntry} (hne : rows ≠ []) :
    let parts := holdParts lo hi rows
    parts.length = (rows.length + 119) / 120 ∧ (parts.flatMap fun a => a.rows) = rows ∧
      (∀ (i : Nat) (a : HoldPart), parts[i]? = some a →
        a.rows.length = rows.length / parts.length + (if i < rows.length % parts.length then 1 else 0)) ∧
      (∃ first rest, parts = first :: rest ∧ first.lo = lo) ∧ (parts.getLast?.map fun a => a.hi) = some hi ∧
      ∀ (i : Nat) (a b : HoldPart), parts[i]? = some a → parts[i + 1]? = some b →
        (b.rows.head?.map fun p => p.1) = some b.lo ∧ a.hi = b.lo - 1 := by
  intro parts
  let n := rows.length
  let k := (n + 119) / 120
  let l := divide (n / k) k (n % k) rows
  have hn : 0 < n := List.length_pos_of_ne_nil hne
  have hk : 0 < k := Nat.div_pos (by omega) (by decide)
  have hkn : k ≤ n := by
    have := Nat.div_le_of_le_mul (show n + 119 ≤ 120 * n by omega)
    exact this
  have hparts : parts = partSpans hi lo l := if_neg (show n ≠ 0 by omega)
  obtain ⟨hcount, hflat, hsizes⟩ := divide_spec (n / k) (k := k) (extra := n % k) (l := rows) (Nat.le_of_lt (Nat.mod_lt _ hk))
    (Nat.div_add_mod n k).symm
  have hsome : ∀ part ∈ l, part ≠ [] := by
    intro part hpart hempty
    obtain ⟨i, hi⟩ := List.mem_iff_getElem?.mp hpart
    have hsize := hsizes i part hi
    have hdiv : 0 < n / k := Nat.div_pos hkn hk
    rw [hempty, List.length_nil] at hsize
    omega
  have hlne : l ≠ [] := fun h => by
    rw [show divide (n / k) k (n % k) rows = l from rfl, h] at hcount
    simp at hcount
    omega
  obtain ⟨hmap, hfirst, hlast, hnext⟩ := partSpans_spec hi lo hlne hsome
  rw [← hparts] at hmap hfirst hlast hnext
  have hlength : parts.length = k := by rw [← hcount, ← List.length_map (f := fun a : HoldPart => a.rows), hmap]
  refine ⟨hlength, ?_, fun i a ha => ?_, hfirst, hlast, hnext⟩
  · rw [List.flatMap_def, hmap]
    exact hflat
  · rw [hlength]
    refine hsizes i a.rows ?_
    have hget := congrArg (fun t : List (Tbl HoldEntry) => t[i]?) hmap
    rw [List.getElem?_map, ha] at hget
    exact hget.symm

/-! ## The requests answered -/

/-- Every request of an id is ended. -/
def Port.Ended (p : Port) (id : Nat) : Prop := ∀ q ∈ p.reqs, q.id = id → q.phase = .ended

theorem Port.offer_ended (p : Port) (r : Req) (resp : Response) : (p.offer r resp).Ended r.id := by
  unfold Port.offer
  split
  · exact fun q hq hid => absurd hid (by simpa using (List.mem_filter.mp hq).2)
  · split
    · exact fun q hq hid => absurd hid (by simpa using (List.mem_filter.mp hq).2)
    · intro q hq hid
      obtain ⟨q', -, rfl⟩ := List.mem_map.mp hq
      dsimp only at hid ⊢
      split at hid
      · next h => rw [if_pos h]
      · next h => exact absurd (decide_eq_true hid) h

theorem Port.Ended.offer {p : Port} {id : Nat} (h : p.Ended id) (r : Req) (resp : Response) : (p.offer r resp).Ended id := by
  unfold Port.offer
  split
  · exact fun q hq => h q (List.mem_filter.mp hq).1
  · split
    · exact fun q hq => h q (List.mem_filter.mp hq).1
    · intro q hq hid
      obtain ⟨q', hq', rfl⟩ := List.mem_map.mp hq
      dsimp only at hid ⊢
      split at hid
      · next hr => rw [if_pos hr]
      · next hr =>
        rw [if_neg hr]
        exact h q' hq' hid

/-- A request answered has ended, and so has every one that had. -/
theorem Works.reply_ended (w : Works) (id : Nat) (v : Verdict) (reason : Option Reason) (res : Result) (e : Bool) :
    (w.reply id v reason res e).port.Ended id ∧ ∀ j, w.port.Ended j → (w.reply id v reason res e).port.Ended j := by
  unfold Works.reply
  split
  · next h =>
    refine ⟨fun q hq hid => ?_, fun j hj => hj⟩
    exact absurd (List.find?_eq_none.mp h q hq) (by simp [hid])
  · next r h =>
    have hid : r.id = id := by simpa using List.find?_some h
    subst hid
    exact ⟨w.port.offer_ended r _, fun j hj => hj.offer r _⟩

/-- Requests answered one after another by steps that each answer one: only the port changes, and each has ended. -/
theorem Works.foldl_answers {α : Type} {f : Works → α → Works} {g : α → Nat}
    (hport : ∀ w a, f w a = { w with port := (f w a).port })
    (hended : ∀ w a, (f w a).port.Ended (g a) ∧ ∀ j, w.port.Ended j → (f w a).port.Ended j) (l : List α) (w : Works) :
    l.foldl f w = { w with port := (l.foldl f w).port } ∧ (∀ j, w.port.Ended j → (l.foldl f w).port.Ended j) ∧
      ∀ a ∈ l, (l.foldl f w).port.Ended (g a) := by
  induction l generalizing w with
  | nil => exact ⟨rfl, fun _ h => h, fun _ h => by cases h⟩
  | cons a l ih =>
    obtain ⟨heq, hkeeps, hall⟩ := ih (f w a)
    rw [List.foldl_cons]
    refine ⟨?_, fun j hj => hkeeps j ((hended w a).2 j hj), fun b hb => ?_⟩
    · rw [heq, hport w a]
    · rcases List.mem_cons.mp hb with rfl | hb
      · exact hkeeps _ (hended w b).1
      · exact hall b hb

/-! ## A void mark asked and an image posted -/

/-- A void mark asked changes the consequences, the numbering and the array, the array by what it held and the next number alone. -/
theorem Works.voidMark_frame (w : Works) (a : SlotAddr) (who : VoidOwner) :
    (∃ more serial array, w.voidMark a who = { w with tasks := w.tasks ++ more, serial := serial, array := array }) ∧
      ∀ v : Works, v.array = w.array → v.serial = w.serial → (v.voidMark a who).array = (w.voidMark a who).array := by
  constructor
  · unfold Works.voidMark
    dsimp only
    split
    · exact ⟨[], w.serial, _, by rw [List.append_nil]; rfl⟩
    · split
      · exact ⟨[], w.serial, _, by rw [List.append_nil]; rfl⟩
      · split
        · exact ⟨[.grant a.ch], w.serial + 1, _, rfl⟩
        · exact ⟨[.voidDone who a], w.serial, w.array, rfl⟩
  · intro v harray hserial
    have hchan : v.chan a.ch = w.chan a.ch := by rw [Works.chan, harray]; rfl
    simp only [Works.voidMark, hchan]
    split
    · simp only [Works.mapChan, harray]
    · split
      · simp only [Works.mapChan, harray]
      · split
        · simp only [Works.askOp, Works.next, Works.mapChan, Works.task, harray, hserial]
        · exact harray

theorem Works.admitList_congr (l : List Post) {v w : Works} (h : v.array = w.array) : (v.admitList l).array = (w.admitList l).array := by
  induction l generalizing v w with
  | nil => exact h
  | cons p l ih =>
    unfold Works.admitList
    rw [h]
    split
    · exact ih rfl
    · exact ih h

/-- An image posted changes the consequences, the numbering and the array, the array by what it held and the next number alone. -/
theorem Works.post_frame (w : Works) (image : Bytes) (kind : SheetKind) (poster : Poster) :
    (∃ more serial array, w.post image kind poster = { w with tasks := w.tasks ++ more, serial := serial, array := array }) ∧
      ∀ v : Works, v.array = w.array → v.serial = w.serial → (v.post image kind poster).array = (w.post image kind poster).array := by
  constructor
  · obtain ⟨⟨more, posting, offered, heq⟩, -⟩ := Works.admitList_frame ({ w with serial := w.serial + 1, array := { w.array with
      offered := w.array.offered ++ [⟨w.serial, image, kind, poster, none, false⟩] } } : Works)
        (w.array.offered ++ [⟨w.serial, image, kind, poster, none, false⟩])
    exact ⟨more, w.serial + 1, _, heq⟩
  · intro v harray hserial
    simp only [Works.post, Works.next, Works.takeIn, harray, hserial]
    exact Works.admitList_congr _ rfl

/-! ## The rewrites (R148) -/

/-- The ranges, those of a lowest account changed. -/
def Retention.rangesAt (t : Retention) (lo : Nat) (f : HoldRange → HoldRange) : List HoldRange := t.ranges.map fun a => if a.lo = lo then f a else a

theorem Works.mapRange_eq (w : Works) (lo : Nat) (f : HoldRange → HoldRange) :
    w.mapRange lo f = { w with retention := { w.retention with ranges := w.retention.rangesAt lo f } } := by
  simp only [Works.mapRange, Works.mapRetention, updateWhere, Retention.rangesAt, decide_eq_true_eq]

/-- Changes of the ranges of a lowest account, one after another. -/
theorem Retention.rangesAt_rangesAt (t : Retention) (lo : Nat) {f g : HoldRange → HoldRange} (hlo : ∀ a, (f a).lo = a.lo) :
    ({ t with ranges := t.rangesAt lo f } : Retention).rangesAt lo g = t.rangesAt lo fun a => g (f a) := by
  simp only [Retention.rangesAt, List.map_map]
  refine List.map_congr_left fun a _ => ?_
  by_cases ha : a.lo = lo
  · simp [ha, hlo]
  · simp [ha]

/-- A part posted under the next generation. -/
theorem Works.postHold_frame (w : Works) (lo serial : Nat) (p : HoldPart) :
    let g := w.retention.lastGeneration + 1
    let t := w.postHold lo serial p
    t.retention = { w.retention with lastGeneration := g, ranges := w.retention.rangesAt lo fun r =>
        { r with rewrite := r.rewrite.map fun v => { v with posted := some (p.lo, p.hi, g) } } } ∧
      t.array = (w.post (holdImage p g) .hold (.hold serial)).array ∧ t.port = w.port := by
  intro g t
  let u : Works := { w with retention := { w.retention with lastGeneration := g, ranges := w.retention.rangesAt lo fun r =>
        { r with rewrite := r.rewrite.map fun v => { v with posted := some (p.lo, p.hi, g) } } } }
  have ht : t = u.post (holdImage p g) .hold (.hold serial) := by
    simp only [t, Works.postHold, Works.mapRange_eq]
    rfl
  obtain ⟨⟨more, n, array, heq⟩, -⟩ := u.post_frame (holdImage p g) .hold (.hold serial)
  refine ⟨?_, ?_, ?_⟩
  · rw [ht, heq]
  · rw [ht]
    exact (w.post_frame (holdImage p g) .hold (.hold serial)).2 u rfl rfl
  · rw [ht, heq]

/-- A rewrite's start once it is due: the requests taken and refused, and what follows. -/
theorem Works.holdStart_eq {w : Works} {r : HoldRange} (hr : w.retention.ranges.find? (fun a => decide (a.lo = r.lo)) = some r)
    (hidle : r.rewrite = none) (hdue : r.wait ≠ [] ∨ r.owed = true) :
    let settled := r.wait.zip (holdFates w.retention.holds r.wait)
    let rows := (applyReleases w.retention.holds (holdsTaken settled)).filter fun p => r.has p.1
    let parts := holdParts r.lo r.hi rows
    let refused := (holdsRefused settled).foldl (fun w q => w.refuse q.req .state) ({ w with serial := w.serial + 1 } : Works)
    let v : Works := { refused with retention := { w.retention with ranges := w.retention.rangesAt r.lo fun a =>
      { a with wait := [], owed := false, rewrite := some ⟨w.serial, holdsTaken settled, parts.tail, none, []⟩ } } }
    w.holdStart r.lo = match parts with
      | p :: _ => v.postHold r.lo w.serial p
      | [] =>
        match r.sheet with
        | some (s, _) => v.voidMark s (.holdEmpty w.serial)
        | none => v.task (.holdEnd w.serial) := by
  intro settled rows parts refused v
  have hopen : ¬ (r.rewrite.isSome = true ∨ (r.wait = [] ∧ (!r.owed) = true)) := by
    rw [hidle]
    rintro (h | ⟨hw, ho⟩)
    · cases h
    · exact hdue.elim (fun h => h hw) fun h => by simp [h] at ho
  obtain ⟨hframe, -⟩ := Works.foldl_answers (f := fun w (q : HoldReq) => w.refuse q.req .state) (g := fun q => q.req)
    (fun w q => Works.reply_port ..) (fun w q => Works.reply_ended ..) (holdsRefused settled) ({ w with serial := w.serial + 1 } : Works)
  have hrefused : refused = { w with serial := w.serial + 1, port := refused.port } := hframe
  have hret : refused.retention = w.retention := by rw [hrefused]
  simp only [Works.holdStart, hr, if_neg hopen, Works.next, settleReleases_eq, Works.mapRange_eq]
  rw [show (holdsRefused (r.wait.zip (holdFates w.retention.holds r.wait))).foldl (fun w q => w.refuse q.req .state)
    ({ w with serial := w.serial + 1 } : Works) = refused from rfl, hret] <;> rfl

/-- A posted part LIVE: the next one is posted, or the rewrite ends. -/
theorem Works.holdLive_eq {w : Works} {serial lo hi g : Nat} {slot : SlotAddr} {r : HoldRange} {v : Rewrite}
    (hr : w.retention.rewriting serial = some r) (hv : r.rewrite = some v) (hposted : v.posted = some (lo, hi, g)) :
    let u : Works := { w with retention := { w.retention with ranges := w.retention.rangesAt r.lo fun a =>
      { a with rewrite := some { v with sheets := v.sheets ++ [⟨lo, hi, slot, g⟩], posted := none, parts := v.parts.tail } } } }
    w.holdLive serial slot = match v.parts with
      | p :: _ => u.postHold r.lo serial p
      | [] => u.task (.holdEnd serial) := by
  simp only [Works.holdLive, hr, hv, hposted, Works.mapRange_eq] <;> rfl

/-! ## The end of a rewrite -/

theorem joinRange_append {r : HoldRange} (l : List HoldRange) (below : HoldRange) (rest : List HoldRange) (idle : HoldRange)
    (hidle : idle.lo = r.lo) (hbelow : below.lo ≠ r.lo) (hl : ∀ a ∈ l, a.lo ≠ r.lo) :
    joinRange r (l ++ below :: idle :: rest) =
      l ++ { below with hi := idle.hi, wait := below.wait ++ idle.wait, owed := below.owed || idle.owed } :: rest := by
  induction l with
  | nil =>
    rw [List.nil_append, joinRange, if_neg hbelow, if_pos hidle]
    rfl
  | cons a l ih =>
    obtain ⟨ha, hl⟩ := List.forall_mem_cons.mp hl
    have hih := ih hl
    cases l with
    | nil =>
      rw [List.cons_append, List.nil_append, joinRange, if_neg ha, if_neg hbelow]
      exact congrArg (a :: ·) hih
    | cons b l =>
      have hb : b.lo ≠ r.lo := hl b (by simp)
      rw [List.cons_append, List.cons_append, joinRange, if_neg ha, if_neg hb]
      exact congrArg (a :: ·) hih

/-- The ranges that a rewrite's end leaves. -/
def Retention.endedRanges (t : Retention) (r : HoldRange) (v : Rewrite) (holds : Tbl HoldEntry) : List HoldRange :=
  let idle : HoldRange := { r with rewrite := none, sheet := if v.sheets = [] then none else r.sheet }
  let ranges := t.ranges.flatMap fun a => if a.lo = r.lo then if v.sheets = [] then [idle] else splitRange r v.sheets else [a]
  if v.sheets.isEmpty && !(holds.any fun p => r.has p.1) then joinRange idle ranges else ranges

theorem Retention.endedRanges_eq {t : Retention} {r : HoldRange} {before after : List HoldRange} (hranges : t.ranges = before ++ r :: after)
    (hone : ∀ a ∈ before ++ after, a.lo ≠ r.lo) (v : Rewrite) (holds : Tbl HoldEntry) :
    let idle : HoldRange := { r with sheet := none, rewrite := none }
    (v.sheets ≠ [] → t.endedRanges r v holds = before ++ splitRange r v.sheets ++ after) ∧
    (v.sheets = [] → (∃ p ∈ holds, r.lo ≤ p.1 ∧ p.1 ≤ r.hi) → t.endedRanges r v holds = before ++ idle :: after) ∧
    (v.sheets = [] → (∀ p ∈ holds, ¬ (r.lo ≤ p.1 ∧ p.1 ≤ r.hi)) → t.endedRanges r v holds = joinRange idle (before ++ idle :: after)) := by
  intro idle
  have hkept : ∀ (l : List HoldRange) (m : List HoldRange), (∀ a ∈ l, a.lo ≠ r.lo) →
      (l.flatMap fun a => if a.lo = r.lo then m else [a]) = l := by
    intro l m hl
    induction l with
    | nil => rfl
    | cons a l ih =>
      obtain ⟨ha, hl⟩ := List.forall_mem_cons.mp hl
      rw [List.flatMap_cons, if_neg ha, ih hl]
      rfl
  have hflat : ∀ m : List HoldRange, (t.ranges.flatMap fun a => if a.lo = r.lo then m else [a]) = before ++ m ++ after := by
    intro m
    rw [hranges, List.flatMap_append, List.flatMap_cons, if_pos rfl, hkept before m fun a ha => hone a (List.mem_append_left _ ha),
      hkept after m fun a ha => hone a (List.mem_append_right _ ha), List.append_assoc]
  have hhas : (holds.any fun p => r.has p.1) = true ↔ ∃ p ∈ holds, r.lo ≤ p.1 ∧ p.1 ≤ r.hi := by
    simp [HoldRange.has]
  refine ⟨fun hs => ?_, fun hs hsome => ?_, fun hs hnone => ?_⟩
  · simp only [Retention.endedRanges, hs, if_false, hflat]
    rw [if_neg (by simp [hs])]
  · simp only [Retention.endedRanges, hs, if_true, hflat]
    rw [if_neg (by rw [hhas.mpr hsome]; simp), List.append_assoc]
    rfl
  · have hbare : (holds.any fun p => r.has p.1) = false := by
      rw [← Bool.not_eq_true]
      exact fun h => let ⟨p, hp, hin⟩ := hhas.mp h; hnone p hp hin
    simp only [Retention.endedRanges, hs, if_true, hflat]
    rw [if_pos (by rw [hbare]; rfl), List.append_assoc]
    rfl

/-- A rewrite's end by its steps: the table and the ranges, the previous sheet's void mark, the answers and the tests. -/
theorem Works.holdEnd_eq {w : Works} {serial : Nat} {r : HoldRange} {v : Rewrite} (hr : w.retention.rewriting serial = some r)
    (hv : r.rewrite = some v) :
    let holds := applyReleases w.retention.holds v.taken
    let ranges := w.retention.endedRanges r v holds
    let u : Works := { w with retention := { w.retention with holds := holds, ranges := ranges } }
    let marked := match r.sheet with | some (s, _) => u.voidMark s .untold | none => u
    w.holdEnd serial = (v.taken.foldl (fun w q => w.answerHold q) marked).addTasks (ranges.map fun a => Task.holdStart a.lo) := by
  simp only [Works.holdEnd, hr, hv] <;> rfl

/-! ## The Hold Table's requests (R149, R150, R152) -/

section
variable {ch : Fin 4} {s : State} {r : Req} {account : Nat} (ho : s.offers ch .retention r)
include ho

theorem exec_placeHold_of_offers {kind release : Nat} (hr : r.request = .placeHold account kind release) :
    exec (.placeHold ch) s = s.settled (s.works.placeHold s.ctx r account kind release) :=
  State.serve_some s ch .retention _ r _ ho.1 (by simp only [hr])

theorem exec_releaseHold_of_offers {kind : Nat} (hr : r.request = .releaseHold account kind) :
    exec (.releaseHold ch) s = s.settled (s.works.releaseHoldReq r account kind) :=
  State.serve_some s ch .retention _ r _ ho.1 (by simp only [hr])

theorem exec_holdState_of_offers (hr : r.request = .holdState account) :
    exec (.holdState ch) s = s.settled (s.works.holdState r account) :=
  State.serve_some s ch .retention _ r _ ho.1 (by simp only [hr])

end

theorem accountValid_iff (account : Nat) : accountValid account = true ↔ 1 ≤ account ∧ account ≤ 999999999999999 := by
  simp only [accountValid, Bool.and_eq_true, decide_eq_true_eq]
  exact Iff.rfl

/-- The kinds of a hold have the codes 1 and 2. -/
theorem HoldKind.ofCode_eq_none {kind : Nat} (h : ¬ (kind = 1 ∨ kind = 2)) : HoldKind.ofCode kind = none := by
  unfold HoldKind.ofCode
  split
  · exact absurd (.inl rfl) h
  · exact absurd (.inr rfl) h
  · rfl

theorem HoldKind.ofCode_eq_some {kind : Nat} (h : kind = 1 ∨ kind = 2) :
    HoldKind.ofCode kind = some (if kind = 1 then .dispute else .regulatory) := by
  rcases h with rfl | rfl
  · rfl
  · rfl

/-- A release day that a PLACE HOLD may carry. -/
theorem releaseBad_iff (x : Ctx) (k : HoldKind) (release : Nat) : releaseBad x k release = false ↔
    release = 65535 ∨ (k = .regulatory ∧ x.today < release ∧ release ≤ 49710) := by
  unfold releaseBad
  by_cases habsent : release = Config.absentDay
  · exact ⟨fun _ => .inl habsent, fun _ => if_pos habsent⟩
  · rw [if_neg habsent]
    cases k with
    | dispute => exact ⟨fun h => by simp at h, fun h => (h.elim habsent fun h => by simp at h).elim⟩
    | regulatory =>
      simp only [reduceCtorEq, decide_false, Bool.false_or, Bool.or_eq_false_iff, decide_eq_false_iff_not, Nat.not_le, Nat.not_lt, true_and]
      exact ⟨.inr, fun h => h.resolve_left habsent⟩

theorem HoldEntry.placed_alive (e : HoldEntry) (x : Ctx) (k : HoldKind) (release : Nat) : (e.placed x k release).alive = true := by
  cases k with
  | dispute => simp [HoldEntry.placed, HoldEntry.alive]
  | regulatory => simp [HoldEntry.placed, HoldEntry.alive]

/-- A hold request that joins its range and is taken. -/
theorem Works.joinWait_take {w : Works} {q : HoldReq} {a : HoldRange} (r : Req) (ha : w.retention.rangeOf q.account = some a) :
    (w.joinWait q).take r.id = { w with
      tasks := w.tasks ++ [.holdStart a.lo], port := w.port.taken r
      retention := { w.retention with ranges := w.retention.rangesAt a.lo fun b => { b with wait := b.wait ++ [q] } } } := by
  simp only [Works.joinWait, ha, Works.mapRange_eq]
  rw [Works.take_taken]
  rfl

/-- Settles O51: holds join their range's wait list, a rewrite takes and posts them, and its end applies and answers them. -/
theorem holdsJoinTheirRangeAndAreReported : Obligations.HoldsJoinTheirRangeAndAreReported := by
  refine ⟨fun ch s r account ho hq => ?requests, fun x w r hr => ?starts, fun x w serial slot r v lo hi g hr hv hposted => ?live,
    fun x w serial r v before after hr hv hranges hone => ?ends⟩
  case requests =>
    intro inRange today e joined
    have hvalid : accountValid account = true ↔ inRange := accountValid_iff account
    refine ⟨fun kind release hreq => ?place, fun kind hreq => ?release, fun hreq => ⟨fun h => ?_, fun h a ha => ?_⟩⟩
    case place =>
      intro fits full
      rw [exec_placeHold_of_offers ho hreq]
      by_cases hfits : fits
      · obtain ⟨hin, hoperands⟩ := hfits
        have hkind : kind = 1 ∨ kind = 2 := hoperands.imp And.left And.left
        let k : HoldKind := if kind = 1 then .dispute else .regulatory
        have hcode : HoldKind.ofCode kind = some k := HoldKind.ofCode_eq_some hkind
        have hrelease : releaseBad s.ctx k release = false := by
          refine (releaseBad_iff _ _ _).mpr ?_
          rcases hoperands with ⟨-, hr⟩ | ⟨hk, hr | ⟨hlow, hhigh⟩⟩
          · exact .inl hr
          · exact .inl hr
          · exact .inr ⟨by simp [k, hk], hlow, hhigh⟩
        have hgood : ¬ ((!accountValid account || releaseBad s.ctx k release) = true) := by
          rw [hrelease, hvalid.mpr hin]
          simp
        have hplace : s.works.placeHold s.ctx r account kind release =
            if (tblGet account s.works.retention.holds).isNone ∧ Config.holdTable ≤ s.works.retention.holds.length then
              s.works.refuse r.id .tableFull
            else if k = .dispute ∧ 255 ≤ e.disputes then s.works.refuse r.id .state
            else ((s.works.mapRetention fun t => { t with holds := putHold account (e.placed s.ctx k release) t.holds }).joinWait
              ⟨r.id, account, k, true⟩).take r.id := by
          simp only [Works.placeHold, hcode]
          exact if_neg hgood
        have hfull : ((tblGet account s.works.retention.holds).isNone = true ∧ Config.holdTable ≤ s.works.retention.holds.length) ↔ full := by
          rw [Option.isNone_iff_eq_none]
          exact Iff.rfl
        refine ⟨fun h => absurd ⟨hin, hoperands⟩ h, fun _ h => ?_, fun _ h hk hmany => ?_, fun _ h hfew a ha => ?_⟩
        · rw [hplace, if_pos (hfull.mpr h)]
          exact State.settled_refuse ho hq .tableFull
        · rw [hplace, if_neg (mt hfull.mp h), if_pos ⟨if_pos hk, hmany⟩]
          exact State.settled_refuse ho hq .state
        · have hroom : ¬ (k = .dispute ∧ 255 ≤ e.disputes) := by
            rintro ⟨hk, hmany⟩
            rcases hfew with h2 | h
            · simp [k, h2] at hk
            · omega
          refine ⟨tblPut account (e.placed s.ctx k release) s.works.retention.holds, ?_, fun other h => tblGet_put_other _ _ _ _ h, ?_⟩
          · rw [hplace, if_neg (mt hfull.mp h), if_neg hroom]
            refine congrArg s.settled ((Works.joinWait_take r ha).trans ?_)
            simp only [Works.mapRetention, putHold, HoldEntry.placed_alive, if_true, show s.works.tasks = [] from hq]
            rfl
          · rw [tblGet_put_self]
            refine congrArg some ?_
            rcases hkind with rfl | rfl
            · rfl
            · rfl
      · refine ⟨fun _ => ?_, fun h => absurd h hfits, fun h => absurd h hfits, fun h => absurd h hfits⟩
        refine Eq.trans (congrArg s.settled ?_) (State.settled_refuse ho hq .malformed)
        unfold Works.placeHold
        by_cases hkind : kind = 1 ∨ kind = 2
        · simp only [HoldKind.ofCode_eq_some hkind]
          refine if_pos ?_
          by_contra hgood
          rw [Bool.not_eq_true, Bool.or_eq_false_iff, Bool.not_eq_false', releaseBad_iff] at hgood
          obtain ⟨hin, hday⟩ := hgood
          refine hfits ⟨hvalid.mp hin, ?_⟩
          rcases hkind with rfl | rfl
          · exact .inl ⟨rfl, hday.elim id fun h => by simp at h⟩
          · exact .inr ⟨rfl, hday.imp_right And.right⟩
        · simp only [HoldKind.ofCode_eq_none hkind]
    case release =>
      refine ⟨fun h => ?_, fun h hkind a ha => ?_⟩
      · rw [exec_releaseHold_of_offers ho hreq]
        refine Eq.trans (congrArg s.settled ?_) (State.settled_refuse ho hq .malformed)
        unfold Works.releaseHoldReq
        by_cases hkind : kind = 1 ∨ kind = 2
        · simp only [HoldKind.ofCode_eq_some hkind]
          exact if_pos (by simpa using mt hvalid.mp fun hin => h ⟨hin, hkind⟩)
        · simp only [HoldKind.ofCode_eq_none hkind]
      · rw [exec_releaseHold_of_offers ho hreq]
        refine congrArg s.settled ?_
        simp only [Works.releaseHoldReq, HoldKind.ofCode_eq_some hkind]
        refine (if_neg (by simpa using hvalid.mpr h)).trans ((Works.joinWait_take r ha).trans ?_)
        rw [show s.works.tasks = [] from hq]
        rfl
    · rw [exec_holdState_of_offers ho hreq]
      exact (congrArg s.settled (if_pos (by simpa using mt hvalid.mp h))).trans (State.settled_refuse ho hq .malformed)
    · rw [exec_holdState_of_offers ho hreq]
      have hstate : s.works.holdState r account = _ := if_neg (by simpa using hvalid.mpr h)
      rw [hstate, ha]
      exact State.settled_done ho rfl hq _
  case starts =>
    intro t
    refine ⟨fun hidle => ?_, fun hidle hdue => ⟨holdFates w.retention.holds r.wait, length_holdFates _ _, ?due⟩⟩
    · show w.holdStart r.lo = w
      simp only [Works.holdStart, hr]
      exact if_pos (by simpa using hidle)
    case due =>
      intro settled accepted taken rows g begun rewritten
      have ht : t = _ := Works.holdStart_eq hr hidle hdue
      dsimp only at ht
      let refused := (holdsRefused settled).foldl (fun w q => w.refuse q.req .state) begun
      obtain ⟨hframe, -, hended⟩ := Works.foldl_answers (f := fun w (q : HoldReq) => w.refuse q.req .state) (g := fun q => q.req)
        (fun w q => Works.reply_port ..) (fun w q => Works.reply_ended ..) (holdsRefused settled) begun
      have hrefused : refused = { begun with port := refused.port } := hframe
      let v (rest : List HoldPart) : Works := { refused with retention := { w.retention with ranges := rewritten rest none } }
      have hv : ∀ rest, (v rest).array = begun.array ∧ (v rest).serial = begun.serial := fun rest =>
        ⟨(congrArg Works.array hrefused : _), (congrArg Works.serial hrefused : _)⟩
      have hnil : rows = [] → t = match r.sheet with
          | some (s, _) => (v []).voidMark s (.holdEmpty w.serial)
          | none => (v []).task (.holdEnd w.serial) := by
        intro hnone
        have hparts : holdParts r.lo r.hi rows = [] := by rw [hnone]; rfl
        rw [show holdParts r.lo r.hi ((applyReleases w.retention.holds (holdsTaken (r.wait.zip (holdFates w.retention.holds r.wait)))).filter
          fun p => r.has p.1) = [] from hparts] at ht
        exact ht
      have hcons : ∀ first rest, holdParts r.lo r.hi rows = first :: rest → t = (v rest).postHold r.lo w.serial first := by
        intro first rest hparts
        rw [show holdParts r.lo r.hi ((applyReleases w.retention.holds (holdsTaken (r.wait.zip (holdFates w.retention.holds r.wait)))).filter
          fun p => r.has p.1) = first :: rest from hparts] at ht
        exact ht
      have hport : t.port = refused.port := by
        cases hrows : rows with
        | nil =>
          rw [hnil hrows]
          split
          · obtain ⟨⟨more, n, array, hmark⟩, -⟩ := (v []).voidMark_frame _ (.holdEmpty w.serial)
            rw [hmark]
          · rfl
        | cons p l =>
          obtain ⟨-, -, -, ⟨first, rest, hparts, -⟩, -, -⟩ := holdParts_spec r.lo r.hi (rows := rows) (by rw [hrows]; simp)
          rw [hcons first rest hparts]
          exact ((v rest).postHold_frame r.lo w.serial first).2.2
      have hfates : ∀ (i : Nat) (q : HoldReq), r.wait[i]? = some q → _ := fun i q hq => holdFates_getElem (t := w.retention.holds) hq
      refine ⟨fun i q hq => ?_, fun p hp hno q hq hid => ?_, fun hall => ?_, fun q p hone hreq hid hheard hroom => ?_, fun hnone => ?_,
        fun hsome => ?_⟩
      · rw [hfates i q hq, acceptsRelease_eq]
        rfl
      · rw [hport] at hq
        exact hended p.1 (List.mem_map.mpr ⟨p, List.mem_filter.mpr ⟨hp, by rw [hno]; rfl⟩, rfl⟩) q hq hid
      · have hempty : holdsRefused settled = [] := by
          rw [holdsRefused, List.filter_eq_nil_iff.mpr fun p hp => by rw [hall p hp]; simp]
          rfl
        rw [hport]
        simp only [refused, hempty]
        rfl
      · have hlist : holdsRefused settled = [q] := by rw [hone]; rfl
        rw [hport]
        simp only [refused, hlist, List.foldl_cons, List.foldl_nil]
        exact congrArg Works.port (Works.reply_of_heard (w := begun) hreq hheard hroom .refused (some .state) .empty)
      · have hend := hnil hnone
        refine ⟨?_, fun p hp => ?_, fun hp => ?_⟩
        · rw [hend]
          split
          · obtain ⟨⟨more, n, array, hmark⟩, -⟩ := (v []).voidMark_frame _ (.holdEmpty w.serial)
            rw [hmark]
          · rfl
        · rw [hend, hp]
          exact (begun.voidMark_frame p.1 (.holdEmpty w.serial)).2 (v []) (hv []).1 (hv []).2
        · rw [hend, hp]
          exact ⟨(hv []).1, List.mem_append_right _ (List.mem_singleton.mpr rfl)⟩
      · obtain ⟨hlen, hflat, hsizes, ⟨first, rest, hparts, hlo⟩, hlast, hspans⟩ := holdParts_spec r.lo r.hi hsome
        have hbegin := hcons first rest hparts
        obtain ⟨hret, harray, -⟩ := (v rest).postHold_frame r.lo w.serial first
        rw [hparts] at hlen hflat hsizes hlast hspans
        refine ⟨first, rest, hlen, hflat, hsizes, hlo, hlast, hspans, ?_, ?_⟩
        · rw [hbegin, hret]
          refine congrArg (fun ranges => ({ w.retention with lastGeneration := g, ranges := ranges } : Retention)) ?_
          exact w.retention.rangesAt_rangesAt r.lo fun _ => rfl
        · rw [hbegin, harray]
          exact (begun.post_frame _ _ _).2 (v rest) (hv rest).1 (hv rest).2
  case live =>
    intro t next onto
    have ht : t = _ := Works.holdLive_eq (slot := slot) hr hv hposted
    refine ⟨fun hnone => ?_, fun p l hparts => ?_⟩
    · rw [hnone] at ht
      exact ht
    · rw [hparts] at ht
      let u : Works := { w with retention := { w.retention with ranges := onto l none } }
      have hu : t = u.postHold r.lo serial p := ht
      obtain ⟨hret, harray, -⟩ := u.postHold_frame r.lo serial p
      refine ⟨?_, ?_⟩
      · rw [hu, hret]
        refine congrArg (fun ranges => ({ w.retention with lastGeneration := next, ranges := ranges } : Retention)) ?_
        exact w.retention.rangesAt_rangesAt r.lo fun _ => rfl
      · rw [hu, harray]
        exact (w.post_frame _ _ _).2 u rfl rfl
  case ends =>
    intro t last parts
    let holds := applyReleases w.retention.holds v.taken
    let ranges := w.retention.endedRanges r v holds
    let u : Works := { w with retention := { w.retention with holds := holds, ranges := ranges } }
    let marked : Works := match r.sheet with | some (s, _) => u.voidMark s .untold | none => u
    have ht : t = (v.taken.foldl (fun w q => w.answerHold q) marked).addTasks (ranges.map fun a => Task.holdStart a.lo) :=
      Works.holdEnd_eq hr hv
    have hmarked : (∃ more serial array, marked = { u with tasks := u.tasks ++ more, serial := serial, array := array }) ∧
        marked.array = (match r.sheet with
          | some q => (w.voidMark q.1 .untold).array
          | none => w.array) := by
      simp only [marked]
      cases r.sheet with
      | none => exact ⟨⟨[], u.serial, u.array, by rw [List.append_nil]⟩, rfl⟩
      | some q => exact ⟨(u.voidMark_frame q.1 .untold).1, (w.voidMark_frame q.1 .untold).2 u rfl rfl⟩
    obtain ⟨⟨more, n, array, hframe⟩, harray⟩ := hmarked
    obtain ⟨hanswers, -, hended⟩ := Works.foldl_answers (f := fun w (q : HoldReq) => w.answerHold q) (g := fun q => q.req)
      (fun w q => Works.reply_port ..) (fun w q => Works.reply_ended ..) v.taken marked
    have hret : t.retention = u.retention := by
      rw [ht, hanswers, hframe]
      rfl
    obtain ⟨hsheets, hkept, hjoined⟩ := Retention.endedRanges_eq hranges hone v holds
    have hbefore : ∀ a ∈ before, a.lo ≠ r.lo := fun a ha => hone a (List.mem_append_left _ ha)
    refine ⟨by rw [hret], fun hs => ?_, fun hs hsome => ?_, fun hs hnone => ⟨fun below l hb => ?_, fun above l hb ha => ?_, fun hb ha => ?_⟩,
      fun a ha => ?_, ?_, fun q hq p hp hid => ?_, fun q p hone hreq hid hheard hroom => ?_⟩
    · rw [hret]
      exact hsheets hs
    · rw [hret]
      exact hkept hs hsome
    · rw [hret]
      refine (hjoined hs hnone).trans ?_
      rw [hb] at hbefore ⊢
      rw [List.append_assoc]
      exact joinRange_append l below after { r with sheet := none, rewrite := none } rfl (hbefore below (by simp))
        fun a ha => hbefore a (List.mem_append_left _ ha)
    · rw [hret]
      refine (hjoined hs hnone).trans ?_
      rw [hb, ha]
      exact if_pos rfl
    · rw [hret]
      refine (hjoined hs hnone).trans ?_
      rw [hb, ha]
      rfl
    · rw [ht]
      refine List.mem_append_right _ (List.mem_map.mpr ⟨a, ?_, rfl⟩)
      rw [hret] at ha
      exact ha
    · refine Eq.trans ?_ harray
      rw [ht, hanswers]
      rfl
    · rw [ht] at hp
      exact hended q hq p hp hid
    · have hmport : marked.port = w.port := by rw [hframe]
      have hreq' : marked.req q.req = some p := by rw [Works.req, hmport]; exact hreq
      let res : Result := if q.place then .hold (tblGet q.account marked.retention.holds) (marked.earliestHeld q.account)
        else .released (tblGet q.account marked.retention.holds)
      have hfold : v.taken.foldl (fun w q => w.answerHold q) marked = { marked with port := w.port.answered p .done none res } := by
        rw [hone, List.foldl_cons, List.foldl_nil, ← hmport]
        exact Works.reply_of_heard hreq' hheard (by rw [hmport]; exact hroom) _ _ _
      have htt : t = { marked with
          tasks := marked.tasks ++ ranges.map fun a => Task.holdStart a.lo, port := w.port.answered p .done none res } := by
        rw [ht, hfold]
        rfl
      rw [htt]
      rfl

end Sys2Proof.Machine
end

section
/-! SUPPORT. What the merge delay queues, and what a scan of the work queue makes of each item: passed over, dropped, or taken. -/

namespace Sys2Proof.Machine

/-! ## The merge schedule -/

/-- A schedule entry set is the one found, but for one that says nothing. -/
theorem Packer.schedOf_setSched (p : Packer) (m : MergeSched) :
    ((p.setSched m).schedOf m.day m.cls).held = m.held ∧ ((p.setSched m).schedOf m.day m.cls).askers = m.askers := by
  have hnone : (p.sched.filter fun n => !(decide (n.day = m.day) && decide (n.cls = m.cls))).find?
      (fun n => decide (n.day = m.day) && decide (n.cls = m.cls)) = none :=
    List.find?_eq_none.mpr fun n hn hc => by
      obtain ⟨-, hno⟩ := List.mem_filter.mp hn
      rw [hc] at hno
      exact Bool.noConfusion hno
  unfold Packer.setSched Packer.schedOf
  by_cases h : m.held = 0 ∧ m.rearm = none ∧ m.askers = []
  · simp only [if_pos h, hnone]
    obtain ⟨hheld, -, hask⟩ := h
    exact ⟨hheld.symm, hask.symm⟩
  · simp only [if_neg h, List.find?_append, hnone, List.find?_cons, decide_true, Bool.and_self]
    exact ⟨rfl, rfl⟩

/-- The schedule's entry of a (day, class) names them. -/
theorem Packer.schedOf_names (p : Packer) (d c : Nat) : (p.schedOf d c).day = d ∧ (p.schedOf d c).cls = c := by
  unfold Packer.schedOf
  cases h : p.sched.find? fun m => decide (m.day = d) && decide (m.cls = c) with
  | none => exact ⟨rfl, rfl⟩
  | some m => simpa using List.find?_some h

theorem Works.mapSched_held (w : Works) (d c : Nat) (f : MergeSched → MergeSched)
    (hd : ∀ m, (f m).day = m.day ∧ (f m).cls = m.cls) :
    ((w.mapSched d c f).packer.schedOf d c).held = (f (w.packer.schedOf d c)).held ∧
    ((w.mapSched d c f).packer.schedOf d c).askers = (f (w.packer.schedOf d c)).askers := by
  obtain ⟨hday, hcls⟩ := w.packer.schedOf_names d c
  obtain ⟨hfd, hfc⟩ := hd (w.packer.schedOf d c)
  have h := w.packer.schedOf_setSched (f (w.packer.schedOf d c))
  rwa [hfd, hfc, hday, hcls] at h

/-! ## An item considered -/

/-- What an item's own tests and the tests of the queue make of it, whatever follows it. -/
theorem Works.scanItems_cons (x : Ctx) (w : Works) (held : List Nat) (id : Nat) (l : List Nat) (i : Item) (hi : w.item id = some i) :
    w.scanItems x held (id :: l) =
      if i.inGroup then w.scanItems x held l
      else if Config.groups ≤ w.packer.groups.length then w
      else if i.channelWait.isSome || held.contains i.day || !((w.day i.day).any (·.grantsGroup)) then
        w.scanItems x (addNew i.day held) l
      else match w.testItem x i with
        | (.drop, w) => w.scanItems x held l
        | (.go, w) =>
          match w.item id with
          | none => w.scanItems x held l
          | some i =>
            let t := w.takeOf i
            if t.claims.all fun p => p.2.grants (.item i.id) t.any then (w.beginGroup i t).scanItems x held l
            else w.scanItems x held l := by
  rw [Works.scanItems, hi] <;> rfl

section
variable {x : Ctx} {w : Works} {held : List Nat} {id : Nat} {l : List Nat} {i : Item} {e : DayEntry}

/-- An item that is tested: WAITING, below the limit of groups, of a day that is not held back and grants a group. -/
structure Works.Tests (w : Works) (held : List Nat) (id : Nat) (i : Item) (e : DayEntry) : Prop where
  found : w.item id = some i
  waiting : i.inGroup = false
  room : w.packer.groups.length < 4
  noWait : i.channelWait = none
  notHeld : i.day ∉ held
  day : w.day i.day = some e
  grants : e.grantsGroup = true

theorem Works.Tests.scan (h : w.Tests held id i e) : w.scanItems x held (id :: l) = match w.testItem x i with
    | (.drop, w) => w.scanItems x held l
    | (.go, w) =>
      match w.item id with
      | none => w.scanItems x held l
      | some i =>
        let t := w.takeOf i
        if t.claims.all fun p => p.2.grants (.item i.id) t.any then (w.beginGroup i t).scanItems x held l
        else w.scanItems x held l := by
  have hroom : ¬ Config.groups ≤ w.packer.groups.length := Nat.not_le.mpr h.room
  have hpassed : (i.channelWait.isSome || held.contains i.day || !((w.day i.day).any (·.grantsGroup))) = false := by
    simp [h.noWait, h.notHeld, h.day, h.grants]
  rw [w.scanItems_cons x held id l i h.found, if_neg (by simp [h.waiting]), if_neg hroom, if_neg (fun hc => by rw [hpassed] at hc; exact Bool.noConfusion hc)]

theorem Works.Tests.drop (h : w.Tests held id i e) {t : Works} (ht : w.testItem x i = (.drop, t)) :
    w.scanItems x held (id :: l) = t.scanItems x held l := by
  rw [h.scan, ht]

/-- An item that passes its tests, `v` and `j` being the part and the item they leave: its claims decide. -/
theorem Works.Tests.go (h : w.Tests held id i e) {v : Works} {j : Item} (ht : w.testItem x i = (.go, v)) (hj : v.item id = some j) :
    ((∀ p ∈ (v.takeOf j).claims, (p.2.busy = none ∨ p.2.busy = some (.item id)) ∧ (p.2.quarantined = false ∨ (v.takeOf j).any = true)) →
      w.scanItems x held (id :: l) = (v.beginGroup j (v.takeOf j)).scanItems x held l) ∧
    ((∃ p ∈ (v.takeOf j).claims,
        ¬ ((p.2.busy = none ∨ p.2.busy = some (.item id)) ∧ (p.2.quarantined = false ∨ (v.takeOf j).any = true))) →
      w.scanItems x held (id :: l) = v.scanItems x held l) := by
  have hid : j.id = id := by simpa using List.find?_some hj
  have hgrants : ∀ p : Nat × Entry, p.2.grants (.item j.id) (v.takeOf j).any = true ↔
      (p.2.busy = none ∨ p.2.busy = some (.item id)) ∧ (p.2.quarantined = false ∨ (v.takeOf j).any = true) := fun p => by
    simp [Entry.grants, hid]
  rw [h.scan, ht]
  simp only [hj]
  refine ⟨fun hall => if_pos ?_, fun hex => if_neg ?_⟩
  · exact List.all_eq_true.mpr fun p hp => (hgrants p).mpr (hall p hp)
  · obtain ⟨p, hp, hno⟩ := hex
    exact fun hall => hno ((hgrants p).mp (List.all_eq_true.mp hall p hp))

end

/-! ## The beginning of a group -/

/-- Some images made the most recent ones leave the Packer as it is. -/
theorem Works.touches_packer (l : List Nat) (w : Works) : (l.foldl (fun u n => u.touch n) w).packer = w.packer := by
  induction l generalizing w with
  | nil => rfl
  | cons n l ih =>
    rw [List.foldl_cons, ih]
    unfold Works.touch
    split <;> rfl

/-- Some claims leave the Packer as it is. -/
theorem Works.claims_packer (d : Nat) (h : Holder) (l : List (Nat × Entry)) (w : Works) :
    (l.foldl (fun u p => u.claim d p.1 p.2.first h) w).packer = w.packer := by
  induction l generalizing w with
  | nil => rfl
  | cons p l ih => rw [List.foldl_cons, ih]; rfl

/-- The reads a group asks leave the Packer as it is. -/
theorem Works.groupAsks_packer (n : Nat) (l : List GroupRead) (w : Works) :
    (l.foldl (fun u r => match u.current r.ref with
      | some e => u.askRead e.slot (.group n r.ref)
      | none => u) w).packer = w.packer := by
  induction l generalizing w with
  | nil => rfl
  | cons r l ih =>
    rw [List.foldl_cons, ih]
    split
    · next e _ =>
      obtain ⟨tasks, serial, array, hask⟩ := w.askRead_frame e.slot (.group n r.ref)
      rw [hask]
    · rfl

/-- The group an item begins with what it takes. -/
def Works.groupOf (w : Works) (i : Item) (e : DayEntry) (t : Take) (phase : Phase) : Group :=
  { id := w.serial, item := i.id, day := i.day, number := e.group + 1, phase := phase,
    claimed := t.claims.map fun p => (p.1, p.2.first), reads := t.reads, merging := t.merging, heldBack := t.heldBack,
    todo := [], current := none, coalescing := none, packed := [], outputs := [], posted := 0, retiring := t.retiring,
    ranges := t.ranges, amounts := .zero }

/-- The part with a group begun in a phase, before its reads are asked. -/
def Works.begun (w : Works) (i : Item) (e : DayEntry) (t : Take) (phase : Phase) : Works :=
  let u := t.served.foldl (fun u n => u.touch n) { w with serial := w.serial + 1 }
  let u := t.claims.foldl (fun u p => u.claim i.day p.1 p.2.first (.item i.id)) u
  { u with
    days := tblModify i.day (fun e => { e with inProgress := some (i.id, i.work.kind) }) u.days
    packer := { u.packer with
      queue := w.packer.queue.map fun j => if j.id = i.id then { j with inGroup := true } else j
      groups := w.packer.groups ++ [w.groupOf i e t phase] } }

/-- The reads of a group asked. -/
def Works.groupAsks (w : Works) (n : Nat) (reads : List GroupRead) : Works :=
  (reads.filter fun r => r.image.isNone).foldl (fun u r =>
    match u.current r.ref with
    | some e => u.askRead e.slot (.group n r.ref)
    | none => u) w

/-- The phase a group begins in. -/
def phaseOf (reads : List GroupRead) : Phase := if reads.all (fun r => r.image.isSome) then .packing else .reading

/-- The group begun is the last one, whatever phase it is in. -/
theorem Works.begun_packer (w : Works) (i : Item) (e : DayEntry) (t : Take) (phase : Phase) :
    (w.begun i e t phase).packer = { w.packer with
      queue := w.packer.queue.map fun j => if j.id = i.id then { j with inGroup := true } else j
      groups := w.packer.groups ++ [w.groupOf i e t phase] } := by
  unfold Works.begun
  simp only [Works.claims_packer, Works.touches_packer]

/-- A group begun, its number new: its claims set, its reads asked, in PACKING when none is. -/
theorem Works.beginGroup_eq {w : Works} {i : Item} {e : DayEntry} (t : Take) (hday : w.day i.day = some e)
    (hnew : ∀ g ∈ w.packer.groups, g.id ≠ w.serial) :
    w.beginGroup i t = (w.begun i e t (phaseOf t.reads)).groupAsks w.serial t.reads := by
  have hstart : w.beginGroup i t = ((w.begun i e t .reading).groupAsks w.serial t.reads).groupReads w.serial := by
    unfold Works.beginGroup Works.begun
    simp only [hday, Works.claims_packer, Works.touches_packer, Works.next, Works.mapItem, Works.mapDay, updateWhere, decide_eq_true_eq]
    rfl
  have hgroups : ∀ phase, ((w.begun i e t phase).groupAsks w.serial t.reads).group w.serial = some (w.groupOf i e t phase) := fun phase => by
    have hold : w.packer.groups.find? (fun g => decide (g.id = w.serial)) = none :=
      List.find?_eq_none.mpr fun g hg h => hnew g hg (of_decide_eq_true h)
    unfold Works.group Works.groupAsks
    rw [Works.groupAsks_packer, w.begun_packer]
    simp only [List.find?_append, hold]
    exact List.find?_cons_of_pos (p := fun g : Group => decide (g.id = w.serial)) (decide_eq_true rfl)
  rw [hstart, Works.groupReads, hgroups]
  by_cases hall : (t.reads.all fun r => r.image.isSome) = true
  · have hnone : (t.reads.filter fun r => r.image.isNone) = [] := List.filter_eq_nil_iff.mpr fun r hr h => by
      have hsome : r.image.isSome = true := List.all_eq_true.mp hall r hr
      cases himage : r.image with
      | none => rw [himage] at hsome; exact Bool.noConfusion hsome
      | some _ => rw [himage] at h; exact Bool.noConfusion h
    have hasks : ∀ phase, (w.begun i e t phase).groupAsks w.serial t.reads = w.begun i e t phase := fun phase => by
      rw [Works.groupAsks, hnone]
      rfl
    have hgroups : updateWhere (fun g : Group => decide (g.id = w.serial)) (fun g => { g with phase := .packing })
        (w.packer.groups ++ [w.groupOf i e t .reading]) = w.packer.groups ++ [w.groupOf i e t .packing] := by
      have hkeep : updateWhere (fun g : Group => decide (g.id = w.serial)) (fun g => { g with phase := .packing }) w.packer.groups =
          w.packer.groups := (List.map_congr_left fun g hg => if_neg fun h => hnew g hg (of_decide_eq_true h)).trans (List.map_id _)
      refine (List.map_append).trans (congrArg₂ (· ++ ·) hkeep ?_)
      exact congrArg (fun g => [g]) (if_pos (decide_eq_true (rfl : w.serial = w.serial)))
    rw [show phaseOf t.reads = .packing from if_pos hall, hasks, hasks]
    refine ((if_neg fun h => h rfl).trans (if_pos hall)).trans ?_
    exact congrArg (fun gs => { w.begun i e t .reading with packer := { (w.begun i e t .reading).packer with groups := gs } }) hgroups
  · have hphase : phaseOf t.reads = .reading := if_neg hall
    rw [hphase]
    exact (if_neg (fun h => h rfl)).trans (if_neg hall)

/-! ## What an item dropped leaves -/

/-- A restore that fails changes its file and may raise its notice. -/
theorem Works.restoreFailed_frame (x : Ctx) (w : Works) (slot : Nat) :
    ∃ intake port, w.restoreFailed x slot = { w with intake := intake, port := port } := by
  unfold Works.restoreFailed
  split
  · exact ⟨_, _, rfl⟩
  · rw [Works.fileNotice, Works.notice_eq]
    exact ⟨_, _, rfl⟩

section
variable (x : Ctx) (w : Works) (i : Item)

/-- An item dropped leaves the queue, and a scan follows. -/
theorem Works.dropItem_drops : (w.dropItem x i).packer.queue = w.packer.queue.filter (fun j => decide (j.id ≠ i.id)) ∧
    .scan ∈ (w.dropItem x i).tasks ∧ (w.dropItem x i).amend = w.amend ∧ ∀ k ∈ w.tasks, k ∈ (w.dropItem x i).tasks := by
  have hleft : ∀ k ∈ w.tasks ++ [Task.scan], k ∈ ((w.itemLeaves i.id).task .scan).tasks := fun k hk => by
    have htasks : ((w.itemLeaves i.id).task .scan).tasks = w.tasks ++ w.packer.noted.map (fun a => Task.ask a) ++ [.scan] := rfl
    rw [htasks]
    simp only [List.mem_append] at hk ⊢
    exact hk.imp .inl id
  have hscan : Task.scan ∈ w.tasks ++ [Task.scan] := List.mem_append.mpr (.inr (List.mem_singleton.mpr rfl))
  have hkeep : ∀ k ∈ w.tasks, k ∈ w.tasks ++ [Task.scan] := fun k hk => List.mem_append.mpr (.inl hk)
  unfold Works.dropItem
  split
  · exact ⟨rfl, List.mem_append.mpr (.inl (hleft _ hscan)), rfl, fun k hk => List.mem_append.mpr (.inl (hleft k (hkeep k hk)))⟩
  · next slot _ _ _ =>
    obtain ⟨intake, port, hfailed⟩ := ((w.itemLeaves i.id).task .scan).restoreFailed_frame x slot
    rw [hfailed]
    exact ⟨rfl, hleft _ hscan, rfl, fun k hk => hleft k (hkeep k hk)⟩
  · exact ⟨rfl, hleft _ hscan, rfl, fun k hk => hleft k (hkeep k hk)⟩

/-- A MERGE dropped: those who asked are told, and its (day, class) is blocked by the late records it has. -/
theorem Works.dropItem_merge {c : Nat} (h : i.work = .merge c) : (∀ ch ∈ i.askers, .mergeTold ch ∈ (w.dropItem x i).tasks) ∧
    ((w.dropItem x i).packer.schedOf i.day c).held = (w.intake.lateOf i.day c).length := by
  have hdrop : w.dropItem x i = (((w.itemLeaves i.id).task .scan).mapSched i.day c
      fun m => { m with held := (w.intake.lateOf i.day c).length, rearm := none }).addTasks
        (i.askers.map (fun ch => Task.mergeTold ch) ++ [.mergeTest i.day c]) := by
    unfold Works.dropItem
    simp only [h]
    rfl
  rw [hdrop]
  refine ⟨fun ch hch => List.mem_append.mpr (.inr (List.mem_append.mpr (.inl (List.mem_map_of_mem hch)))), ?_⟩
  exact (Works.mapSched_held _ _ _ (fun m => { m with held := (w.intake.lateOf i.day c).length, rearm := none })
    fun _ => ⟨rfl, rfl⟩).1

/-- A RESTORE dropped: its file is DISCREPANT, without its set. -/
theorem Works.dropItem_restore {slot cls : Nat} {first : Key} {f : File} (h : i.work = .restore slot cls first)
    (hf : w.file slot = some f) :
    ∃ g, (w.dropItem x i).file slot = some g ∧ g.state = .discrepant ∧ g.restoreSet = [] := by
  have hdrop : w.dropItem x i = ((w.itemLeaves i.id).task .scan).restoreFailed x slot := by
    unfold Works.dropItem
    simp only [h]
  have hfile : ((w.itemLeaves i.id).task .scan).file slot = some f := hf
  rw [hdrop, Works.restoreFailed, hfile]
  simp only [Works.fileNotice, Works.notice_eq]
  exact ⟨_, Works.file_setFile _ _ _, rfl, rfl⟩

end

/-! ## The merge delay -/

theorem Works.mergeTest_due {x : Ctx} {w : Works} {d c : Nat} {t : Nat} {e : DayEntry} (ht : w.mergeExpiry x d c = some t)
    (hclock : t ≤ x.clock) (hday : w.day d = some e) (hclosed : e.state = .closed) (hlate : w.intake.lateOf d c ≠ [])
    (hnone : w.packer.waitingMerge d c = none) : w.mergeDue x d c = true := by
  have hpos : 0 < (w.intake.lateOf d c).length := List.length_pos_of_ne_nil hlate
  simp [Works.mergeDue, hday, hclosed, hnone, ht, hclock, hpos]

/-- A due MERGE queued with those who asked for it. -/
theorem Works.mergeTest_queues {x : Ctx} {w : Works} {d c : Nat} (hdue : w.mergeDue x d c = true)
    (hroom : w.packer.queue.length < Config.packerQueue) :
    ∃ packer, w.mergeTest x d c = { w with serial := w.serial + 1, packer := packer, tasks := w.tasks ++ [.scan] } ∧
      packer.groups = w.packer.groups ∧ (packer.schedOf d c).askers = [] ∧
      packer.queue = w.packer.queue ++ [⟨w.serial, d, .merge c, (w.packer.schedOf d c).askers, false, none⟩] := by
  have hpush : ∃ u, w.pushItem d (.merge c) (w.packer.schedOf d c).askers = some (w.serial, u) ∧
      u = { w with serial := w.serial + 1,
                   packer := { w.packer with
                     queue := w.packer.queue ++ [⟨w.serial, d, .merge c, (w.packer.schedOf d c).askers, false, none⟩] }
                   tasks := w.tasks ++ [.scan] } := ⟨_, if_pos hroom, rfl⟩
  obtain ⟨u, hpush, rfl⟩ := hpush
  rw [Works.mergeTest, if_pos hdue, hpush]
  exact ⟨_, rfl, rfl, (Works.mapSched_held _ d c (fun m => { m with askers := [] }) fun _ => ⟨rfl, rfl⟩).2, rfl⟩

/-! ## What an item takes -/

section
variable {x : Ctx} {w : Works} {held : List Nat} {id : Nat} {l : List Nat} {i : Item} {e : DayEntry}

/-- An item that passes its tests begins its group when every claim is free, and keeps its place when one is not. -/
theorem Works.Tests.tried (h : w.Tests held id i e) {v : Works} {j : Item} {t : Take} (ht : w.testItem x i = (.go, v))
    (hj : v.item id = some j) (htake : v.takeOf j = t) (hday : v.day j.day = some e) (hnew : ∀ g ∈ v.packer.groups, g.id ≠ v.serial) :
    ((∀ p ∈ t.claims, (p.2.busy = none ∨ p.2.busy = some (.item id)) ∧ (p.2.quarantined = false ∨ t.any = true)) →
      w.scanItems x held (id :: l) =
        ((v.begun j e t (phaseOf t.reads)).groupAsks v.serial t.reads).scanItems x held l) ∧
    ((∃ p ∈ t.claims, ¬ ((p.2.busy = none ∨ p.2.busy = some (.item id)) ∧ (p.2.quarantined = false ∨ t.any = true))) →
      w.scanItems x held (id :: l) = v.scanItems x held l) := by
  subst htake
  rw [← Works.beginGroup_eq (v.takeOf j) hday hnew]
  exact h.go ht hj

/-- A drop of the item, as the part after it says. -/
theorem Works.Tests.dropped (h : w.Tests held id i e) {u t : Works} (ht : w.testItem x i = (.drop, t))
    (hqueue : u.packer.queue.filter (fun j => decide (j.id ≠ id)) = w.packer.queue.filter (fun j => decide (j.id ≠ id)))
    (htq : t.packer.queue = (u.dropItem x i).packer.queue) (htasks : ∀ k ∈ (u.dropItem x i).tasks, k ∈ t.tasks) :
    w.scanItems x held (id :: l) = t.scanItems x held l ∧
    t.packer.queue = w.packer.queue.filter (fun j => decide (j.id ≠ id)) ∧ .scan ∈ t.tasks := by
  have hid : i.id = id := by simpa using List.find?_some h.found
  obtain ⟨hleft, hscan, -, -⟩ := u.dropItem_drops x i
  rw [hid] at hleft
  exact ⟨h.drop ht, htq.trans (hleft.trans hqueue), htasks _ hscan⟩

end

section
variable {x : Ctx} {w : Works} {held : List Nat} {id : Nat} {l : List Nat} {i : Item} {e : DayEntry}

/-- An item dropped with a report of its sheet. -/
theorem Works.Tests.drops (h : w.Tests held id i e) {k : Task} (ht : w.testItem x i = (.drop, (w.dropItem x i).task k)) :
    ∃ t : Works, (w.scanItems x held (id :: l) = t.scanItems x held l ∧
      t.packer.queue = w.packer.queue.filter (fun j => decide (j.id ≠ id)) ∧ .scan ∈ t.tasks) ∧ k ∈ t.tasks :=
  ⟨_, h.dropped (u := w) ht rfl rfl (fun _ hk => List.mem_append.mpr (.inl hk)), List.mem_append.mpr (.inr (List.mem_singleton.mpr rfl))⟩

/-- An APPLY dropped: its entries leave the Pending Amendment Set in the drop itself. -/
theorem Works.Tests.dropsApply (h : w.Tests held id i e) {ch : Fin 4} {k : Task}
    (ht : w.testItem x i = (.drop, ((w.dropPending ch).task k).dropItem x i)) :
    ∃ t : Works, (w.scanItems x held (id :: l) = t.scanItems x held l ∧
      t.packer.queue = w.packer.queue.filter (fun j => decide (j.id ≠ id)) ∧ .scan ∈ t.tasks) ∧
      t.amend.pending = w.amend.pending.filter (fun p => decide (p.ch ≠ ch)) ∧ k ∈ t.tasks := by
  obtain ⟨-, -, hamend, hkeep⟩ := ((w.dropPending ch).task k).dropItem_drops x i
  exact ⟨_, h.dropped (u := (w.dropPending ch).task k) ht rfl rfl (fun _ hk => hk), (by rw [hamend]; rfl),
    hkeep _ (List.mem_append.mpr (.inr (List.mem_singleton.mpr rfl)))⟩

end

/-- The take of a MERGE of a day that stands. -/
theorem Works.mergeTake_of_live {w : Works} {d : Nat} {e : DayEntry} (h : w.liveDay d = some e) (c : Nat) :
    w.mergeTake d c =
      let late := (w.mergeable d c).1
      let cover := (late.filterMap fun r => coveringEntry (e.runEntries c) r.call.key).eraseDups
      let others := late.flatMap fun r => (w.accountEntries d r.call.account).map fun p => p.2.ref d p.1
      { claims := cover.map fun n => (c, n), any := false,
        reads := (cover.map (fun n => n.ref d c) ++ others).eraseDups.map fun r => ⟨r, none⟩,
        merging := late.map fun r => (r, .inserted), heldBack := (w.mergeable d c).2, retiring := [], ranges := [], served := [] } := by
  unfold Works.mergeTake
  simp only [h, Option.map_some, Option.getD_some]

/-- The sheets of a RETIRE that the tests leave it. -/
def Works.retireLeft (w : Works) (refs : List SheetRef) : List SheetRef :=
  let lost := refs.filter fun r => (w.current r).isNone
  let pend := refs.filter fun r => (w.current r).any fun n => w.pendingIn r.day n.first n.last
  refs.filter fun r => decide (r ∉ lost) && decide (r ∉ pend)

/-- The withdrawals of a RETIRE. -/
def Works.retireReports (w : Works) (refs : List SheetRef) : List Task :=
  (refs.filter fun r => (w.current r).isNone).map (fun r => Task.reported r .undecided) ++
    (refs.filter fun r => (w.current r).any fun n => w.pendingIn r.day n.first n.last).map fun r => Task.reported r .pending

/-- The part with the sheets of a RETIRE that are not to be retired withdrawn. -/
def Works.withdrawn (w : Works) (id : Nat) (refs : List SheetRef) : Works :=
  { w with
    tasks := w.tasks ++ w.retireReports refs
    packer := { w.packer with
      queue := w.packer.queue.map fun j => if j.id = id then { j with work := .retire (w.retireLeft refs) } else j } }

theorem Works.testItem_retire (x : Ctx) (w : Works) (i : Item) {refs : List SheetRef} (h : i.work = .retire refs) :
    w.testItem x i = if w.retireLeft refs = [] then (.drop, (w.withdrawn i.id refs).dropItem x i) else (.go, w.withdrawn i.id refs) := by
  unfold Works.testItem
  simp only [h, Works.mapItem, updateWhere, decide_eq_true_eq, List.contains_eq_mem, ← decide_not]
  rfl

/-- The other items of the queue stay. -/
theorem Works.filter_withdrawn (w : Works) (id : Nat) (refs : List SheetRef) :
    (w.withdrawn id refs).packer.queue.filter (fun j => decide (j.id ≠ id)) = w.packer.queue.filter (fun j => decide (j.id ≠ id)) := by
  unfold Works.withdrawn
  induction w.packer.queue with
  | nil => rfl
  | cons j l ih =>
    by_cases h : j.id = id <;> simpa [h] using ih

/-- The item of a RETIRE whose sheets are withdrawn is the same but for its work. -/
theorem Works.item_withdrawn {w : Works} {i : Item} {id : Nat} (h : w.item id = some i) (refs : List SheetRef) :
    (w.withdrawn id refs).item id = some { i with work := .retire (w.retireLeft refs) } := by
  have hid : i.id = id := by simpa using List.find?_some h
  have hfind := find?_updateWhere (p := fun j : Item => decide (j.id = id)) (q := fun j : Item => decide (j.id = id))
    (f := fun j => { j with work := .retire (w.retireLeft refs) }) (fun _ => rfl) w.packer.queue
  have hmap : (w.packer.queue.map fun j => if j.id = id then { j with work := .retire (w.retireLeft refs) } else j) =
      updateWhere (fun j : Item => decide (j.id = id)) (fun j => { j with work := .retire (w.retireLeft refs) }) w.packer.queue := by
    simp only [updateWhere, decide_eq_true_eq]
  refine (congrArg (fun q => q.find? fun j : Item => decide (j.id = id)) hmap).trans (hfind.trans ?_)
  rw [show w.packer.queue.find? (fun j : Item => decide (j.id = id)) = some i from h]
  exact congrArg some (if_pos (decide_eq_true hid))

/-- The tests of a RESTORE: its target QUARANTINED, and its set one sheet of the target's range. -/
theorem Works.testItem_restore (x : Ctx) (w : Works) (i : Item) {slot cls : Nat} {first : Key} (h : i.work = .restore slot cls first) :
    let whole := (∃ n, w.entryAt i.day cls first = some n ∧ n.quarantined = true) ∧
      ∃ f g recs, w.file slot = some f ∧ f.target = some g ∧ packSheets f.restoreSet = [recs] ∧
        recs.head?.map (fun r => r.key) = some g.first ∧ recs.getLast?.map (fun r => r.key) = some g.last
    (whole → w.testItem x i = (.go, w)) ∧ (¬ whole → w.testItem x i = (.drop, w.dropItem x i)) := by
  intro whole
  unfold Works.testItem
  simp only [h]
  cases hf : w.file slot with
  | none => exact ⟨fun ⟨_, f, _, _, hsome, _⟩ => by simp [hf] at hsome, fun _ => rfl⟩
  | some f =>
    have hquar : (w.entryAt i.day cls first).any (·.quarantined) = true ↔
        ∃ n, w.entryAt i.day cls first = some n ∧ n.quarantined = true := by
      simp [Option.any_eq_true_iff_get, Option.eq_some_iff_get_eq]
    have hiff : ((w.entryAt i.day cls first).any (·.quarantined) && (match packSheets f.restoreSet with
        | [s] => f.target.any fun t => decide (s.head?.map (·.key) = some t.first) && decide (s.getLast?.map (·.key) = some t.last)
        | _ => false)) = true ↔ whole := by
      rw [Bool.and_eq_true, hquar]
      refine and_congr Iff.rfl ⟨fun hgood => ?_, fun ⟨f', g, recs, hf', hg, hpack, hhead, hlast⟩ => ?_⟩
      · split at hgood
        · next recs hpack =>
          obtain ⟨g, hg, hkeys⟩ := (Option.any_eq_true _ _).mp hgood
          simp only [Bool.and_eq_true, decide_eq_true_eq] at hkeys
          exact ⟨f, g, recs, hf, hg, hpack, hkeys.1, hkeys.2⟩
        · exact Bool.noConfusion hgood
      · obtain rfl : f = f' := Option.some.inj (hf.symm.trans hf')
        simp only [hpack, hg, Option.any_some, hhead, hlast, decide_true, Bool.and_self]
    refine ⟨fun hw => if_pos (hiff.mpr hw), fun hw => if_neg fun h => hw (hiff.mp h)⟩

/-- Settles O34: the delay's item by the merge test; of a scan, each item by its case, the tests of its kind and its claims. -/
theorem mergeDelayQueuesADueMerge : Obligations.MergeDelayQueuesADueMerge := by
  refine ⟨fun d c s hq => ⟨fun hnone => ?_, fun t e ht hday hclosed hlate hwait hroom => ?_⟩, fun _ _ => rfl, ?_⟩
  · change execMergeDelayExpiry d c s = .next s
    rw [execMergeDelayExpiry, hnone]
  · have hdue : s.works.mergeDue { s.ctx with clock := max s.clock t } d c = true :=
      Works.mergeTest_due (t := t) ht (Nat.le_max_right _ _) hday hclosed hlate hwait
    obtain ⟨packer, heq, hgroups, hask, hqueue⟩ := Works.mergeTest_queues hdue hroom
    have hexec : exec (.mergeDelayExpiry d c) s = (s.clockTo t).settled (s.works.mergeTest (s.clockTo t).ctx d c) := by
      change execMergeDelayExpiry d c s = _
      rw [execMergeDelayExpiry, ht]
      rfl
    refine ⟨_, hexec.trans rfl, ?_⟩
    have hctx : s.works.mergeTest (s.clockTo t).ctx d c = s.works.mergeTest { s.ctx with clock := max s.clock t } d c := rfl
    rw [hctx, heq]
    exact ⟨by rw [show s.works.tasks = [] from hq]; rfl, hgroups, hask, s.works.serial, hqueue⟩
  · intro x w held id l i hi
    refine ⟨fun hin => ?_, fun hin hfull => ?_, fun hin hroom hheld => ?_, fun hin hroom hwait hday hgr hnew e he => ?_⟩
    · exact (w.scanItems_cons x held id l i hi).trans (if_pos hin)
    · exact (w.scanItems_cons x held id l i hi).trans ((if_neg (by simp [hin])).trans (if_pos hfull))
    · refine (w.scanItems_cons x held id l i hi).trans ((if_neg (by simp [hin])).trans ((if_neg (Nat.not_le.mpr hroom)).trans (if_pos ?_)))
      rcases hheld with hwait | hday | hno
      · simp [hwait]
      · simp [hday]
      · have hany : ((w.day i.day).any (·.grantsGroup)) = false := by
          cases hd : w.day i.day with
          | none => rfl
          | some e =>
            refine Bool.eq_false_iff.mpr fun hg => hno ⟨e, hd, ?_⟩
            simpa [DayEntry.grantsGroup, and_assoc] using hg
        simp [hany]
    · have hgrants : e.grantsGroup = true := by
        obtain ⟨f, hf, hprog, howed, haudit, hgoing⟩ := hgr
        obtain rfl : e = f := Option.some.inj (he.symm.trans hf)
        simp [DayEntry.grantsGroup, hprog, howed, haudit, hgoing]
      have hT : w.Tests held id i e := ⟨hi, hin, hroom, hwait, hday, he, hgrants⟩
      have hlive : w.liveDay i.day = some e := Works.liveDay_eq_some he (by simp_all [DayEntry.grantsGroup])
      obtain rfl : i.id = id := by simpa using List.find?_some hi
      obtain ⟨id, day, work, askers, inGroup, wait⟩ := i
      refine ⟨?_, ?_, ?_, ?_, ?_, ?_⟩
      case refine_1 =>
        rintro c rfl
        exact (hT.tried (v := w) rfl hi rfl he hnew).1 (fun p hp => absurd hp (List.not_mem_nil))
      case refine_2 =>
        rintro c rfl
        refine ⟨fun hnone => ?_, fun hsome => ?_⟩
        · have ht : w.testItem x ⟨id, day, .merge c, askers, inGroup, wait⟩ =
            (.drop, w.dropItem x ⟨id, day, .merge c, askers, inGroup, wait⟩) := if_pos hnone
          have hmerge := w.dropItem_merge x ⟨id, day, .merge c, askers, inGroup, wait⟩ rfl
          exact ⟨_, hT.dropped ht rfl rfl (fun _ hk => hk), hmerge.1, hmerge.2⟩
        · exact hT.tried (v := w) (if_neg hsome) hi (Works.mergeTake_of_live hlive c) he hnew
      case refine_3 =>
        rintro ch entries rfl
        refine ⟨fun n hn => hT.dropsApply (k := .applyDropped ch .quarantined n) ?_, fun hn hfit => hT.dropsApply (k := .applyDropped ch .tooLarge entries.length) ?_, fun hn hfit => ?_⟩
        · simp only [Works.testItem, hn]
        · simp only [Works.testItem, hn, hfit]
          rfl
        · have ht : w.testItem x ⟨id, day, .apply ch entries, askers, inGroup, wait⟩ = (.go, w) := by
            simp only [Works.testItem, hn, hfit, if_true]
          exact hT.tried (v := w) ht hi rfl he hnew
      case refine_4 =>
        rintro ref keep rfl
        refine ⟨fun hcur => hT.drops ?_, fun n hcur => ⟨fun hq => hT.drops ?_, fun hq hp => hT.drops ?_, fun hq hp => ?_⟩⟩
        · simp only [Works.testItem, hcur]
        · simp only [Works.testItem, hcur, hq, if_true]
        · simp only [Works.testItem, hcur, hq, hp, if_true]
          rfl
        · have ht : w.testItem x ⟨id, day, .trim ref keep, askers, inGroup, wait⟩ = (.go, w) := by
            simp only [Works.testItem, hcur, hq, hp]
            rfl
          have htake : w.takeOf ⟨id, day, .trim ref keep, askers, inGroup, wait⟩ =
              ⟨[(ref.cls, n)], false, [⟨ref, none⟩], [], 0, [], [], []⟩ := by
            simp only [Works.takeOf, hcur, Option.map_some, Option.toList_some]
          exact hT.tried (v := w) ht hi htake he hnew
      case refine_5 =>
        rintro refs rfl
        have htest := w.testItem_retire x ⟨id, day, .retire refs, askers, inGroup, wait⟩ rfl
        refine ⟨fun hnone => ?_, fun hsome => ?_⟩
        · have ht := htest.trans (if_pos hnone)
          obtain ⟨-, -, -, hkeep⟩ := (w.withdrawn id refs).dropItem_drops x ⟨id, day, .retire refs, askers, inGroup, wait⟩
          refine ⟨_, hT.dropped ht ?_ rfl (fun _ hk => hk), fun k hk => hkeep k (List.mem_append.mpr (.inr hk))⟩
          exact w.filter_withdrawn id refs
        · have htake : (w.withdrawn id refs).takeOf ⟨id, day, .retire (w.retireLeft refs), askers, inGroup, wait⟩ =
              ⟨(e.retirePrefix (w.retireLeft refs)).filterMap fun r => (w.current r).map fun n => (r.cls, n), true, [], [], 0,
                e.retirePrefix (w.retireLeft refs), e.sheetRanges (e.retirePrefix (w.retireLeft refs)), []⟩ := by
            have hlive' : (w.withdrawn id refs).liveDay day = some e := hlive
            simp only [Works.takeOf, hlive']
            rfl
          exact hT.tried (v := w.withdrawn id refs) (htest.trans (if_neg hsome)) (Works.item_withdrawn hi refs) htake he hnew
      case refine_6 =>
        rintro slot cls first rfl
        refine ⟨fun hno f hf => ?_, fun hyes n hn => ?_⟩
        · have ht := (w.testItem_restore x ⟨id, day, .restore slot cls first, askers, inGroup, wait⟩ rfl).2 hno
          exact ⟨_, hT.dropped ht rfl rfl (fun _ hk => hk), w.dropItem_restore x _ rfl hf⟩
        · have ht := (w.testItem_restore x ⟨id, day, .restore slot cls first, askers, inGroup, wait⟩ rfl).1 hyes
          have htake : w.takeOf ⟨id, day, .restore slot cls first, askers, inGroup, wait⟩ =
              ⟨[(cls, n)], true, [], [], 0, [], [], []⟩ := by
            simp only [Works.takeOf, show w.entryAt day cls first = some n from hn, Option.map_some, Option.toList_some]
          exact hT.tried (v := w) ht hi htake he hnew

end Sys2Proof.Machine
end

section
/-!
SUPPORT. The refutation of O33: forming a group's sequences gives every group of its number the retirement list that this one has
itself, and the statement gives each of them the first one's.
-/

namespace Sys2Proof.Machine

/-- A group of number 1 whose sequences are to be formed and which waits for a neighbour, so that the step of packing it asks for does
nothing. -/
def rivalGroup (ranges : List KeyRange) : Group :=
  { id := 1, item := 0, day := 0, number := 1, phase := .packing, claimed := [], reads := [], merging := [], heldBack := 0, todo := [],
    current := none, coalescing := some ⟨0, 0, .zero, 0⟩, packed := [], outputs := [], posted := 0, retiring := [], ranges := ranges,
    amounts := .zero }

/-- A CLOSED day 0 with a RETIRE of no sheet, and two groups of number 1, of which only the second has a retirement list. -/
def rivalState : State :=
  let w := State.reset.works
  { State.reset with
    works := { w with
      days := [(0, .new .closed)]
      packer := { w.packer with
        queue := [⟨0, 0, .retire [], [], true, none⟩]
        groups := [rivalGroup [], rivalGroup [⟨0, .zero, .zero⟩]] } } }

/-- A step of packing for a group that waits for a neighbour does nothing. -/
theorem Works.packStep_of_coalescing {w : Works} {id : Nat} {g : Group} (hg : w.group id = some g) (hc : g.coalescing.isSome = true) :
    w.packStep id = w := by
  rw [Works.packStep, hg]
  exact if_pos (.inr hc)

/-- With that step the only consequence, the part stays as it is. -/
theorem settle_packStep {x : Ctx} {w : Works} {id : Nat} {g : Group} (ht : w.tasks = [.packStep id]) (hg : w.group id = some g)
    (hc : g.coalescing.isSome = true) : settle x taskBudget w = { w with tasks := [] } := by
  refine settle_of_idle x taskBudget w ?_ fun t hmem l => ?_
  · have hone : w.tasks.length = 1 := by rw [ht]; rfl
    rw [hone, taskBudget]
    decide
  · rw [ht] at hmem
    obtain rfl := List.mem_singleton.mp hmem
    exact Works.packStep_of_coalescing (w := { w with tasks := l }) hg hc

/-- The retirement list of the second group. -/
def Works.secondRanges (w : Works) : Option (List KeyRange) := (w.packer.groups[1]?).map (·.ranges)

/-- Refutes O33: with two groups of one number, forming the first one's sequences leaves the second its own retirement list. -/
theorem not_packingFormsTheRecordSequences : ¬ Obligations.PackingFormsTheRecordSequences := by
  intro h
  obtain ⟨hforms, -⟩ := h
  obtain ⟨-, hgroup⟩ := hforms 0 rivalState rfl
  obtain ⟨-, -, -, -, hretire, -⟩ := hgroup (rivalGroup []) (.new .closed) ⟨0, 0, .retire [], [], true, none⟩
    (by decide) (by decide) (by decide) (by decide)
  have hstated := hretire [] rfl
  have hexec : exec (.packing 0) rivalState = rivalState.settled (rivalState.works.beginPacking 1) := rfl
  have hworks := congrArg State.works (Host.Outcome.next.inj (hexec.symm.trans hstated))
  have hranges := congrArg Works.secondRanges hworks
  dsimp only at hranges
  rw [settle_packStep (g := rivalGroup []) rfl (by decide) rfl, settle_packStep (g := rivalGroup []) rfl (by decide) rfl] at hranges
  exact absurd hranges (by decide)

end Sys2Proof.Machine
end

section
/-! SUPPORT. The coded length of a record and of a sheet, and the greedy fill as a list of sheets each as full as it can be. -/

namespace Sys2Proof.Machine

/-! ## The coded length of a record -/

/-- The coding of an other party (R18). -/
def otherCode (d : List Nat) : Bytes := BitVec.ofNat 8 d.length :: pairDigits d

/-- A record's coding, its absent fields as eliminated options. -/
theorem codeRec_eq (prev : Option Rec) (r : Rec) : codeRec prev r =
    [headByte prev r] ++ (if sameAccount prev r then [] else varint (accountDelta prev r)) ++ varint (startField prev r) ++
    varint r.dur ++ varint r.switch ++ varint r.seq ++ varint r.charge ++
    (if sameTariff prev r then [] else [BitVec.ofNat 8 (r.tariff / 256), BitVec.ofNat 8 r.tariff]) ++
    r.other.elim [] otherCode ++ r.cell.elim [] varint ++ r.volume.elim [] varint ++ [marksByte r] := by
  obtain ⟨account, switch, seq, start, dur, service, charge, tariff, other, cell, volume, cls, marks⟩ := r
  cases other <;> cases cell <;> cases volume <;> rfl

theorem codedLen_eq (prev : Option Rec) (r : Rec) : codedLen prev r =
    1 + (if sameAccount prev r then 0 else varLen (accountDelta prev r)) + varLen (startField prev r) + varLen r.dur +
    varLen r.switch + varLen r.seq + varLen r.charge + (if sameTariff prev r then 0 else 2) +
    r.other.elim 0 (fun d => 1 + (d.length + 1) / 2) + r.cell.elim 0 varLen + r.volume.elim 0 varLen + 1 := by
  obtain ⟨account, switch, seq, start, dur, service, charge, tariff, other, cell, volume, cls, marks⟩ := r
  cases other <;> cases cell <;> cases volume <;> rfl

/-- A field that may be absent is at most as long as one that is present can be. -/
theorem elim_le {α : Type} {o : Option α} {f : α → Nat} {n : Nat} (h : ∀ a, o = some a → f a ≤ n) : o.elim 0 f ≤ n := by
  cases o with
  | none => exact Nat.zero_le _
  | some a => exact h a rfl

theorem length_elim {α : Type} {o : Option α} {f : α → Bytes} {g : α → Nat} (h : ∀ a, o = some a → (f a).length = g a) :
    (o.elim [] f).length = o.elim 0 g := by
  cases o with
  | none => rfl
  | some a => exact h a rfl

/-- Two records of one day lie less than a day apart. -/
theorem sub_lt_of_dayOf_eq {a b : Nat} (h : dayOf a = dayOf b) : b - a < Config.daySeconds := by
  simp only [dayOf, Config.daySeconds] at *
  omega

theorem startField_lt {prev : Option Rec} {r : Rec} (h : ∀ p, prev = some p → dayOf p.start = dayOf r.start) :
    startField prev r < Config.daySeconds := by
  cases prev with
  | none => exact Nat.mod_lt _ (by decide)
  | some p =>
    rw [startField]
    split
    · exact sub_lt_of_dayOf_eq (h p rfl)
    · exact Nat.mod_lt _ (by decide)

theorem Rec.digits_of_valid {r : Rec} (h : r.valid = true) : ∀ d, r.other = some d → 1 ≤ d.length ∧ d.length ≤ 20 ∧ ∀ x ∈ d, x ≤ 9 := by
  simp only [Rec.valid, Bool.and_eq_true, Option.all_eq_true, digitsOk, decide_eq_true_eq, List.all_eq_true, and_assoc] at h
  obtain ⟨-, -, -, -, -, -, -, hother, -⟩ := h
  exact fun d hd => hother d hd

theorem length_pairDigits (l : List Nat) : (pairDigits l).length = (l.length + 1) / 2 := by
  induction l using pairDigits.induct with
  | case1 => rfl
  | case2 => simp [pairDigits]
  | case3 d e l ih =>
    rw [pairDigits, List.length_cons, ih]
    simp only [List.length_cons]
    omega

/-- The greatest coded length of a record after another of its day: 53 bytes (R20). -/
theorem codedLen_le {prev : Option Rec} {r : Rec} (hr : r.valid = true) (h : ∀ p, prev = some p → dayOf p.start = dayOf r.start) :
    codedLen prev r ≤ 53 := by
  obtain ⟨haccount, hswitch, hseq, -, hdur, hcharge, hcell, hvolume⟩ := Rec.valid_ranges hr
  have hdelta : varLen (accountDelta prev r) ≤ 8 := by
    have hle := accountDelta_le prev r
    rw [Config.maxAccount] at haccount
    exact (varLen_le_iff (by omega) (by decide)).mpr (by omega)
  have hoff : varLen (startField prev r) ≤ 3 := by
    have hlt := startField_lt h
    rw [Config.daySeconds] at hlt
    exact (varLen_le_iff (by omega) (by decide)).mpr (by omega)
  have hdur' : varLen r.dur ≤ 3 := (varLen_le_iff (by omega) (by decide)).mpr (by omega)
  have hswitch' : varLen r.switch ≤ 2 := (varLen_le_iff (by omega) (by decide)).mpr (by omega)
  have hseq' : varLen r.seq ≤ 7 := (varLen_le_iff (by omega) (by decide)).mpr (by omega)
  have hcharge' : varLen r.charge ≤ 5 := (varLen_le_iff (by omega) (by decide)).mpr (by omega)
  have hother : r.other.elim 0 (fun d => 1 + (d.length + 1) / 2) ≤ 11 := elim_le fun d hd => by
    obtain ⟨-, hlen, -⟩ := Rec.digits_of_valid hr d hd
    omega
  have hcell' : r.cell.elim 0 varLen ≤ 4 := elim_le fun c hc => by
    have hle := hcell c hc
    exact (varLen_le_iff (by omega) (by decide)).mpr (by omega)
  have hvolume' : r.volume.elim 0 varLen ≤ 6 := elim_le fun v hv => by
    have hle := hvolume v hv
    exact (varLen_le_iff (by omega) (by decide)).mpr (by omega)
  have hsame : (if sameAccount prev r then 0 else varLen (accountDelta prev r)) ≤ 8 := by split <;> omega
  have htariff : (if sameTariff prev r then 0 else 2) ≤ 2 := by split <;> omega
  rw [codedLen_eq]
  omega

/-- A record's coding is as long as its coded length (R20). -/
theorem length_codeRec (prev : Option Rec) {r : Rec} (hr : r.valid = true) : (codeRec prev r).length = codedLen prev r := by
  obtain ⟨haccount, hswitch, hseq, hstart, hdur, hcharge, hcell, hvolume⟩ := Rec.valid_ranges hr
  have hdelta := accountDelta_le prev r
  have hoff := startField_le prev r
  rw [Config.maxAccount] at haccount
  have hsame : (if sameAccount prev r then [] else varint (accountDelta prev r)).length =
      if sameAccount prev r then 0 else varLen (accountDelta prev r) := by
    split
    · rfl
    · exact length_varint (by omega)
  have htariff : (if sameTariff prev r then [] else [BitVec.ofNat 8 (r.tariff / 256), BitVec.ofNat 8 r.tariff]).length =
      if sameTariff prev r then 0 else 2 := by split <;> rfl
  have hother : (r.other.elim [] otherCode).length = r.other.elim 0 fun d => 1 + (d.length + 1) / 2 :=
    length_elim fun d _ => by rw [otherCode, List.length_cons, length_pairDigits, Nat.add_comm]
  have hcell' : (r.cell.elim [] varint).length = r.cell.elim 0 varLen :=
    length_elim fun c hc => length_varint ((hcell c hc).trans_lt (by decide))
  have hvolume' : (r.volume.elim [] varint).length = r.volume.elim 0 varLen :=
    length_elim fun v hv => length_varint ((hvolume v hv).trans_lt (by decide))
  rw [codeRec_eq, codedLen_eq]
  simp only [List.length_append, List.length_singleton]
  rw [hsame, htariff, hother, hcell', hvolume', length_varint (by omega), length_varint (by omega), length_varint (by omega),
    length_varint (by omega), length_varint (by omega)]

/-- A sheet's coding is as long as its body length (R26). -/
theorem length_codeFrom (prev : Option Rec) {l : List Rec} (hl : ∀ r ∈ l, r.valid = true) :
    (codeFrom prev l).length = lenFrom prev l := by
  induction l generalizing prev with
  | nil => rfl
  | cons r l ih =>
    obtain ⟨hr, hl⟩ := List.forall_mem_cons.mp hl
    rw [codeFrom, lenFrom, List.length_append, length_codeRec prev hr, ih (some r) hl]

/-- One record more adds its coded length after the last one. -/
theorem lenFrom_concat (prev : Option Rec) (l : List Rec) (r : Rec) :
    lenFrom prev (l ++ [r]) = lenFrom prev l + codedLen (l.getLast?.or prev) r := by
  induction l generalizing prev with
  | nil => simp [lenFrom]
  | cons a l ih =>
    rw [List.cons_append, lenFrom, ih, lenFrom, List.getLast?_cons]
    cases l.getLast? <;> simp [Nat.add_assoc]

theorem bodyLength_concat {l : List Rec} {p : Rec} (h : l.getLast? = some p) (r : Rec) :
    bodyLength (l ++ [r]) = bodyLength l + codedLen (some p) r := by
  rw [bodyLength, lenFrom_concat, h]
  rfl

/-! ## The greedy fill -/

/-- A sheet within the limits of R21. -/
def sheetFits (a : List Rec) : Prop := 1 ≤ a.length ∧ a.length ≤ 512 ∧ bodyLength a ≤ 4064

/-- The fill goes on from a sheet that fits: it begins with that sheet, keeps the records' order, and every sheet fits and, but for the
last, leaves no room for the next record. -/
theorem fillFrom_spec {day : Nat} {l : List Rec} (hl : ∀ r ∈ l, r.valid = true ∧ dayOf r.start = day) {sheet : List Rec}
    (hfits : sheetFits sheet) :
    ∃ more rest, fillFrom sheet (bodyLength sheet) l = (sheet ++ more) :: rest ∧
      (fillFrom sheet (bodyLength sheet) l).flatten = sheet ++ l ∧ (∀ a ∈ fillFrom sheet (bodyLength sheet) l, sheetFits a) ∧
      sheetsFull (fillFrom sheet (bodyLength sheet) l) := by
  induction l generalizing sheet with
  | nil =>
    have hne : sheet ≠ [] := List.ne_nil_of_length_pos hfits.1
    rw [fillFrom, if_neg hne]
    exact ⟨[], [], by simp, by simp, by simpa using hfits, trivial⟩
  | cons r l ih =>
    obtain ⟨⟨hr, -⟩, hl⟩ := List.forall_mem_cons.mp hl
    have hne : sheet ≠ [] := List.ne_nil_of_length_pos hfits.1
    obtain ⟨p, hp⟩ : ∃ p, sheet.getLast? = some p := ⟨_, List.getLast?_eq_some_getLast hne⟩
    rw [fillFrom, hp]
    dsimp only
    rw [← bodyLength_concat hp r]
    by_cases hroom : bodyLength (sheet ++ [r]) ≤ Config.bodyMax ∧ sheet.length + 1 ≤ Config.sheetRecords
    · rw [if_pos hroom]
      have hfits' : sheetFits (sheet ++ [r]) := ⟨by simp, by rw [List.length_append]; exact hroom.2, hroom.1⟩
      obtain ⟨more, rest, hhead, hflat, hall, hfull⟩ := ih hl hfits'
      exact ⟨r :: more, rest, by rw [hhead]; simp, by rw [hflat]; simp, hall, hfull⟩
    · rw [if_neg hroom]
      have hlen : codedLen none r ≤ 53 := codedLen_le hr (fun _ hnone => by cases hnone)
      have hone : bodyLength [r] = codedLen none r := by simp [bodyLength, lenFrom]
      have hfits' : sheetFits [r] := ⟨le_rfl, by simp, by omega⟩
      obtain ⟨more, rest, hhead, hflat, hall, hfull⟩ := ih hl hfits'
      rw [hone] at hhead hflat hall hfull
      refine ⟨[], _, by rw [List.append_nil], by rw [List.flatten_cons, hflat]; rfl, List.forall_mem_cons.mpr ⟨hfits, hall⟩, ?_⟩
      rw [hhead] at hfull ⊢
      refine ⟨fun q hq => ?_, hfull⟩
      obtain rfl : r = q := by simpa using hq
      rcases not_and_or.mp hroom with hbody | hcount
      · exact .inr (Nat.not_le.mp hbody)
      · exact .inl (Nat.le_antisymm hfits.2.1 (Nat.lt_succ_iff.mp (Nat.not_le.mp hcount)))

/-- A sheet that leaves no room for a record has a body above 4011 bytes or 512 records. -/
theorem full_of_sheetsFull {day : Nat} {sheets : List (List Rec)} (hfull : sheetsFull sheets) (hfits : ∀ a ∈ sheets, sheetFits a)
    (hall : ∀ r ∈ sheets.flatten, r.valid = true ∧ dayOf r.start = day) :
    ∀ a ∈ sheets.dropLast, 4011 < bodyLength a ∨ a.length = 512 := by
  induction sheets with
  | nil => exact fun _ h => absurd h List.not_mem_nil
  | cons a sheets ih =>
    cases sheets with
    | nil => exact fun _ h => absurd h List.not_mem_nil
    | cons b l =>
      obtain ⟨hnext, hfull⟩ := hfull
      obtain ⟨hfita, hfits⟩ := List.forall_mem_cons.mp hfits
      obtain ⟨r, hr⟩ : ∃ r, b.head? = some r := by
        obtain ⟨hpos, -, -⟩ := hfits b (List.mem_cons_self ..)
        exact ⟨_, List.head?_eq_some_head (List.ne_nil_of_length_pos hpos)⟩
      obtain ⟨p, hp⟩ : ∃ p, a.getLast? = some p :=
        ⟨_, List.getLast?_eq_some_getLast (List.ne_nil_of_length_pos hfita.1)⟩
      have hrest : ∀ q ∈ (b :: l).flatten, q.valid = true ∧ dayOf q.start = day := fun q hq =>
        hall q (by rw [List.flatten_cons]; exact List.mem_append.mpr (.inr hq))
      have hday : ∀ q, some p = some q → dayOf q.start = dayOf r.start := fun q hq => by
        obtain rfl := Option.some.inj hq
        have hpa := hall p (by rw [List.flatten_cons]; exact List.mem_append.mpr (.inl (List.mem_of_getLast? hp)))
        have hrb := hrest r (by rw [List.flatten_cons]; exact List.mem_append.mpr (.inl (List.mem_of_head? hr)))
        rw [hpa.2, hrb.2]
      have hvalid := hrest r (by rw [List.flatten_cons]; exact List.mem_append.mpr (.inl (List.mem_of_head? hr)))
      have hlen := codedLen_le hvalid.1 hday
      intro c hc
      rw [List.dropLast_cons_cons] at hc
      rcases List.mem_cons.mp hc with rfl | hc
      · rcases hnext r hr with hcount | hbody
        · exact .inr hcount
        · rw [bodyLength_concat hp] at hbody
          exact .inl (by rw [Config.bodyMax] at hbody; omega)
      · exact ih hfull hfits hrest c hc

/-- Settles O58: the fill by induction on the records, the fullness of its sheets from the greatest coded length. -/
theorem packingIsTheGreedyFill : Obligations.PackingIsTheGreedyFill := by
  intro day l _ hl
  cases l with
  | nil => exact ⟨rfl, fun _ h => absurd h List.not_mem_nil, trivial, fun _ h => absurd h List.not_mem_nil, fun _ => rfl⟩
  | cons r l =>
    obtain ⟨⟨hr, hday⟩, hrest⟩ := List.forall_mem_cons.mp hl
    have hone : bodyLength [r] = codedLen none r := by simp [bodyLength, lenFrom]
    have hlen : codedLen none r ≤ 53 := codedLen_le hr (fun _ hnone => by cases hnone)
    obtain ⟨-, -, -, hflat, hfits, hfull⟩ := fillFrom_spec hrest (sheet := [r]) ⟨le_rfl, by simp, by omega⟩
    have hpack : packSheets (r :: l) = fillFrom [r] (bodyLength [r]) l := by rw [hone]; rfl
    rw [← hpack] at hflat hfits hfull
    refine ⟨hflat, fun a ha => ?_, hfull, full_of_sheetsFull hfull hfits (by rw [hflat]; exact hl), fun h => by cases h⟩
    obtain ⟨hpos, hcount, hbody⟩ := hfits a ha
    refine ⟨hpos, hcount, hbody, length_codeFrom none fun q hq => ?_⟩
    exact (hl q (by rw [← List.singleton_append, ← hflat]; exact List.mem_flatten.mpr ⟨a, ha, hq⟩)).1

end Sys2Proof.Machine
end

section
/-! SUPPORT. A record and a sheet read back from what is written: the flags of a byte, digits, the record, the body, the header. -/

namespace Sys2Proof.Machine

theorem toNat_ofNat_byte {v : Nat} (h : v < 256) : (BitVec.ofNat 8 v).toNat = v := by
  rw [BitVec.toNat_ofNat]
  exact Nat.mod_eq_of_lt h

theorem bit_eq (b : Bool) (i : Nat) : bit b i = 2 ^ i * b.toNat := by cases b <;> simp [bit]

theorem hasBit_of_eq {v i : Nat} {b : Bool} (h : v / 2 ^ i % 2 = b.toNat) : hasBit v i = b := by
  rw [hasBit, h]
  cases b <;> rfl

/-- The flags of a head byte (R16). -/
theorem headByte_flags (prev : Option Rec) (r : Rec) :
    (headByte prev r).toNat % 8 = r.service.code ∧ hasBit (headByte prev r).toNat 3 = sameAccount prev r ∧
    hasBit (headByte prev r).toNat 4 = sameTariff prev r ∧ hasBit (headByte prev r).toNat 5 = r.other.isSome ∧
    hasBit (headByte prev r).toNat 6 = r.cell.isSome ∧ hasBit (headByte prev r).toNat 7 = r.volume.isSome := by
  have hcode : r.service.code < 8 := by cases r.service <;> decide
  have h3 := Bool.toNat_le (sameAccount prev r)
  have h4 := Bool.toNat_le (sameTariff prev r)
  have h5 := Bool.toNat_le r.other.isSome
  have h6 := Bool.toNat_le r.cell.isSome
  have h7 := Bool.toNat_le r.volume.isSome
  have hbyte : (headByte prev r).toNat = r.service.code + 2 ^ 3 * (sameAccount prev r).toNat + 2 ^ 4 * (sameTariff prev r).toNat +
      2 ^ 5 * r.other.isSome.toNat + 2 ^ 6 * r.cell.isSome.toNat + 2 ^ 7 * r.volume.isSome.toNat := by
    unfold headByte
    simp only [bit_eq]
    exact toNat_ofNat_byte (by omega)
  rw [hbyte]
  exact ⟨by omega, hasBit_of_eq (by omega), hasBit_of_eq (by omega), hasBit_of_eq (by omega), hasBit_of_eq (by omega),
    hasBit_of_eq (by omega)⟩

/-- The flags of a marks byte (R19). -/
theorem marksByte_flags {r : Rec} (h : r.cls ≤ 7) :
    (marksByte r).toNat % 8 = r.cls ∧ hasBit (marksByte r).toNat 3 = r.marks.volSat ∧ hasBit (marksByte r).toNat 4 = r.marks.otherTrunc ∧
    hasBit (marksByte r).toNat 5 = r.marks.late ∧ hasBit (marksByte r).toNat 6 = r.marks.amended ∧
    hasBit (marksByte r).toNat 7 = false := by
  have h3 := Bool.toNat_le r.marks.volSat
  have h4 := Bool.toNat_le r.marks.otherTrunc
  have h5 := Bool.toNat_le r.marks.late
  have h6 := Bool.toNat_le r.marks.amended
  have hbyte : (marksByte r).toNat = r.cls + 2 ^ 3 * r.marks.volSat.toNat + 2 ^ 4 * r.marks.otherTrunc.toNat +
      2 ^ 5 * r.marks.late.toNat + 2 ^ 6 * r.marks.amended.toNat := by
    unfold marksByte
    simp only [bit_eq]
    exact toNat_ofNat_byte (by omega)
  rw [hbyte]
  exact ⟨by omega, hasBit_of_eq (by omega), hasBit_of_eq (by omega), hasBit_of_eq (by omega), hasBit_of_eq (by omega),
    hasBit_of_eq (by rw [Bool.toNat_false]; omega)⟩

theorem ofCode_code (s : Service) : Service.ofCode s.code = s := by cases s <;> rfl

/-- Digits are read back from their pairs. -/
theorem readDigits_pairDigits (l : List Nat) (h : ∀ d ∈ l, d ≤ 9) : readDigits l.length (pairDigits l) = some l := by
  induction l using pairDigits.induct with
  | case1 => rfl
  | case2 d =>
    have hd := h d (List.mem_singleton_self d)
    have hbyte : (BitVec.ofNat 8 (16 * d + 15)).toNat = 16 * d + 15 := toNat_ofNat_byte (by omega)
    show (if _ then _ else _) = _
    rw [hbyte, if_pos (by omega)]
    simp
    omega
  | case3 d e l ih =>
    obtain ⟨hd, hrest⟩ := List.forall_mem_cons.mp h
    obtain ⟨he, hl⟩ := List.forall_mem_cons.mp hrest
    have hbyte : (BitVec.ofNat 8 (16 * d + e)).toNat = 16 * d + e := toNat_ofNat_byte (by omega)
    show (if _ then _ else _) = _
    rw [hbyte, if_pos (by omega), ih hl, Option.map_some, show (16 * d + e) / 16 = d by omega, show (16 * d + e) % 16 = e by omega]

theorem readBytes_append (a b : Bytes) : readBytes a.length (a ++ b) = some (a, b) := by
  simp [readBytes]

/-- An other party is read back from its coding. -/
theorem readOther_otherCode {d : List Nat} (hpos : 1 ≤ d.length) (hlen : d.length ≤ 20) (h : ∀ x ∈ d, x ≤ 9) (rest : Bytes) :
    readOther (otherCode d ++ rest) = some (d, rest) := by
  have hbyte : (BitVec.ofNat 8 d.length).toNat = d.length := toNat_ofNat_byte (by omega)
  show (if _ then _ else _) = _
  rw [hbyte, if_pos ⟨hpos, hlen⟩, ← length_pairDigits]
  rw [show readBytes (pairDigits d).length (List.append (pairDigits d) rest) = _ from readBytes_append _ _]
  simp only [readDigits_pairDigits d h, Option.map_some]

theorem readVar_varint {max v : Nat} (hv : v ≤ max) (h : v < 2 ^ 56) (rest : Bytes) : readVar max (varint v ++ rest) = some (v, rest) :=
  readVar_eq_some_iff.mpr ⟨hv, h, rfl⟩

/-! ## A step of a reading -/

theorem bind_eq_of_some {α β : Type} {o : Option α} {a : α} {f : α → Option β} {z : Option β} (h : o = some a) (hf : f a = z) :
    (o >>= f) = z := by
  rw [h]
  exact hf

/-- A field that one of two readings gives, as a flag says. -/
theorem ite_bind_eq_of_some {α β : Type} {c : Prop} [Decidable c] {o o' : Option α} {a : α} {f : α → Option β} {z : Option β}
    (h : (if c then o else o') = some a) (hf : f a = z) : (if c then o >>= f else o' >>= f) = z := by
  split at h
  · next hc => exact (if_pos hc).trans (bind_eq_of_some h hf)
  · next hc => exact (if_neg hc).trans (bind_eq_of_some h hf)

/-- A field that may be absent, read as its flag says. -/
theorem ite_readField {α : Type} {o : Option α} {code : α → Bytes} {read : Bytes → Option (α × Bytes)} {b : Bool} (hb : b = o.isSome)
    (hread : ∀ a, o = some a → ∀ rest, read (code a ++ rest) = some (a, rest)) (rest : Bytes) :
    (if b = true then (read (o.elim [] code ++ rest)).map (fun p => (some p.1, p.2)) else some (none, o.elim [] code ++ rest)) =
      some (o, rest) := by
  subst hb
  cases o with
  | none => rfl
  | some a => exact congrArg (Option.map fun p : α × Bytes => (some p.1, p.2)) (hread a rfl rest)

/-! ## A record read back -/

theorem Rec.valid_rest {r : Rec} (h : r.valid = true) :
    1 ≤ r.account ∧ r.tariff ≤ 65535 ∧ (r.volume.isSome = true → r.service.holdsVolume = true) ∧ r.cls ≤ 7 := by
  simp only [Rec.valid, accountValid, Bool.and_eq_true, Bool.or_eq_true, decide_eq_true_eq, and_assoc] at h
  obtain ⟨haccount, -, -, -, -, -, -, htariff, -, -, -, hvolume, hcls⟩ := h
  refine ⟨haccount, htariff, fun hsome => hvolume.resolve_left fun hnone => ?_, hcls⟩
  rw [Option.isNone_iff_eq_none.mp hnone] at hsome
  exact Bool.noConfusion hsome

/-- The account of a record after another in key order is not below that one's. -/
theorem account_le_of_lt {p r : Rec} (h : p.key.lt r.key = true) :
    p.account ≤ r.account ∧ (p.account = r.account → p.start ≤ r.start) := by
  simp only [Key.lt, Bool.or_eq_true, Bool.and_eq_true, decide_eq_true_eq] at h
  have hkeys : ∀ q : Rec, q.key.account = q.account ∧ q.key.start = q.start := fun _ => ⟨rfl, rfl⟩
  simp only [hkeys] at h
  omega

theorem codeRec_append (prev : Option Rec) (r : Rec) (rest : Bytes) : codeRec prev r ++ rest =
    headByte prev r :: ((if sameAccount prev r then [] else varint (accountDelta prev r)) ++ (varint (startField prev r) ++
      (varint r.dur ++ (varint r.switch ++ (varint r.seq ++ (varint r.charge ++
      ((if sameTariff prev r then [] else [BitVec.ofNat 8 (r.tariff / 256), BitVec.ofNat 8 r.tariff]) ++
      (r.other.elim [] otherCode ++ (r.cell.elim [] varint ++ (r.volume.elim [] varint ++ (marksByte r :: rest))))))))))) := by
  rw [codeRec_eq]
  simp only [List.append_assoc, List.cons_append, List.nil_append]

/-- A record after another of its day in key order, or the first of its sheet. -/
structure Follows (day account : Nat) (prev : Option Rec) (r : Rec) : Prop where
  valid : r.valid = true
  ofDay : dayOf r.start = day
  after : ∀ p, prev = some p → p.key.lt r.key = true ∧ dayOf p.start = day
  first : prev = none → account = r.account

section
variable {day account : Nat} {prev : Option Rec} {r : Rec}

/-- The account delta that is read: 0 with SAME_ACCOUNT. -/
def readDelta (prev : Option Rec) (r : Rec) : Nat := if sameAccount prev r then 0 else accountDelta prev r

/-- The account that is read. -/
def readAccount (account : Nat) (prev : Option Rec) (r : Rec) : Nat :=
  match prev with
  | none => account
  | some p => p.account + readDelta prev r

theorem Follows.account_read (h : Follows day account prev r) : readAccount account prev r = r.account := by
  cases prev with
  | none => exact h.first rfl
  | some p =>
    obtain ⟨hlt, -⟩ := h.after p rfl
    obtain ⟨hle, -⟩ := account_le_of_lt hlt
    by_cases hsame : p.account = r.account
    · simp [readAccount, readDelta, sameAccount, hsame]
    · simp [readAccount, readDelta, sameAccount, hsame, accountDelta]
      omega

theorem Follows.delta_ne (h : Follows day account prev r) :
    ¬ (!sameAccount prev r && decide (readDelta prev r = 0) && prev.isSome) = true ∧
    ¬ (decide (readDelta prev r ≠ 0) && prev.isNone) = true := by
  cases prev with
  | none => simp [readDelta, accountDelta]
  | some p =>
    obtain ⟨hlt, -⟩ := h.after p rfl
    obtain ⟨hle, -⟩ := account_le_of_lt hlt
    by_cases hsame : p.account = r.account
    · simp [sameAccount, hsame]
    · simp [readDelta, sameAccount, hsame, accountDelta]
      omega

/-- The start that is read. -/
def readStart (day : Nat) (prev : Option Rec) (r : Rec) : Nat :=
  match sameAccount prev r, prev with
  | true, some p => p.start + startField prev r
  | _, _ => day * Config.daySeconds + startField prev r

theorem Follows.start (h : Follows day account prev r) : readStart day prev r = r.start := by
  have hday := h.ofDay
  have hmod : day * Config.daySeconds + r.start % Config.daySeconds = r.start := by
    rw [← hday, dayOf, Nat.mul_comm]
    exact Nat.div_add_mod _ _
  cases prev with
  | none => exact hmod
  | some p =>
    obtain ⟨hlt, -⟩ := h.after p rfl
    obtain ⟨-, hle⟩ := account_le_of_lt hlt
    by_cases hsame : p.account = r.account
    · have hstart := hle hsame
      simp [readStart, sameAccount, startField, hsame]
      omega
    · simpa [readStart, sameAccount, startField, hsame] using hmod

/-- The account delta read back (R17). -/
theorem Follows.readDelta (h : Follows day account prev r) {b : Bool} (hb : b = sameAccount prev r) (rest : Bytes) :
    (if b = true then some (0, (if sameAccount prev r then [] else varint (accountDelta prev r)) ++ rest)
      else readVar Config.maxAccount ((if sameAccount prev r then [] else varint (accountDelta prev r)) ++ rest)) =
      some (Machine.readDelta prev r, rest) := by
  subst hb
  obtain ⟨haccount, -⟩ := Rec.valid_ranges h.valid
  have hdelta := accountDelta_le prev r
  have hmax := haccount
  rw [Config.maxAccount] at hmax
  unfold Machine.readDelta
  by_cases hsame : sameAccount prev r = true
  · simp only [hsame, if_true]
    rfl
  · simp only [hsame]
    exact readVar_varint (hdelta.trans haccount) (by omega) rest

/-- The tariff read back: the previous record's with SAME_TARIFF (R16). -/
theorem Follows.readTariff (h : Follows day account prev r) {b : Bool} (hb : b = sameTariff prev r) (rest : Bytes) :
    (if b = true then
        some ((prev.map (·.tariff)).getD 0,
          (if sameTariff prev r then [] else [BitVec.ofNat 8 (r.tariff / 256), BitVec.ofNat 8 r.tariff]) ++ rest)
      else (readBytes 2 ((if sameTariff prev r then [] else [BitVec.ofNat 8 (r.tariff / 256), BitVec.ofNat 8 r.tariff]) ++ rest)).map
        fun p => ((p.1.getD 0 0).toNat * 256 + (p.1.getD 1 0).toNat, p.2)) = some (r.tariff, rest) := by
  subst hb
  obtain ⟨-, htariff, -⟩ := Rec.valid_rest h.valid
  by_cases hsame : sameTariff prev r = true
  · simp only [hsame, if_true]
    cases prev with
    | none => exact absurd hsame (by simp [sameTariff])
    | some p =>
      have heq : p.tariff = r.tariff := by simpa [sameTariff] using hsame
      exact congrArg (fun n => some (n, rest)) heq
  · simp only [hsame]
    have htwo : readBytes 2 ([BitVec.ofNat 8 (r.tariff / 256), BitVec.ofNat 8 r.tariff] ++ rest) =
        some ([BitVec.ofNat 8 (r.tariff / 256), BitVec.ofNat 8 r.tariff], rest) := readBytes_append [BitVec.ofNat 8 (r.tariff / 256), BitVec.ofNat 8 r.tariff] rest
    have hhigh : (BitVec.ofNat 8 (r.tariff / 256)).toNat = r.tariff / 256 := toNat_ofNat_byte (by omega)
    have hlow : (BitVec.ofNat 8 r.tariff).toNat = r.tariff % 256 := BitVec.toNat_ofNat _ _
    have hjoin : r.tariff / 256 * 256 + r.tariff % 256 = r.tariff := by omega
    refine (if_neg Bool.false_ne_true).trans ((congrArg _ htwo).trans ?_)
    simp only [Option.map_some, List.getD_cons_zero, List.getD_cons_succ, hhigh, hlow, hjoin]

/-- A record is read back from its coding, whatever follows it. -/
theorem Follows.read (h : Follows day account prev r) (rest : Bytes) :
    readRec day r.cls account prev (codeRec prev r ++ rest) = some (r, rest) := by
  obtain ⟨haccount, hswitch, hseq, hstart, hdur, hcharge, hcell, hvolume⟩ := Rec.valid_ranges h.valid
  obtain ⟨hpos, -, hholds, hcls⟩ := Rec.valid_rest h.valid
  obtain ⟨hservice, h3, h4, h5, h6, h7⟩ := headByte_flags prev r
  obtain ⟨m0, m3, m4, m5, m6, m7⟩ := marksByte_flags hcls
  obtain ⟨hne, hnone⟩ := h.delta_ne
  have hoff : startField prev r < Config.daySeconds := startField_lt fun p hp => (h.after p hp).2.trans h.ofDay.symm
  rw [Config.daySeconds] at hoff
  have hacct : ∀ a, a = r.account → ¬ (a = 0 ∨ Config.maxAccount < a) := fun a ha => by omega
  have hdayOf : ∀ a, a = r.start → ¬ (dayOf a ≠ day ∨ 4294967295 < a) := fun a ha => by
    rw [ha, h.ofDay]
    omega
  have hlt : ∀ q, q = r → ¬ (prev.any fun p => !p.key.lt q.key) = true := fun q hq hany => by
    obtain ⟨p, hp, hno⟩ := (Option.any_eq_true _ _).mp hany
    rw [hq, (h.after p hp).1] at hno
    exact Bool.noConfusion hno
  rw [codeRec_append]
  unfold readRec
  refine bind_eq_of_some rfl ?_
  refine (if_neg ?_).trans ?_
  · rw [h3, h4]
    cases prev <;> simp [sameAccount, sameTariff]
  refine ite_bind_eq_of_some (h.readDelta h3 _) ?_
  refine (if_neg (by rw [h3]; exact hne)).trans ?_
  refine (if_neg hnone).trans ?_
  refine (if_neg (hacct _ ?_)).trans ?_
  · exact h.account_read
  refine bind_eq_of_some (readVar_varint (by rw [Config.daySeconds]; omega) (by omega) _) ?_
  refine (if_neg (hdayOf _ ?_)).trans ?_
  · rw [h3]
    exact h.start
  refine bind_eq_of_some (readVar_varint hdur (by omega) _) ?_
  refine bind_eq_of_some (readVar_varint hswitch (by omega) _) ?_
  refine bind_eq_of_some (readVar_varint (by omega) (by omega) _) ?_
  refine bind_eq_of_some (readVar_varint hcharge (by omega) _) ?_
  refine ite_bind_eq_of_some (h.readTariff h4 _) ?_
  refine (if_neg ?_).trans ?_
  · rw [h4, sameTariff]
    simp
  refine ite_bind_eq_of_some (ite_readField h5 (fun d hd => ?_) _) ?_
  · obtain ⟨hone, htwenty, hdigits⟩ := Rec.digits_of_valid h.valid d hd
    exact readOther_otherCode hone htwenty hdigits
  refine ite_bind_eq_of_some (ite_readField h6 (fun c hc => readVar_varint (hcell c hc) ((hcell c hc).trans_lt (by decide))) _) ?_
  refine (if_neg ?_).trans ?_
  · rw [h7, hservice, ofCode_code]
    cases hv : r.volume with
    | none => simp
    | some v => simp [hholds (by rw [hv]; rfl)]
  refine ite_bind_eq_of_some (ite_readField h7 (fun v hv => readVar_varint (hvolume v hv) ((hvolume v hv).trans_lt (by decide))) _) ?_
  refine bind_eq_of_some rfl ?_
  refine (if_neg ?_).trans ?_
  · rw [m0, m7]
    simp
  have hrec : (⟨readAccount account prev r, r.switch, r.seq, readStart day prev r, r.dur,
      Service.ofCode r.service.code, r.charge, r.tariff, r.other, r.cell, r.volume, r.cls,
      ⟨r.marks.volSat, r.marks.otherTrunc, r.marks.late, r.marks.amended⟩⟩ : Rec) = r := by
    rw [h.account_read, h.start, ofCode_code]
  rw [m3, m4, m5, m6, h3, hservice]
  exact (if_neg (hlt _ hrec)).trans (congrArg (fun q => some (q, rest)) hrec)

end

/-! ## A body read back -/

/-- The records of a sheet in key order are read back from its body. -/
theorem readRecs_codeFrom {day cls account : Nat} (l : List Rec) (prev : Option Rec)
    (hl : ∀ r ∈ l, r.valid = true ∧ dayOf r.start = day ∧ r.cls = cls) (hrise : recsRising l = true)
    (hprev : ∀ p, prev = some p → dayOf p.start = day ∧ ∀ r, l.head? = some r → p.key.lt r.key = true)
    (hfirst : prev = none → ∀ r, l.head? = some r → account = r.account) :
    readRecs day cls account l.length prev (codeFrom prev l) = some l := by
  induction l generalizing prev with
  | nil => rfl
  | cons r l ih =>
    obtain ⟨⟨hvalid, hday, hcls⟩, hl⟩ := List.forall_mem_cons.mp hl
    have hfollows : Follows day account prev r :=
      ⟨hvalid, hday, fun p hp => ⟨(hprev p hp).2 r rfl, (hprev p hp).1⟩, fun hnone => hfirst hnone r rfl⟩
    have hnext : ∀ q, l.head? = some q → r.key.lt q.key = true := fun q hq => by
      cases l with
      | nil => cases hq
      | cons b l =>
        obtain rfl : b = q := Option.some.inj hq
        exact ((Bool.and_eq_true _ _).mp hrise).1
    have htail : recsRising l = true := by
      cases l with
      | nil => rfl
      | cons b l => exact ((Bool.and_eq_true _ _).mp hrise).2
    have hrest := ih (some r) hl htail (fun p hp => by
      obtain rfl := Option.some.inj hp
      exact ⟨hday, hnext⟩) (fun h => by cases h)
    rw [List.length_cons, codeFrom, readRecs, ← hcls, hfollows.read]
    rw [hcls]
    simp only [hrest, Option.map_some]

/-! ## Numbers and stretches of bytes read back -/

theorem ofLe_le {n v : Nat} (h : v < 256 ^ n) : ofLe (le n v) = v := by
  induction n generalizing v with
  | zero => exact (Nat.lt_one_iff.mp (by simpa using h)).symm
  | succ n ih =>
    have hdiv : v / 256 < 256 ^ n := Nat.div_lt_of_lt_mul (by rwa [pow_succ'] at h)
    rw [le, ofLe, ih hdiv, BitVec.toNat_ofNat]
    exact Nat.mod_add_div v 256

theorem field_append {p rest : Bytes} {i n v : Nat} (hp : p.length = i) (hv : v < 256 ^ n) :
    field (p ++ (le n v ++ rest)) i n = v := by
  rw [field, slice_append hp (length_le_bytes n v), ofLe_le hv]

theorem checksum_lt (b : Bytes) : checksum b < 256 ^ 4 := by
  have hsums : ∀ (l : Bytes) (s : Nat × Nat), s.1 < 65535 ∧ s.2 < 65535 →
      (l.foldl sumStep s).1 < 65535 ∧ (l.foldl sumStep s).2 < 65535 := fun l => by
    induction l with
    | nil => exact fun _ h => h
    | cons x l ih => exact fun s _ => ih _ ⟨Nat.mod_lt _ (by decide), Nat.mod_lt _ (by decide)⟩
  obtain ⟨h1, h2⟩ := hsums b (1, 0) ⟨by decide, by decide⟩
  show (b.foldl sumStep (1, 0)).2 * 65536 + (b.foldl sumStep (1, 0)).1 < _
  omega

/-! ## An image read back -/

/-- The fields of a header within what its bytes hold. -/
structure Header.Fits (h : Header) : Prop where
  cls : h.cls < 256
  day : h.day < 256 ^ 2
  firstAccount : h.firstAccount < 256 ^ 8
  lastAccount : h.lastAccount < 256 ^ 8
  group : h.group < 256 ^ 4
  count : h.count < 256 ^ 2
  bodyLen : h.bodyLen < 256 ^ 2

theorem Header.length_bytes (h : Header) : h.bytes.length = 28 := by
  simp only [Header.bytes, List.length_append, length_le_bytes]

/-- A header is read back from the image it stands in. -/
theorem readHeader_sheetImage {h : Header} (hf : h.Fits) (body : Bytes) : readHeader (sheetImage h body) = some h := by
  have hat : ∀ {p rest : Bytes} {i n v : Nat}, h.bytes = p ++ (le n v ++ rest) → p.length = i → v < 256 ^ n →
      field (sheetImage h body) i n = v := fun {p rest i n v} hb hp hv => by
    have himage : sheetImage h body = p ++ (le n v ++ (rest ++ (le 4 (checksum (h.bytes ++ body)) ++ body))) := by
      rw [sheetImage]
      generalize checksum (h.bytes ++ body) = c
      rw [hb]
      simp only [List.append_assoc]
    rw [himage, field_append hp hv]
  have hbytes : h.bytes = le 1 h.kind.code ++ (le 1 h.cls ++ (le 2 h.day ++ (le 8 h.firstAccount ++ (le 8 h.lastAccount ++
      (le 4 h.group ++ (le 2 h.count ++ (le 2 h.bodyLen ++ []))))))) := by
    simp only [Header.bytes, List.append_assoc, List.append_nil]
  have hkind : field (sheetImage h body) 0 1 = h.kind.code :=
    hat (p := []) hbytes rfl (by cases h.kind <;> decide)
  have hcls : field (sheetImage h body) 1 1 = h.cls :=
    hat (p := le 1 h.kind.code) hbytes (length_le_bytes _ _) hf.cls
  have hday : field (sheetImage h body) 2 2 = h.day :=
    hat (p := le 1 h.kind.code ++ le 1 h.cls) (by rw [hbytes]; simp only [List.append_assoc]; rfl) (by simp) hf.day
  have hfirst : field (sheetImage h body) 4 8 = h.firstAccount :=
    hat (p := le 1 h.kind.code ++ le 1 h.cls ++ le 2 h.day) (by rw [hbytes]; simp only [List.append_assoc]; rfl) (by simp) hf.firstAccount
  have hlast : field (sheetImage h body) 12 8 = h.lastAccount :=
    hat (p := le 1 h.kind.code ++ le 1 h.cls ++ le 2 h.day ++ le 8 h.firstAccount)
      (by rw [hbytes]; simp only [List.append_assoc]; rfl) (by simp) hf.lastAccount
  have hgroup : field (sheetImage h body) 20 4 = h.group :=
    hat (p := le 1 h.kind.code ++ le 1 h.cls ++ le 2 h.day ++ le 8 h.firstAccount ++ le 8 h.lastAccount)
      (by rw [hbytes]; simp only [List.append_assoc]; rfl) (by simp) hf.group
  have hcount : field (sheetImage h body) 24 2 = h.count :=
    hat (p := le 1 h.kind.code ++ le 1 h.cls ++ le 2 h.day ++ le 8 h.firstAccount ++ le 8 h.lastAccount ++ le 4 h.group)
      (by rw [hbytes]; simp only [List.append_assoc]; rfl) (by simp) hf.count
  have hlen : field (sheetImage h body) 26 2 = h.bodyLen :=
    hat (p := le 1 h.kind.code ++ le 1 h.cls ++ le 2 h.day ++ le 8 h.firstAccount ++ le 8 h.lastAccount ++ le 4 h.group ++ le 2 h.count)
      (by rw [hbytes]; simp only [List.append_assoc]; rfl) (by simp) hf.bodyLen
  have hcode : SheetKind.ofCode h.kind.code = some h.kind := by cases h.kind <;> rfl
  rw [readHeader, hkind, hcls, hday, hfirst, hlast, hgroup, hcount, hlen, hcode]
  rfl

/-- The parts of an image that the checksum is made over, and the checksum (R29). -/
theorem sheetImage_parts (h : Header) (body : Bytes) : slice (sheetImage h body) 0 28 = h.bytes ∧
    slice (sheetImage h body) Config.headerBytes body.length = body ∧ field (sheetImage h body) 28 4 = checksum (h.bytes ++ body) := by
  refine ⟨?_, ?_, ?_⟩
  · have himage : sheetImage h body = [] ++ (h.bytes ++ (le 4 (checksum (h.bytes ++ body)) ++ body)) := by
      simp only [sheetImage, List.append_assoc, List.nil_append]
    rw [himage]
    exact slice_append rfl h.length_bytes
  · have himage : sheetImage h body = (h.bytes ++ le 4 (checksum (h.bytes ++ body))) ++ (body ++ []) := by
      simp only [sheetImage, List.append_assoc, List.append_nil]
    rw [himage]
    exact slice_append (by simp [h.length_bytes, Config.headerBytes]) rfl
  · have himage : sheetImage h body = h.bytes ++ (le 4 (checksum (h.bytes ++ body)) ++ body) := by
      simp only [sheetImage, List.append_assoc]
    rw [himage]
    exact field_append h.length_bytes (checksum_lt _)

/-- Settles O59: the header by its places, the checksum over the same bytes, the records one after another. -/
theorem dataSheetsReadBackAsWritten : Obligations.DataSheetsReadBackAsWritten := by
  intro day cls group l hsheet hgroup
  simp only [sheetable, Bool.and_eq_true, decide_eq_true_eq, List.all_eq_true, and_assoc] at hsheet
  obtain ⟨hne, hcount, hbody, hrise, hall⟩ := hsheet
  obtain ⟨a, ha⟩ : ∃ a, l.head? = some a := ⟨_, List.head?_eq_some_head hne⟩
  obtain ⟨b, hb⟩ : ∃ b, l.getLast? = some b := ⟨_, List.getLast?_eq_some_getLast hne⟩
  have hpos := List.length_pos_of_ne_nil hne
  obtain ⟨haValid, haDay, haCls⟩ := hall a (List.mem_of_head? ha)
  obtain ⟨hbValid, -, -⟩ := hall b (List.mem_of_getLast? hb)
  obtain ⟨haAccount, -, -, haStart, -⟩ := Rec.valid_ranges haValid
  obtain ⟨hbAccount, -⟩ := Rec.valid_ranges hbValid
  obtain ⟨-, -, -, hclsLe⟩ := Rec.valid_rest haValid
  have hlen : (codeBody l).length = bodyLength l := length_codeFrom none fun r hr => (hall r hr).1
  rw [Config.maxAccount] at haAccount hbAccount
  rw [Config.bodyMax] at hbody
  rw [Config.sheetRecords] at hcount
  simp only [dayOf, Config.daySeconds] at haDay
  have himage : dataImage day cls group l =
      sheetImage ⟨.data, cls, day, a.account, b.account, group, l.length, bodyLength l⟩ (codeBody l) := by
    rw [dataImage, ha, hb, ← hlen]
    rfl
  obtain ⟨hheader, hslice, hsum⟩ :=
    sheetImage_parts ⟨.data, cls, day, a.account, b.account, group, l.length, bodyLength l⟩ (codeBody l)
  rw [hlen] at hslice
  have hrecs : readRecs day cls a.account l.length none (codeBody l) = some l :=
    readRecs_codeFrom l none hall hrise (fun _ h => by cases h) fun _ r hr => by
      obtain rfl : a = r := Option.some.inj (ha.symm.trans hr)
      rfl
  refine ⟨a, b, ha, hb, ?_⟩
  rw [himage]
  unfold readSheet
  refine bind_eq_of_some (readHeader_sheetImage ⟨?_, ?_, ?_, ?_, ?_, ?_, ?_⟩ _) ?_
  iterate 7 dsimp only; omega
  refine (if_neg (Nat.not_lt.mpr hbody)).trans ?_
  refine (if_neg ?_).trans ?_
  · rw [hheader, hslice, hsum]
    exact fun h => h rfl
  refine (if_neg ?_).trans ?_
  · simp only [Config.sheetRecords]
    omega
  refine bind_eq_of_some (a := l) ?_ ((if_neg ?_).trans rfl)
  · rw [hslice]
    exact hrecs
  · rw [hb]
    exact fun h => h rfl

end Sys2Proof.Machine
end

section
/-! SUPPORT. Sorting, and the DATA candidates of a day that resolution keeps: apart from each other, and a day that balances. -/

namespace Sys2Proof.Machine

/-! ## Sorting -/

section
variable {α : Type} {lt : α → α → Bool}

theorem insertBy_perm (a : α) (l : List α) : (insertBy lt a l).Perm (a :: l) := by
  induction l with
  | nil => exact .refl _
  | cons b l ih =>
    rw [insertBy]
    split
    · exact .refl _
    · exact (ih.cons b).trans (.swap a b l)

theorem sortBy_perm (l : List α) : (sortBy lt l).Perm l := by
  have hfold : ∀ acc : List α, (l.foldl (fun acc a => insertBy lt a acc) acc).Perm (acc ++ l) := by
    induction l with
    | nil => exact fun acc => by rw [List.append_nil]; exact .refl _
    | cons a l ih =>
      exact fun acc => (ih _).trans (((insertBy_perm a acc).append_right l).trans List.perm_middle.symm)
  exact hfold []

/-- What is sorted stands in any order that follows from `lt`, and from the places in the list where `lt` says nothing. -/
theorem sortBy_pairwise {P R : α → α → Prop} (hlater : ∀ a c, P c a → lt a c = false → R c a) (hlt : ∀ a b, lt a b = true → R a b)
    (htrans : ∀ a b c, lt a b = true → R b c → R a c) {l : List α} (hl : l.Pairwise P) : (sortBy lt l).Pairwise R := by
  have hinsert : ∀ (a : α) (acc : List α), acc.Pairwise R → (∀ c ∈ acc, P c a) → (insertBy lt a acc).Pairwise R := fun a acc => by
    induction acc with
    | nil => exact fun _ _ => List.pairwise_singleton _ _
    | cons b acc ih =>
      intro hacc hP
      obtain ⟨hb, hacc⟩ := List.pairwise_cons.mp hacc
      obtain ⟨hPb, hP⟩ := List.forall_mem_cons.mp hP
      rw [insertBy]
      split
      · next h =>
        refine List.pairwise_cons.mpr ⟨List.forall_mem_cons.mpr ⟨hlt a b h, fun c hc => htrans a b c h (hb c hc)⟩, ?_⟩
        exact List.pairwise_cons.mpr ⟨hb, hacc⟩
      · next h =>
        refine List.pairwise_cons.mpr ⟨fun c hc => ?_, ih hacc hP⟩
        rcases List.mem_cons.mp ((insertBy_perm a acc).mem_iff.mp hc) with rfl | hc
        · exact hlater c b hPb (Bool.eq_false_iff.mpr h)
        · exact hb c hc
  have hfold : ∀ acc : List α, acc.Pairwise R → (∀ c ∈ acc, ∀ a ∈ l, P c a) →
      (l.foldl (fun acc a => insertBy lt a acc) acc).Pairwise R := by
    induction l with
    | nil => exact fun acc h _ => h
    | cons a l ih =>
      obtain ⟨ha, hl⟩ := List.pairwise_cons.mp hl
      intro acc hacc hP
      refine ih hl _ (hinsert a acc hacc fun c hc => hP c hc a (List.mem_cons_self ..)) fun c hc b hb => ?_
      rcases List.mem_cons.mp ((insertBy_perm a acc).mem_iff.mp hc) with rfl | hc
      · exact ha b hb
      · exact hP c hc b (List.mem_cons_of_mem _ hb)
  exact hfold [] List.Pairwise.nil fun _ h => absurd h List.not_mem_nil

/-- A sorted list has nothing before what `lt` places before it. -/
theorem sortBy_sorted (hasymm : ∀ a b, lt a b = true → lt b a = false) (htrans : ∀ a b c, lt a b = true → lt b c = true → lt a c = true)
    (l : List α) : (sortBy lt l).Pairwise fun a b => lt b a = false :=
  sortBy_pairwise (P := fun _ _ => True) (fun _ _ _ h => h) hasymm
    (fun a b c hab hcb => Bool.eq_false_iff.mpr fun hca => by rw [htrans c a b hca hab] at hcb; exact Bool.noConfusion hcb)
    (List.pairwise_of_forall fun _ _ => trivial)

end

/-! ## Sums of triples -/

theorem Triple.add_left_comm (a b c : Triple) : a.add (b.add c) = b.add (a.add c) := by
  simp only [Triple.add, Int.add_left_comm]

theorem Triple.sum_perm {l m : List Triple} (h : l.Perm m) : Triple.sum l = Triple.sum m := by
  induction h with
  | nil => rfl
  | cons a _ ih => exact congrArg a.add ih
  | swap a b l => exact Triple.add_left_comm b a _
  | trans _ _ ih ih' => exact ih.trans ih'

/-! ## The candidates that stand -/

/-- What a day's summary leaves standing of its candidates (R179 steps 4 and 5). -/
def standsAfter (group : Nat) (ranges : List KeyRange) (c : DataCand) : Prop :=
  c.group ≤ group ∧ (c.group < group → ∀ r ∈ ranges, r.holds c = false)

theorem mem_standAfter {group : Nat} {ranges : List KeyRange} {l : List DataCand} {c : DataCand} :
    c ∈ standAfter group ranges l ↔ c ∈ l ∧ standsAfter group ranges c := by
  unfold standAfter standsAfter
  rw [List.mem_filter]
  refine and_congr_right fun _ => ?_
  by_cases h : c.group < group <;> simp [h]

theorem mem_newest {l : List DataCand} {c : DataCand} :
    c ∈ newest l ↔ c ∈ l ∧ ∀ b ∈ l, b.cls = c.cls → c.group < b.group → b.overlaps c = false := by
  unfold newest
  rw [List.mem_filter]
  refine and_congr_right fun _ => ?_
  simp

theorem DataCand.overlaps_comm (a b : DataCand) : a.overlaps b = b.overlaps a := Bool.and_comm _ _

/-- Copies of one sheet: of one class and group number, overlapping. -/
def DataCand.copyOf (b c : DataCand) : Prop := b.cls = c.cls ∧ b.group = c.group ∧ b.overlaps c = true

/-- Of copies the first stands (R179 step 7). -/
theorem firstCopies_spec (kept l : List DataCand) : ∃ more, firstCopies kept l = kept ++ more ∧ more.Sublist l ∧
    (kept.Pairwise (fun a b => ¬ a.copyOf b) → (kept ++ more).Pairwise fun a b => ¬ a.copyOf b) ∧
    ∀ c ∈ l, c ∉ kept ++ more → ∃ b ∈ kept ++ more, b.copyOf c ∧ (b ∈ kept ∨ [b, c].Sublist l) := by
  induction l generalizing kept with
  | nil => exact ⟨[], by simp [firstCopies], .slnil, fun h => by simpa using h, fun _ h => absurd h List.not_mem_nil⟩
  | cons a l ih =>
    have hcopy : (kept.any fun b => decide (b.cls = a.cls) && decide (b.group = a.group) && b.overlaps a) = true ↔
        ∃ b ∈ kept, b.copyOf a := by
      simp [DataCand.copyOf, and_assoc]
    rw [firstCopies]
    by_cases h : ∃ b ∈ kept, b.copyOf a
    · obtain ⟨more, heq, hsub, hpair, hgone⟩ := ih kept
      refine ⟨more, (if_pos (hcopy.mpr h)).trans heq, hsub.cons a, hpair, fun c hc hno => ?_⟩
      rcases List.mem_cons.mp hc with rfl | hc
      · obtain ⟨b, hb, hcopy⟩ := h
        exact ⟨b, List.mem_append.mpr (.inl hb), hcopy, .inl hb⟩
      · obtain ⟨b, hb, hcopy, hwhere⟩ := hgone c hc hno
        exact ⟨b, hb, hcopy, hwhere.imp_right fun hs => hs.cons a⟩
    · obtain ⟨more, heq, hsub, hpair, hgone⟩ := ih (kept ++ [a])
      have hassoc : kept ++ [a] ++ more = kept ++ a :: more := by simp
      rw [hassoc] at heq hpair hgone
      refine ⟨a :: more, (if_neg fun hany => h (hcopy.mp hany)).trans heq, hsub.cons_cons a, fun hkept => hpair ?_, fun c hc hno => ?_⟩
      · refine List.pairwise_append.mpr ⟨hkept, List.pairwise_singleton _ _, fun b hb c hc => ?_⟩
        obtain rfl := List.mem_singleton.mp hc
        exact fun hcopy => h ⟨b, hb, hcopy⟩
      · rcases List.mem_cons.mp hc with rfl | hrest
        · exact absurd (List.mem_append.mpr (.inr (List.mem_cons_self ..))) hno
        · obtain ⟨b, hb, hcopy, hwhere⟩ := hgone c hrest hno
          refine ⟨b, hb, hcopy, ?_⟩
          rcases hwhere with hkept | hs
          · rcases List.mem_append.mp hkept with hkept | hone
            · exact .inl hkept
            · obtain rfl := List.mem_singleton.mp hone
              exact .inr ((List.singleton_sublist.mpr hrest).cons_cons _)
          · exact .inr (hs.cons a)

section
variable {group : Nat} {ranges : List KeyRange} {l : List DataCand}

/-- The candidates kept, in their order, and those that are not. -/
theorem survivors_spec : (survivors group ranges l).Sublist l ∧
    (∀ c ∈ survivors group ranges l, standsAfter group ranges c ∧
      ∀ b ∈ l, standsAfter group ranges b → b.cls = c.cls → c.group < b.group → b.overlaps c = false) ∧
    (survivors group ranges l).Pairwise (fun a b => a.cls = b.cls → a.overlaps b = false) ∧
    ∀ c ∈ l, c ∉ survivors group ranges l → standsAfter group ranges c →
      (∃ b ∈ l, standsAfter group ranges b ∧ b.cls = c.cls ∧ c.group < b.group ∧ b.overlaps c = true) ∨
        ∃ b ∈ survivors group ranges l, b.cls = c.cls ∧ b.group = c.group ∧ b.overlaps c = true ∧ [b, c].Sublist l := by
  obtain ⟨more, heq, hsub, hpair, hgone⟩ := firstCopies_spec [] (newest (standAfter group ranges l))
  rw [List.nil_append] at heq hpair hgone
  have hkept : survivors group ranges l = more := heq
  have hnewest : (newest (standAfter group ranges l)).Sublist l := List.filter_sublist.trans List.filter_sublist
  rw [hkept]
  have hstands : ∀ c ∈ more, c ∈ l ∧ standsAfter group ranges c ∧
      ∀ b ∈ l, standsAfter group ranges b → b.cls = c.cls → c.group < b.group → b.overlaps c = false := fun c hc => by
    obtain ⟨hin, hnew⟩ := mem_newest.mp (hsub.subset hc)
    obtain ⟨hl, hstand⟩ := mem_standAfter.mp hin
    exact ⟨hl, hstand, fun b hb hs => hnew b (mem_standAfter.mpr ⟨hb, hs⟩)⟩
  refine ⟨hsub.trans hnewest, fun c hc => (hstands c hc).2, ?_, fun c hc hno hstand => ?_⟩
  · refine (hpair .nil).imp_of_mem fun {a b} ha hb hcopy hcls => Bool.eq_false_iff.mpr fun hover => ?_
    obtain ⟨hla, hsa, hna⟩ := hstands a ha
    obtain ⟨hlb, hsb, hnb⟩ := hstands b hb
    rcases Nat.lt_trichotomy a.group b.group with hlt | hsame | hgt
    · rw [DataCand.overlaps_comm, hna b hlb hsb hcls.symm hlt] at hover
      exact Bool.noConfusion hover
    · exact hcopy ⟨hcls, hsame, hover⟩
    · rw [hnb a hla hsa hcls hgt] at hover
      exact Bool.noConfusion hover
  · by_cases hin : c ∈ newest (standAfter group ranges l)
    · obtain ⟨b, hb, ⟨hcls, hgroup, hover⟩, hwhere⟩ := hgone c hin hno
      exact .inr ⟨b, hb, hcls, hgroup, hover, (hwhere.resolve_left List.not_mem_nil).trans hnewest⟩
    · rw [mem_newest] at hin
      push Not at hin
      obtain ⟨b, hb, hcls, hgroup, hover⟩ := hin (mem_standAfter.mpr ⟨hc, hstand⟩)
      obtain ⟨hb, hsb⟩ := mem_standAfter.mp hb
      exact .inl ⟨b, hb, hsb, hcls, hgroup, by simpa using hover⟩

end

/-! ## The day rebuilt -/

theorem runOrdered_of_pairwise {l : List Entry} (h : l.Pairwise fun a b => a.last.lt b.first = true) : runOrdered l := by
  induction l with
  | nil => trivial
  | cons a l ih =>
    obtain ⟨ha, hl⟩ := List.pairwise_cons.mp h
    cases l with
    | nil => trivial
    | cons b l => exact ⟨ha b (List.mem_cons_self ..), ih hl⟩

/-- The entries of one class among the candidates of a day. -/
def entriesOf (stood : List SheetRef) (d : Nat) (l : List DataCand) (c : Nat) : List Entry :=
  sortBy (fun a b => a.first.lt b.first) ((l.filter fun k => decide (k.cls = c)).map fun k => k.entry (stood.contains (k.ref d)))

theorem mem_runsOf {stood : List SheetRef} {d : Nat} {l : List DataCand} {run : Run} :
    run ∈ runsOf stood d l ↔ run.cls < 8 ∧ run.state = .live ∧ run.entries = entriesOf stood d l run.cls ∧ run.entries ≠ [] := by
  unfold runsOf
  rw [List.mem_filterMap]
  constructor
  · rintro ⟨c, hc, hrun⟩
    obtain ⟨hne, heq⟩ := Option.ite_none_left_eq_some.mp hrun
    obtain rfl := Option.some.inj heq
    exact ⟨List.mem_range.mp hc, rfl, rfl, hne⟩
  · rintro ⟨hcls, hstate, hentries, hne⟩
    rw [hentries] at hne
    refine ⟨run.cls, List.mem_range.mpr hcls, (if_neg hne).trans (congrArg some ?_)⟩
    obtain ⟨cls, state, entries⟩ := run
    obtain rfl : state = .live := hstate
    obtain rfl : entries = entriesOf stood d l cls := hentries
    rfl

/-- The candidates class by class. -/
theorem flatMap_filter_perm (l : List DataCand) (n : Nat) :
    ((List.range n).flatMap fun c => l.filter fun k => decide (k.cls = c)).Perm (l.filter fun k => decide (k.cls < n)) := by
  induction n with
  | zero => simp
  | succ n ih =>
    have hsplit := List.filter_append_perm (fun k : DataCand => decide (k.cls < n)) (l.filter fun k => decide (k.cls < n + 1))
    rw [List.range_succ, List.flatMap_append, List.flatMap_singleton]
    refine (ih.append_right _).trans (.trans (.of_eq ?_) hsplit)
    simp only [List.filter_filter]
    refine congrArg₂ (· ++ ·) (List.filter_congr fun k _ => ?_) (List.filter_congr fun k _ => ?_)
    · rw [← Bool.decide_and]
      exact decide_eq_decide.mpr (by omega)
    · rw [← decide_not, ← Bool.decide_and]
      exact decide_eq_decide.mpr (by omega)

theorem flatMap_entries_filterMap (f : Nat → List Entry) (cs : List Nat) :
    ((cs.filterMap fun c => if f c = [] then none else some (⟨c, .live, f c⟩ : Run)).flatMap fun run => run.entries) = cs.flatMap f := by
  induction cs with
  | nil => rfl
  | cons c cs ih =>
    by_cases h : f c = [] <;> simp [h, ih]

/-- The entries of a rebuilt day are those of the candidates kept. -/
theorem runsOf_entries_perm {stood : List SheetRef} {d : Nat} {l : List DataCand} (hl : ∀ c ∈ l, c.cls < 8) :
    ((runsOf stood d l).flatMap fun run => run.entries).Perm (l.map fun k => k.entry (stood.contains (k.ref d))) := by
  have hsorted : ∀ cs : List Nat, (cs.flatMap (entriesOf stood d l)).Perm
      ((cs.flatMap fun c => l.filter fun k => decide (k.cls = c)).map fun k => k.entry (stood.contains (k.ref d))) := fun cs => by
    induction cs with
    | nil => exact .refl _
    | cons c cs ih =>
      rw [List.flatMap_cons, List.flatMap_cons, List.map_append]
      exact (sortBy_perm _).append ih
  have hall : l.filter (fun k => decide (k.cls < 8)) = l := List.filter_eq_self.mpr fun c hc => decide_eq_true (hl c hc)
  have hclasses := flatMap_filter_perm l 8
  rw [hall] at hclasses
  exact (List.Perm.of_eq (flatMap_entries_filterMap (entriesOf stood d l) (List.range 8))).trans
    ((hsorted (List.range 8)).trans (hclasses.map _))

theorem DataCand.apart_entries {a b : DataCand} {q q' : Bool} (hb : b.first.atMost b.last = true) (hover : a.overlaps b = false)
    (horder : b.first.lt a.first = false) : (a.entry q).last.lt (b.entry q').first = true := by
  have hle : a.first.atMost b.last = true := by
    simp only [Key.atMost, Bool.not_eq_true'] at hb ⊢
    exact Key.not_lt_trans horder hb
  rw [DataCand.overlaps, hle, Bool.true_and] at hover
  simpa [Key.atMost, DataCand.entry] using hover

/-- The sheets of one class stand in key order, none overlapping the next. -/
theorem runOrdered_entriesOf {stood : List SheetRef} {d : Nat} {l : List DataCand} (c : Nat)
    (hl : ∀ c ∈ l, c.first.atMost c.last = true) (hpair : l.Pairwise fun a b => a.cls = b.cls → a.overlaps b = false) :
    runOrdered (entriesOf stood d l c) := by
  have hsorted : (entriesOf stood d l c).Pairwise fun a b => b.first.lt a.first = false :=
    sortBy_sorted (lt := fun a b : Entry => a.first.lt b.first) (fun a b h => Bool.eq_false_iff.mpr fun h' => by
      have hirr := Key.lt_trans h h'
      rw [Key.lt_irrefl] at hirr
      exact Bool.noConfusion hirr) (fun _ _ _ => Key.lt_trans) _
  have hmine : ((l.filter fun k => decide (k.cls = c)).map fun k => k.entry (stood.contains (k.ref d))).Pairwise
      fun a b => (b.first.lt a.first = false → a.last.lt b.first = true) ∧ (a.first.lt b.first = false → b.last.lt a.first = true) := by
    refine List.pairwise_map.mpr ((hpair.filter _).imp_of_mem fun {a b} ha hb hover => ?_)
    obtain ⟨ha, hca⟩ := List.mem_filter.mp ha
    obtain ⟨hb, hcb⟩ := List.mem_filter.mp hb
    have hover := hover ((of_decide_eq_true hca).trans (of_decide_eq_true hcb).symm)
    exact ⟨DataCand.apart_entries (hl b hb) hover, DataCand.apart_entries (hl a ha) (by rw [DataCand.overlaps_comm]; exact hover)⟩
  have happart := (sortBy_perm (lt := fun a b : Entry => a.first.lt b.first) _).symm.pairwise hmine fun {a b} h => ⟨h.2, h.1⟩
  exact runOrdered_of_pairwise ((hsorted.and happart).imp fun h => h.2.1 h.1)

/-- A rebuilt day: its runs, its balance, and each candidate kept with its place. -/
theorem rebuiltDay_spec (stood : List SheetRef) (d : Nat) (slot : SlotAddr) (group : Nat) (sum : Summary) {l : List DataCand}
    (hl : ∀ c ∈ l, c.cls < 8 ∧ c.first.atMost c.last = true) (hpair : l.Pairwise fun a b => a.cls = b.cls → a.overlaps b = false) :
    let day := rebuiltDay stood d slot group sum l
    (∀ run ∈ day.runs, runOrdered run.entries) ∧ day.conserved ∧
    (∀ c ∈ l, ∃ run ∈ day.runs, run.cls = c.cls ∧ run.state = .live ∧
      ⟨c.first, c.last, c.totals, c.bodyLen, c.slot, c.group, decide (⟨d, c.cls, c.first, c.group⟩ ∈ stood), none, false⟩ ∈ run.entries) ∧
    (day.runs.map fun run => run.entries.length).sum = l.length := by
  intro day
  have hperm := runsOf_entries_perm (stood := stood) (d := d) fun c hc => (hl c hc).1
  refine ⟨fun run hrun => ?_, ?_, fun c hc => ?_, ?_⟩
  · obtain ⟨-, -, hentries, -⟩ := mem_runsOf.mp hrun
    rw [hentries]
    exact runOrdered_entriesOf _ (fun c hc => (hl c hc).2) hpair
  · have hheld : indexTotals day.entries = Triple.sum (l.map fun c => c.totals) := by
      refine (Triple.sum_perm (hperm.map _)).trans ?_
      rw [List.map_map]
      rfl
    rw [DayEntry.conserved, hheld]
    show ((Triple.sum (l.map fun c => c.totals)).add .zero).add .zero =
      ((((((Triple.sum (l.map fun c => c.totals)).add sum.retired).add sum.voided).sub sum.corr).sub sum.retired).sub sum.voided).add
        sum.corr
    simp only [Triple.add, Triple.sub, Triple.zero, Triple.mk.injEq]
    omega
  · have hin : c.entry (stood.contains (c.ref d)) ∈ entriesOf stood d l c.cls :=
      (sortBy_perm _).mem_iff.mpr (List.mem_map.mpr ⟨c, List.mem_filter.mpr ⟨hc, decide_eq_true rfl⟩, rfl⟩)
    refine ⟨⟨c.cls, .live, entriesOf stood d l c.cls⟩, mem_runsOf.mpr ⟨(hl c hc).1, rfl, rfl, List.ne_nil_of_mem hin⟩, rfl, rfl, ?_⟩
    have hflag : stood.contains (c.ref d) = decide ((⟨d, c.cls, c.first, c.group⟩ : SheetRef) ∈ stood) := by
      rw [List.contains_eq_mem]
      rfl
    rw [← hflag]
    exact hin
  · have hlen := hperm.length_eq
    rw [List.length_flatMap, List.length_map] at hlen
    exact hlen

end Sys2Proof.Machine
end

section
/-! SUPPORT. The resolution of a day, and the resolution event: the days that stand, the slots voided, and what else it leaves. -/

namespace Sys2Proof.Machine

/-! ## The resolution of a day -/

theorem firstMax_append {α : Type} {f : α → Nat} {before after : List α} {a : α} (hbefore : ∀ q ∈ before, f q < f a)
    (hafter : ∀ q ∈ after, f q ≤ f a) : firstMax f (before ++ a :: after) = some a := by
  induction before with
  | nil =>
    rw [List.nil_append, firstMax]
    split
    · rfl
    · next b h => exact if_pos (hafter b (mem_of_firstMax h))
  | cons c before ih =>
    obtain ⟨hc, hbefore⟩ := List.forall_mem_cons.mp hbefore
    rw [List.cons_append, firstMax, ih hbefore]
    exact if_neg (Nat.not_le.mpr hc)

/-- A day resolved by its summary, the first of the highest number. -/
theorem resolveDay_spec (stood : List SheetRef) (d : Nat) (cands : List Cand) :
    (summariesOf d cands = [] → resolveDay stood d cands = (none, [])) ∧
    ∀ (slot : SlotAddr) (group : Nat) (sum : Summary) (before after : List (SlotAddr × Nat × Summary)),
      summariesOf d cands = before ++ (slot, group, sum) :: after → (∀ q ∈ before, q.2.1 < group) → (∀ q ∈ after, q.2.1 ≤ group) →
      (sum.gone = true → resolveDay stood d cands = (none, [])) ∧
      (sum.gone = false →
        let kept := survivors group sum.ranges (dataOf d cands)
        resolveDay stood d cands = (some (rebuiltDay stood d slot group sum kept), slot :: kept.map fun c => c.slot)) := by
  refine ⟨fun hnone => by rw [resolveDay, hnone]; rfl, fun slot group sum before after heq hbefore hafter => ?_⟩
  have hmax : firstMax (fun s : SlotAddr × Nat × Summary => s.2.1) (summariesOf d cands) = some (slot, group, sum) := by
    rw [heq]
    exact firstMax_append hbefore hafter
  rw [resolveDay, hmax]
  exact ⟨fun hgone => if_pos hgone, fun hgone => if_neg (by simp [hgone])⟩

/-- The day of a DATA or SUMMARY candidate. -/
def CandContent.day : CandContent → Option Nat
  | .data day _ _ _ _ _ _ => some day
  | .summary day _ _ => some day
  | .hold _ _ _ _ => none

theorem mem_summariesOf {d : Nat} {cands : List Cand} {q : SlotAddr × Nat × Summary} (h : q ∈ summariesOf d cands) :
    ∃ c ∈ cands, c.slot = q.1 ∧ c.content.day = some d := by
  obtain ⟨⟨slot, content⟩, hc, hq⟩ := List.mem_filterMap.mp h
  cases content with
  | summary day group body =>
    obtain ⟨hday, heq⟩ := Option.ite_none_right_eq_some.mp hq
    obtain rfl := Option.some.inj heq
    exact ⟨_, hc, rfl, congrArg some hday⟩
  | data => cases hq
  | hold => cases hq

theorem mem_dataOf {d : Nat} {cands : List Cand} {q : DataCand} (h : q ∈ dataOf d cands) :
    ∃ c ∈ cands, c.slot = q.slot ∧ c.content.day = some d := by
  obtain ⟨⟨slot, content⟩, hc, hq⟩ := List.mem_filterMap.mp h
  cases content with
  | data day cls first last totals len group =>
    obtain ⟨hday, heq⟩ := Option.ite_none_right_eq_some.mp hq
    obtain rfl := Option.some.inj heq
    exact ⟨_, hc, rfl, congrArg some hday⟩
  | summary => cases hq
  | hold => cases hq

/-- A day that stands has candidates of its own, at the slots that stand with it. -/
theorem resolveDay_slots {stood : List SheetRef} {d : Nat} {cands : List Cand} {s : SlotAddr} (h : s ∈ (resolveDay stood d cands).2) :
    ∃ c ∈ cands, c.slot = s ∧ c.content.day = some d := by
  unfold resolveDay at h
  split at h
  · exact absurd h List.not_mem_nil
  · next slot group sum hmax =>
    split at h
    · exact absurd h List.not_mem_nil
    · rcases List.mem_cons.mp h with rfl | h
      · exact mem_summariesOf (mem_of_firstMax hmax)
      · obtain ⟨q, hq, rfl⟩ := List.mem_map.mp h
        obtain ⟨hsub, -⟩ := survivors_spec (group := group) (ranges := sum.ranges) (l := dataOf d cands)
        exact mem_dataOf (hsub.subset hq)

/-- A day with no candidate does not stand. -/
theorem resolveDay_of_none {stood : List SheetRef} {d : Nat} {cands : List Cand} (h : ∀ c ∈ cands, c.content.day ≠ some d) :
    (resolveDay stood d cands).1 = none := by
  have hnone : summariesOf d cands = [] := List.eq_nil_iff_forall_not_mem.mpr fun q hq => by
    obtain ⟨c, hc, -, hday⟩ := mem_summariesOf hq
    exact h c hc hday
  rw [(resolveDay_spec stood d cands).1 hnone]

/-! ## The days of the candidates -/

theorem keys_tblPut {α : Type} (k : Nat) (a : α) (t : Tbl α) (d : Nat) : d ∈ (tblPut k a t).map (·.1) ↔ d = k ∨ d ∈ t.map (·.1) := by
  induction t with
  | nil => simp [tblPut]
  | cons q t ih =>
    obtain ⟨j, b⟩ := q
    rw [tblPut]
    split
    · simp
    · split
      · next h => subst h; simp
      · simp only [List.map_cons, List.mem_cons, ih]
        tauto

theorem keys_nodup {α : Type} {t : Tbl α} (h : tblSorted t = true) : (t.map (·.1)).Nodup := by
  induction t with
  | nil => exact .nil
  | cons q t ih =>
    obtain ⟨j, b⟩ := q
    obtain ⟨hj, ht⟩ := (tblSorted_cons j b t).mp h
    refine List.nodup_cons.mpr ⟨fun hin => ?_, ih ht⟩
    obtain ⟨p, hp, rfl⟩ := List.mem_map.mp hin
    exact absurd (hj p hp) (Nat.lt_irrefl _)

/-- The days of some candidates: each once, and no other. -/
theorem candDays_spec (cands : List Cand) : (candDays cands).Nodup ∧ ∀ d, d ∈ candDays cands ↔ ∃ c ∈ cands, c.content.day = some d := by
  have hfold : ∀ (days : List Nat) (t : Tbl Unit), tblSorted t = true →
      tblSorted (days.foldl (fun t d => tblPut d () t) t) = true ∧
      ∀ d, d ∈ (days.foldl (fun t d => tblPut d () t) t).map (·.1) ↔ d ∈ t.map (·.1) ∨ d ∈ days := fun days => by
    induction days with
    | nil => exact fun t ht => ⟨ht, fun d => by simp⟩
    | cons e days ih =>
      intro t ht
      obtain ⟨hsorted, hmem⟩ := ih (tblPut e () t) (tblPut_sorted e () t ht)
      refine ⟨hsorted, fun d => (hmem d).trans ?_⟩
      rw [keys_tblPut, List.mem_cons]
      tauto
  obtain ⟨hsorted, hmem⟩ := hfold (cands.filterMap fun c => c.content.day) [] rfl
  have hdays : candDays cands = ((cands.filterMap fun c => c.content.day).foldl (fun t d => tblPut d () t) ([] : Tbl Unit)).map (·.1) := by
    unfold candDays
    dsimp only
    congr 2
  rw [hdays]
  exact ⟨keys_nodup hsorted, fun d => by simp [hmem d]⟩

/-- A table made of the keys of a list: what a key has, when it stands in the list. -/
theorem tblGet_filterMap {α : Type} (f : Nat → Option α) (ks : List Nat) (d : Nat) :
    tblGet d (ks.filterMap fun k => (f k).map fun a => (k, a)) = if d ∈ ks then f d else none := by
  induction ks with
  | nil => rfl
  | cons k ks ih =>
    rw [List.filterMap_cons]
    by_cases hk : k = d
    · subst hk
      rw [if_pos (List.mem_cons_self ..)]
      cases hf : f k with
      | none =>
        simp only [Option.map_none, ih]
        split
        · exact hf
        · rfl
      | some a => exact if_pos rfl
    · have hin : (d ∈ k :: ks) ↔ d ∈ ks := by
        rw [List.mem_cons]
        exact or_iff_right (Ne.symm hk)
      simp only [hin, ← ih]
      cases f k with
      | none => rfl
      | some a => exact if_neg hk

/-! ## The candidates in scan order -/

theorem slotLt_asymm {a b : SlotAddr} (h : slotLt a b = true) : slotLt b a = false := by
  simp only [slotLt, Bool.or_eq_true, Bool.and_eq_true, decide_eq_true_eq, Bool.or_eq_false_iff, Bool.and_eq_false_iff,
    decide_eq_false_iff_not] at h ⊢
  omega

theorem slotLt_trans {a b c : SlotAddr} (h : slotLt a b = true) (h' : slotLt b c = true) : slotLt a c = true := by
  simp only [slotLt, Bool.or_eq_true, Bool.and_eq_true, decide_eq_true_eq] at h h' ⊢
  omega

theorem slotLt_or_slotLt {cands : List Cand} (h : cands.Pairwise fun a b => slotLt a.slot b.slot = true) {a b : Cand} (ha : a ∈ cands)
    (hb : b ∈ cands) (hne : a ≠ b) : slotLt a.slot b.slot = true ∨ slotLt b.slot a.slot = true := by
  induction cands with
  | nil => cases ha
  | cons c cands ih =>
    obtain ⟨hc, h⟩ := List.pairwise_cons.mp h
    rcases List.mem_cons.mp ha with rfl | hat
    · rcases List.mem_cons.mp hb with rfl | hbt
      · exact absurd rfl hne
      · exact .inl (hc b hbt)
    · rcases List.mem_cons.mp hb with rfl | hbt
      · exact .inr (hc a hat)
      · exact ih h hat hbt

/-- Two candidates of a list in scan order at one slot are one. -/
theorem eq_of_slot_eq {cands : List Cand} (h : cands.Pairwise fun a b => slotLt a.slot b.slot = true) {a b : Cand} (ha : a ∈ cands)
    (hb : b ∈ cands) (hslot : a.slot = b.slot) : a = b := by
  by_contra hne
  have hcomp := slotLt_or_slotLt h ha hb hne
  rw [hslot, or_self] at hcomp
  have hirr := slotLt_asymm hcomp
  rw [hcomp] at hirr
  exact Bool.noConfusion hirr

/-- Candidates in scan order are what sorting any arrangement of them gives. -/
theorem sortBy_eq_of_perm {cands l : List Cand} (hperm : cands.Perm l) (h : cands.Pairwise fun a b => slotLt a.slot b.slot = true) :
    sortBy (fun a b => slotLt a.slot b.slot) l = cands := by
  have hsort := sortBy_perm (lt := fun a b : Cand => slotLt a.slot b.slot) l
  have hsorted := sortBy_sorted (lt := fun a b : Cand => slotLt a.slot b.slot) (fun _ _ => slotLt_asymm) (fun _ _ _ => slotLt_trans) l
  refine List.Perm.eq_of_pairwise (fun a b ha hb hab hba => ?_) hsorted (h.imp slotLt_asymm) (hsort.trans hperm.symm)
  have ha := hperm.mem_iff.mpr (hsort.mem_iff.mp ha)
  by_contra hne
  have hcomp := slotLt_or_slotLt h ha hb hne
  rw [hab, hba] at hcomp
  exact hcomp.elim Bool.noConfusion Bool.noConfusion

/-! ## The end of the rebuild -/

/-- The tests of the space notices change the array and the port. -/
theorem Works.lowTest_frame (x : Ctx) (w : Works) (mc : Fin 4) : ∃ array port, w.lowTest x mc = { w with array := array, port := port } := by
  unfold Works.lowTest
  dsimp only
  split
  · exact ⟨_, _, rfl⟩
  · split
    · rw [Works.notice_eq]
      exact ⟨_, _, rfl⟩
    · split <;> exact ⟨_, _, rfl⟩

theorem Works.fullTest_frame (x : Ctx) (w : Works) : ∃ array port, w.fullTest x = { w with array := array, port := port } := by
  unfold Works.fullTest
  split
  · exact ⟨_, _, rfl⟩
  · split
    · split
      · rw [Works.notice_eq]
        exact ⟨_, _, rfl⟩
      · exact ⟨_, _, rfl⟩
    · exact ⟨_, _, rfl⟩

/-- A channel's CLEAR_SPACE_LOW armed and then tested. -/
def Works.armLow (x : Ctx) (w : Works) (mc : Fin 4) : Works := (w.mapChan mc fun c => { c with lowArmed := true }).lowTest x mc

theorem Works.armLows_frame (x : Ctx) (l : List (Fin 4)) (w : Works) :
    ∃ array port, l.foldl (fun w mc => w.armLow x mc) w = { w with array := array, port := port } := by
  induction l generalizing w with
  | nil => exact ⟨_, _, rfl⟩
  | cons mc l ih =>
    obtain ⟨array, port, hone⟩ := (w.mapChan mc fun c => { c with lowArmed := true }).lowTest_frame x mc
    obtain ⟨array', port', hrest⟩ := ih (w.armLow x mc)
    refine ⟨array', port', ?_⟩
    rw [List.foldl_cons, hrest, Works.armLow, hone]
    rfl

/-- The configured media channels. -/
def configured (x : Ctx) : List (Fin 4) := channels.filter fun mc => decide (0 < (x.set.media.get mc).extents)

/-- The part as the end of the rebuild begins: RUNNING, the scrub timer from now, the owed rewrites asked for. -/
def Works.ended (x : Ctx) (w : Works) : Works :=
  { w with
    part := .running, array := { w.array with fullArmed := true }, scrub := { w.scrub with timerFrom := x.clock }
    tasks := w.tasks ++ (w.retention.ranges.filter fun r => r.owed).map fun r => .holdStart r.lo }

theorem Works.rebuildEnd_eq (x : Ctx) (w : Works) : w.rebuildEnd x =
    let u := ((configured x).foldl (fun w mc => w.armLow x mc) (w.ended x)).fullTest x
    { u with
      tasks := u.tasks ++ (configured x).map fun mc => .relocationTest mc
      port := u.port.noticed x .rebuildDone (.rebuildDone u.rebuild.counts) } := by
  unfold Works.rebuildEnd
  dsimp only
  rw [Works.notice_eq]
  rfl

/-- What the end of the rebuild leaves as it was. -/
theorem Works.rebuildEnd_frame (x : Ctx) (w : Works) : ∃ array port, w.rebuildEnd x =
    { w with part := .running, array := array, port := port, scrub := { w.scrub with timerFrom := x.clock }
             tasks := w.tasks ++ ((w.retention.ranges.filter fun r => r.owed).map fun r => .holdStart r.lo) ++
               (configured x).map fun mc => .relocationTest mc } := by
  obtain ⟨array, port, hlow⟩ := Works.armLows_frame x (configured x) (w.ended x)
  obtain ⟨array', port', hfull⟩ := ((configured x).foldl (fun w mc => w.armLow x mc) (w.ended x)).fullTest_frame x
  rw [Works.rebuildEnd_eq, hfull, hlow]
  exact ⟨_, _, rfl⟩

/-! ## The resolution event -/

theorem Works.voidMarks_frame (l : List SlotAddr) (who : VoidOwner) (w : Works) :
    (∃ tasks serial array, l.foldl (fun w s => w.voidMark s who) w = { w with tasks := tasks, serial := serial, array := array }) ∧
      ∀ v : Works, v.array = w.array → v.serial = w.serial →
        (l.foldl (fun w s => w.voidMark s who) v).array = (l.foldl (fun w s => w.voidMark s who) w).array := by
  have hserial : ∀ (a : SlotAddr) (v w : Works), v.array = w.array → v.serial = w.serial →
      (v.voidMark a who).serial = (w.voidMark a who).serial := fun a v w harray hserial => by
    have hchan : v.chan a.ch = w.chan a.ch := by rw [Works.chan, harray]; rfl
    simp only [Works.voidMark, hchan]
    split
    · exact hserial
    · split
      · exact hserial
      · split
        · exact congrArg (· + 1) hserial
        · exact hserial
  induction l generalizing w with
  | nil => exact ⟨⟨_, _, _, rfl⟩, fun _ harray _ => harray⟩
  | cons a l ih =>
    obtain ⟨⟨more, serial, array, hone⟩, hsame⟩ := w.voidMark_frame a who
    obtain ⟨⟨tasks, serial', array', hrest⟩, hsames⟩ := ih (w.voidMark a who)
    refine ⟨⟨tasks, serial', array', ?_⟩, fun v harray hs => hsames _ (hsame v harray hs) (hserial a v w harray hs)⟩
    rw [List.foldl_cons, hrest, hone]

theorem Works.dayNotices_frame (x : Ctx) (l : Tbl DayEntry) (w : Works) :
    ∃ port, l.foldl (fun w p => w.notice x .rebuildDiscrepancy (.day p.1)) w = { w with port := port } := by
  induction l generalizing w with
  | nil => exact ⟨_, rfl⟩
  | cons p l ih =>
    obtain ⟨port, hrest⟩ := ih (w.notice x .rebuildDiscrepancy (.day p.1))
    refine ⟨port, ?_⟩
    rw [List.foldl_cons, hrest, Works.notice_eq]

/-- The days that stand. -/
def standingDays (stood : List SheetRef) (cands : List Cand) : Tbl DayEntry :=
  (candDays cands).filterMap fun d => (resolveDay stood d cands).1.map fun e => (d, e)

/-- The slots that resolution voids. -/
def voidedSlots (x : Ctx) (stood : List SheetRef) (cands : List Cand) : List SlotAddr :=
  (cands.filter fun c => decide (c.content.kind ≠ .hold) &&
    !(((candDays cands).flatMap fun d => (resolveDay stood d cands).2).contains c.slot)).map (fun c => c.slot) ++
    (rebuiltRetention x.today cands).2

/-- The part with the resolution's days, retention and counts, its notices raised, before its void marks are asked. -/
def Works.resolving (x : Ctx) (w : Works) (cands : List Cand) : Works :=
  let kept := standingDays w.rebuild.stood cands
  let given := rebuiltRetention x.today cands
  let voided := voidedSlots x w.rebuild.stood cands
  let counts : RebuildCounts :=
    { w.rebuild.counts with
      days := kept.length, discrepant := kept.countP fun p => p.2.discrepant, voided := voided.length,
      kept := (kept.map fun p => p.2.entries.length).sum, holds := given.1.holds.length }
  (kept.filter fun p => p.2.discrepant).foldl (fun w p => w.notice x .rebuildDiscrepancy (.day p.1))
    { w with
      days := kept, retention := given.1
      rebuild := { w.rebuild with cands := [], resolved := true, marks := w.rebuild.marks + voided.length, counts := counts } }

theorem Works.resolve_eq {x : Ctx} {w : Works} {cands : List Cand} (hpart : w.part = .rebuilding) (hres : w.rebuild.resolved = false)
    (hcands : sortBy (fun a b => slotLt a.slot b.slot) w.rebuild.cands = cands) :
    w.resolve x =
      ((voidedSlots x w.rebuild.stood cands).foldl (fun w s => w.voidMark s .rebuild) (w.resolving x cands)).rebuildTest x := by
  have hgo : ¬ (w.rebuild.resolved || decide (w.part ≠ .rebuilding)) = true := by simp [hpart, hres]
  unfold Works.resolve Works.resolving voidedSlots standingDays
  rw [if_neg hgo]
  simp only [hcands, List.filterMap_map, List.flatMap_map, Function.comp_def]
  rfl

theorem Works.resolving_frame (x : Ctx) (w : Works) (cands : List Cand) : ∃ counts port, w.resolving x cands =
    { w with
      days := standingDays w.rebuild.stood cands, retention := (rebuiltRetention x.today cands).1, port := port
      rebuild := { w.rebuild with
        cands := [], resolved := true, marks := w.rebuild.marks + (voidedSlots x w.rebuild.stood cands).length, counts := counts } } := by
  unfold Works.resolving
  dsimp only
  obtain ⟨port, hnotices⟩ := Works.dayNotices_frame x ((standingDays w.rebuild.stood cands).filter fun p => p.2.discrepant) _
  rw [hnotices]
  exact ⟨_, _, rfl⟩

/-- The days of the table that resolution makes. -/
theorem tblGet_standingDays (stood : List SheetRef) (cands : List Cand) (d : Nat) :
    tblGet d (standingDays stood cands) = (resolveDay stood d cands).1 := by
  refine (tblGet_filterMap (fun d => (resolveDay stood d cands).1) (candDays cands) d).trans ?_
  split
  · rfl
  · next h =>
    refine (resolveDay_of_none fun c hc hday => h ?_).symm
    exact ((candDays_spec cands).2 d).mpr ⟨c, hc, hday⟩

/-- A candidate of a day fails when it does not stand with its own day. -/
theorem stands_iff {stood : List SheetRef} {cands : List Cand} (h : cands.Pairwise fun a b => slotLt a.slot b.slot = true) {c : Cand}
    (hc : c ∈ cands) {d : Nat} (hday : c.content.day = some d) :
    c.slot ∈ (candDays cands).flatMap (fun d => (resolveDay stood d cands).2) ↔ c.slot ∈ (resolveDay stood d cands).2 := by
  rw [List.mem_flatMap]
  constructor
  · rintro ⟨e, -, hin⟩
    obtain ⟨b, hb, hslot, hbday⟩ := resolveDay_slots hin
    obtain rfl := eq_of_slot_eq h hb hc hslot
    obtain rfl := Option.some.inj (hbday.symm.trans hday)
    exact hin
  · exact fun hin => ⟨d, ((candDays_spec cands).2 d).mpr ⟨c, hc, hday⟩, hin⟩

/-- Whether a candidate of a day does not stand with it. -/
def Cand.fails (stood : List SheetRef) (cands : List Cand) (c : Cand) : Bool :=
  match c.content with
  | .data day _ _ _ _ _ _ => !((resolveDay stood day cands).2.contains c.slot)
  | .summary day _ _ => !((resolveDay stood day cands).2.contains c.slot)
  | .hold _ _ _ _ => false

theorem voidedSlots_eq (x : Ctx) (stood : List SheetRef) {cands : List Cand}
    (h : cands.Pairwise fun a b => slotLt a.slot b.slot = true) :
    voidedSlots x stood cands = (cands.filter (Cand.fails stood cands)).map (fun c => c.slot) ++ (rebuiltRetention x.today cands).2 := by
  unfold voidedSlots
  refine congrArg (fun l : List Cand => l.map (fun c => c.slot) ++ (rebuiltRetention x.today cands).2)
    (List.filter_congr fun c hc => ?_)
  have hstands : ∀ d, c.content.day = some d →
      ((candDays cands).flatMap fun d => (resolveDay stood d cands).2).contains c.slot = (resolveDay stood d cands).2.contains c.slot :=
    fun d hday => by
      simp only [List.contains_eq_mem]
      exact decide_eq_decide.mpr (stands_iff h hc hday)
  obtain ⟨slot, content⟩ := c
  cases content with
  | data day => exact congrArg not (hstands day rfl)
  | summary day => exact congrArg not (hstands day rfl)
  | hold => rfl

/-- The resolution event: the days, the Hold Table, the void marks asked and counted. -/
theorem Works.resolve_spec {x : Ctx} {w : Works} {cands : List Cand} (hpart : w.part = .rebuilding) (hres : w.rebuild.resolved = false)
    (hperm : cands.Perm w.rebuild.cands) (h : cands.Pairwise fun a b => slotLt a.slot b.slot = true) :
    let t := w.resolve x
    let voided := (cands.filter (Cand.fails w.rebuild.stood cands)).map (fun c => c.slot) ++ (rebuiltRetention x.today cands).2
    (∀ d, t.day d = (resolveDay w.rebuild.stood d cands).1) ∧ t.retention = (rebuiltRetention x.today cands).1 ∧
    t.rebuild.resolved = true ∧ t.rebuild.marks = w.rebuild.marks + voided.length ∧
    (voided ≠ [] → t.part = .rebuilding ∧ t.array = (voided.foldl (fun w s => w.voidMark s .rebuild) w).array) := by
  intro t voided
  have hvoided : voidedSlots x w.rebuild.stood cands = voided := voidedSlots_eq x _ h
  obtain ⟨counts, port, hresolving⟩ := w.resolving_frame x cands
  obtain ⟨⟨tasks, serial, array, hmarks⟩, hsame⟩ := Works.voidMarks_frame voided .rebuild w
  obtain ⟨⟨tasks', serial', array', hmarks'⟩, -⟩ := Works.voidMarks_frame voided .rebuild (w.resolving x cands)
  have harray : array' = array := by
    have := hsame (w.resolving x cands) (by rw [hresolving]) (by rw [hresolving])
    rw [hmarks', hmarks] at this
    exact this
  have ht : t = Works.rebuildTest x { w.resolving x cands with tasks := tasks', serial := serial', array := array' } := by
    rw [← hmarks', ← hvoided]
    exact Works.resolve_eq hpart hres (sortBy_eq_of_perm hperm h)
  rw [hresolving, hvoided] at ht
  have hdays : ∀ d, tblGet d (standingDays w.rebuild.stood cands) = (resolveDay w.rebuild.stood d cands).1 :=
    tblGet_standingDays _ _
  have hkept : t.days = standingDays w.rebuild.stood cands ∧ t.retention = (rebuiltRetention x.today cands).1 ∧
      t.rebuild.resolved = true ∧ t.rebuild.marks = w.rebuild.marks + voided.length := by
    rw [ht, Works.rebuildTest]
    split
    · obtain ⟨array, port, hend⟩ := Works.rebuildEnd_frame x _
      rw [hend]
      exact ⟨rfl, rfl, rfl, rfl⟩
    · exact ⟨rfl, rfl, rfl, rfl⟩
  obtain ⟨hdays', hretention, hresolved, hcount⟩ := hkept
  refine ⟨fun d => ?_, hretention, hresolved, hcount, fun hne => ?_⟩
  · rw [Works.day, hdays', hdays]
  · have hpos : w.rebuild.marks + voided.length ≠ 0 := by
      have := List.length_pos_of_ne_nil hne
      omega
    rw [ht, Works.rebuildTest, if_neg fun h => hpos (of_decide_eq_true ((Bool.and_eq_true _ _).mp h).2)]
    exact ⟨hpart, by rw [harray, hmarks]⟩

end Sys2Proof.Machine
end

section
/-! SUPPORT. The resolution of HOLD candidates: the accounts a span keeps outside newer ones, the ranges that stand, the gaps filled. -/

namespace Sys2Proof.Machine

/-! ## Spans outside newer spans -/

/-- An account lies in a span. -/
def inSpan (s : Nat × Nat) (a : Nat) : Prop := s.1 ≤ a ∧ a ≤ s.2

/-- Two spans have no account in common. -/
def spansApart (s t : Nat × Nat) : Prop := s.2 < t.1 ∨ t.2 < s.1

theorem mem_spanWithout {s t u : Nat × Nat} (hs : s.1 ≤ s.2) (h : u ∈ spanWithout s t) :
    u.1 ≤ u.2 ∧ s.1 ≤ u.1 ∧ u.2 ≤ s.2 ∧ spansApart u t := by
  unfold spanWithout at h
  unfold spansApart
  split at h
  · obtain rfl := List.mem_singleton.mp h
    omega
  · rcases List.mem_append.mp h with h | h <;> split at h
    · obtain rfl := List.mem_singleton.mp h
      dsimp only
      omega
    · exact absurd h List.not_mem_nil
    · obtain rfl := List.mem_singleton.mp h
      dsimp only
      omega
    · exact absurd h List.not_mem_nil

theorem spanWithout_spec {s t : Nat × Nat} (ht : t.1 ≤ t.2) (hs : s.1 ≤ s.2) :
    (spanWithout s t).Pairwise spansApart ∧ ∀ a, (∃ u ∈ spanWithout s t, inSpan u a) ↔ inSpan s a ∧ ¬ inSpan t a := by
  refine ⟨?_, fun a => ⟨fun ⟨u, hu, ha⟩ => ?_, fun ⟨hsa, hta⟩ => ?_⟩⟩
  · unfold spanWithout spansApart
    split
    · exact List.pairwise_singleton _ _
    · split <;> split <;> simp
      omega
  · obtain ⟨hne, hlo, hhi, hapart⟩ := mem_spanWithout hs hu
    simp only [inSpan, spansApart] at *
    omega
  · simp only [inSpan] at *
    unfold spanWithout
    split
    · exact ⟨s, List.mem_singleton_self s, hsa⟩
    · by_cases hlow : a < t.1
      · refine ⟨(s.1, t.1 - 1), List.mem_append.mpr (.inl ?_), ?_⟩
        · rw [if_pos (by omega)]
          exact List.mem_singleton_self _
        · dsimp only
          omega
      · refine ⟨(t.2 + 1, s.2), List.mem_append.mpr (.inr ?_), ?_⟩
        · rw [if_pos (by omega)]
          exact List.mem_singleton_self _
        · dsimp only
          omega

/-- What a span keeps outside newer ones: spans apart from each other, of exactly the accounts left. -/
theorem uncovered_spec {s : Nat × Nat} (hs : s.1 ≤ s.2) {newer : List (Nat × Nat)} (hnewer : ∀ t ∈ newer, t.1 ≤ t.2) :
    (∀ u ∈ uncovered s newer, u.1 ≤ u.2) ∧ (uncovered s newer).Pairwise spansApart ∧
    ∀ a, (∃ u ∈ uncovered s newer, inSpan u a) ↔ inSpan s a ∧ ∀ t ∈ newer, ¬ inSpan t a := by
  have hfold : ∀ l : List (Nat × Nat), (∀ u ∈ l, u.1 ≤ u.2) → l.Pairwise spansApart →
      let left := newer.foldl (fun l t => l.flatMap fun u => spanWithout u t) l
      (∀ u ∈ left, u.1 ≤ u.2) ∧ left.Pairwise spansApart ∧
      ∀ a, (∃ u ∈ left, inSpan u a) ↔ (∃ u ∈ l, inSpan u a) ∧ ∀ t ∈ newer, ¬ inSpan t a := by
    induction newer with
    | nil => exact fun l hl hpair => ⟨hl, hpair, fun a => by simp⟩
    | cons t newer ih =>
      obtain ⟨ht, hnewer⟩ := List.forall_mem_cons.mp hnewer
      intro l hl hpair
      have hne : ∀ u ∈ l.flatMap (fun u => spanWithout u t), u.1 ≤ u.2 := fun u hu => by
        obtain ⟨v, hv, hu⟩ := List.mem_flatMap.mp hu
        exact (mem_spanWithout (hl v hv) hu).1
      have hapart : (l.flatMap fun u => spanWithout u t).Pairwise spansApart := by
        refine List.pairwise_flatMap.mpr ⟨fun u hu => (spanWithout_spec ht (hl u hu)).1, hpair.imp_of_mem fun {u v} hu hv huv p hp q hq => ?_⟩
        obtain ⟨-, hplo, hphi, -⟩ := mem_spanWithout (hl u hu) hp
        obtain ⟨-, hqlo, hqhi, -⟩ := mem_spanWithout (hl v hv) hq
        simp only [spansApart] at *
        omega
      obtain ⟨hne', hapart', hmem⟩ := ih hnewer _ hne hapart
      refine ⟨hne', hapart', fun a => (hmem a).trans ?_⟩
      have hhere : (∃ u ∈ l.flatMap (fun u => spanWithout u t), inSpan u a) ↔ (∃ u ∈ l, inSpan u a) ∧ ¬ inSpan t a := by
        constructor
        · rintro ⟨u, hu, ha⟩
          obtain ⟨v, hv, hu⟩ := List.mem_flatMap.mp hu
          obtain ⟨hva, hta⟩ := ((spanWithout_spec ht (hl v hv)).2 a).mp ⟨u, hu, ha⟩
          exact ⟨⟨v, hv, hva⟩, hta⟩
        · rintro ⟨⟨v, hv, hva⟩, hta⟩
          obtain ⟨u, hu, ha⟩ := ((spanWithout_spec ht (hl v hv)).2 a).mpr ⟨hva, hta⟩
          exact ⟨u, List.mem_flatMap.mpr ⟨v, hv, hu⟩, ha⟩
      rw [hhere, List.forall_mem_cons, and_assoc]
  have hstart : uncovered s newer = newer.foldl (fun l t => l.flatMap fun u => spanWithout u t) [s] := by
    rw [uncovered, if_pos hs]
  rw [hstart]
  obtain ⟨hne, hapart, hmem⟩ := hfold [s] (by simpa using hs) (List.pairwise_singleton _ _)
  exact ⟨hne, hapart, fun a => (hmem a).trans (by simp)⟩

/-! ## The entries of a table at one account -/

/-- The rows of an account. -/
def rowsAt {α : Type} (a : Nat) (rows : Tbl α) : Tbl α := rows.filter fun p => decide (p.1 = a)

theorem tblGet_foldl_put_rows {α : Type} (rows : Tbl α) (a : Nat) :
    tblGet a (rows.foldl (fun t p => tblPut p.1 p.2 t) []) = ((rowsAt a rows).getLast?).map (·.2) := by
  have hfold : ∀ t : Tbl α, tblGet a (rows.foldl (fun t p => tblPut p.1 p.2 t) t) = (((rowsAt a rows).getLast?).map (·.2)).or (tblGet a t) := by
    induction rows with
    | nil => exact fun t => rfl
    | cons p rows ih =>
      intro t
      rw [List.foldl_cons, ih]
      unfold rowsAt
      by_cases h : p.1 = a
      · subst h
        rw [tblGet_put_self, List.filter_cons_of_pos (by simp), List.getLast?_cons]
        cases (rows.filter fun q => decide (q.1 = p.1)).getLast? <;> rfl
      · rw [tblGet_put_other _ _ _ _ (Ne.symm h), List.filter_cons_of_neg (by simpa using h)]
  rw [hfold []]
  cases ((rowsAt a rows).getLast?).map (·.2) <;> rfl

/-- The one row of an account in a sorted table. -/
theorem rowsAt_of_sorted {α : Type} {rows : Tbl α} (h : tblSorted rows = true) (a : Nat) :
    rowsAt a rows = ((tblGet a rows).map fun e => (a, e)).toList := by
  induction rows with
  | nil => rfl
  | cons p rows ih =>
    obtain ⟨k, e⟩ := p
    obtain ⟨hk, hrows⟩ := (tblSorted_cons k e rows).mp h
    unfold rowsAt
    by_cases heq : k = a
    · subst heq
      have hnone : rows.filter (fun p => decide (p.1 = k)) = [] := List.filter_eq_nil_iff.mpr fun p hp => by
        have := hk p hp
        simp
        omega
      rw [List.filter_cons_of_pos (by simp), hnone, tblGet, if_pos rfl]
      rfl
    · rw [List.filter_cons_of_neg (by simpa using heq), tblGet, if_neg heq]
      exact ih hrows

/-- The rows of a sorted table at an account, as the release-day rule takes them. -/
theorem rowsAt_taken {today : Nat} {rows : Tbl HoldEntry} (h : tblSorted rows = true) (a : Nat) :
    rowsAt a (rows.filterMap fun p => (takenEntry today p.2).map fun e => (p.1, e)) =
      (((tblGet a rows).bind (takenEntry today)).map fun e => (a, e)).toList := by
  have hswap : ∀ rows : Tbl HoldEntry, rowsAt a (rows.filterMap fun p => (takenEntry today p.2).map fun e => (p.1, e)) =
      (rowsAt a rows).filterMap fun p => (takenEntry today p.2).map fun e => (p.1, e) := fun rows => by
    unfold rowsAt
    rw [List.filter_filterMap, List.filterMap_filter]
    refine List.filterMap_congr fun p _ => ?_
    cases takenEntry today p.2 <;> by_cases hp : p.1 = a <;> simp [hp]
  rw [hswap, rowsAt_of_sorted h]
  cases tblGet a rows with
  | none => rfl
  | some e => cases ht : takenEntry today e <;> simp [ht]

/-! ## The candidates in order -/

/-- A candidate spans an account. -/
def HoldCand.spans (c : HoldCand) (a : Nat) : Prop := inSpan (c.lo, c.hi) a

/-- An account lies in a range. -/
def HoldRange.holds (r : HoldRange) (a : Nat) : Prop := inSpan (r.lo, r.hi) a

/-- Of spans apart from each other only one gives something for an account. -/
theorem flatMap_of_apart {β : Type} {a : Nat} {f : Nat × Nat → List β} {l : List (Nat × Nat)} {X : List β} (hpair : l.Pairwise spansApart)
    (hnone : ∀ u ∈ l, ¬ inSpan u a → f u = []) (hone : ∀ u ∈ l, inSpan u a → f u = X) :
    ((∃ u ∈ l, inSpan u a) → l.flatMap f = X) ∧ ((¬ ∃ u ∈ l, inSpan u a) → l.flatMap f = []) := by
  have hnil : ∀ l : List (Nat × Nat), (∀ u ∈ l, f u = []) → l.flatMap f = [] := fun l h => by
    simpa [List.flatMap_eq_nil_iff] using h
  refine ⟨?_, fun hno => hnil l fun u hu => hnone u hu fun ha => hno ⟨u, hu, ha⟩⟩
  rintro ⟨u, hu, ha⟩
  induction l with
  | nil => cases hu
  | cons v l ih =>
    obtain ⟨hv, hpair⟩ := List.pairwise_cons.mp hpair
    obtain ⟨hnonev, hnone⟩ := List.forall_mem_cons.mp hnone
    obtain ⟨honev, hone⟩ := List.forall_mem_cons.mp hone
    rw [List.flatMap_cons]
    by_cases hva : inSpan v a
    · have hrest : ∀ w ∈ l, f w = [] := fun w hw => hnone w hw fun hwa => by
        have := hv w hw
        simp only [inSpan, spansApart] at *
        omega
      rw [honev hva, hnil l hrest, List.append_nil]
    · rw [hnonev hva, List.nil_append]
      rcases List.mem_cons.mp hu with rfl | hul
      · exact absurd ha hva
      · exact ih hpair hnone hone hul

/-- What a candidate leaves: ranges apart from each other of exactly its accounts outside the newer spans, and these accounts' rows. -/
theorem HoldCand.leaves_spec {c : HoldCand} (hc : c.lo ≤ c.hi) (hrows : tblSorted c.rows = true) (today : Nat)
    {newer : List (Nat × Nat)} (hnewer : ∀ t ∈ newer, t.1 ≤ t.2) :
    (∀ r ∈ (c.leaves today newer).1, r.lo ≤ r.hi ∧ r = ⟨r.lo, r.hi, some (c.slot, c.generation), [], true, none⟩) ∧
    (c.leaves today newer).1.Pairwise (fun r q => spansApart (r.lo, r.hi) (q.lo, q.hi)) ∧
    (∀ a, (∃ r ∈ (c.leaves today newer).1, r.holds a) ↔ c.spans a ∧ ∀ t ∈ newer, ¬ inSpan t a) ∧
    ∀ a, ((c.spans a ∧ ∀ t ∈ newer, ¬ inSpan t a) →
        rowsAt a (c.leaves today newer).2 = (((tblGet a c.rows).bind (takenEntry today)).map fun e => (a, e)).toList) ∧
      (¬ (c.spans a ∧ ∀ t ∈ newer, ¬ inSpan t a) → rowsAt a (c.leaves today newer).2 = []) := by
  obtain ⟨hne, hapart, hmem⟩ := uncovered_spec (s := (c.lo, c.hi)) hc hnewer
  refine ⟨fun r hr => ?_, List.pairwise_map.mpr hapart, fun a => ?_, fun a => ?_⟩
  · obtain ⟨u, hu, rfl⟩ := List.mem_map.mp hr
    exact ⟨hne u hu, rfl⟩
  · rw [HoldCand.spans, ← hmem a]
    constructor
    · rintro ⟨r, hr, ha⟩
      obtain ⟨u, hu, rfl⟩ := List.mem_map.mp hr
      exact ⟨u, hu, ha⟩
    · rintro ⟨u, hu, ha⟩
      exact ⟨_, List.mem_map.mpr ⟨u, hu, rfl⟩, ha⟩
  · have hflat : rowsAt a (c.leaves today newer).2 = (uncovered (c.lo, c.hi) newer).flatMap fun u =>
        rowsAt a ((c.rows.filter fun p => decide (u.1 ≤ p.1) && decide (p.1 ≤ u.2)).filterMap fun p =>
          (takenEntry today p.2).map fun e => (p.1, e)) := by
      unfold rowsAt
      exact List.filter_flatMap
    have hrow : ∀ u : Nat × Nat, rowsAt a ((c.rows.filter fun p => decide (u.1 ≤ p.1) && decide (p.1 ≤ u.2)).filterMap fun p =>
          (takenEntry today p.2).map fun e => (p.1, e)) =
        if u.1 ≤ a ∧ a ≤ u.2 then (((tblGet a c.rows).bind (takenEntry today)).map fun e => (a, e)).toList else [] := fun u => by
      rw [rowsAt_taken (tblFilter_sorted _ _ hrows), tblGet_filter_key (fun k => decide (u.1 ≤ k) && decide (k ≤ u.2))]
      by_cases h : u.1 ≤ a ∧ a ≤ u.2
      · simp [h]
      · have hfalse : (decide (u.1 ≤ a) && decide (a ≤ u.2)) = false := by simpa using h
        simp [h, hfalse]
    rw [hflat, HoldCand.spans, ← hmem a]
    exact flatMap_of_apart hapart (fun u _ ha => (hrow u).trans (if_neg ha)) (fun u _ ha => (hrow u).trans (if_pos ha))

/-- A candidate that can stand: a span with accounts, and rows each account of which has one. -/
def HoldCand.wf (c : HoldCand) : Prop := c.lo ≤ c.hi ∧ tblSorted c.rows = true

/-- A range that a candidate among some leaves. -/
def HoldRange.from (r : HoldRange) (c : HoldCand) : Prop :=
  r.lo ≤ r.hi ∧ r = ⟨r.lo, r.hi, some (c.slot, c.generation), [], true, none⟩ ∧ c.lo ≤ r.lo ∧ r.hi ≤ c.hi

/-- The HOLD candidates resolved in order: each account is the first one's that spans it, and a candidate left without accounts is
voided. -/
theorem resolveHolds_spec (today : Nat) {cs : List HoldCand} (hcs : ∀ c ∈ cs, c.wf) {newer : List (Nat × Nat)}
    (hnewer : ∀ t ∈ newer, t.1 ≤ t.2) {ranges : List HoldRange} {rows : Tbl HoldEntry} {voided : List SlotAddr}
    (h : resolveHolds today newer cs = (ranges, rows, voided)) :
    (∀ r ∈ ranges, ∃ c ∈ cs, r.from c) ∧
    ranges.Pairwise (fun r q => spansApart (r.lo, r.hi) (q.lo, q.hi)) ∧
    (∀ a, ((∃ t ∈ newer, inSpan t a) ∨ ∀ c ∈ cs, ¬ c.spans a) → (∀ r ∈ ranges, ¬ r.holds a) ∧ rowsAt a rows = []) ∧
    (∀ before c after, cs = before ++ c :: after → ∀ a, c.spans a → (∀ b ∈ before, ¬ b.spans a) → (∀ t ∈ newer, ¬ inSpan t a) →
      (∃ r ∈ ranges, r.holds a) ∧ (∀ r ∈ ranges, r.holds a → r.sheet = some (c.slot, c.generation)) ∧
      rowsAt a rows = (((tblGet a c.rows).bind (takenEntry today)).map fun e => (a, e)).toList) ∧
    ∀ slot, slot ∈ voided ↔ ∃ before c after, cs = before ++ c :: after ∧ c.slot = slot ∧
      ∀ a, c.spans a → (∃ b ∈ before, b.spans a) ∨ ∃ t ∈ newer, inSpan t a := by
  induction cs generalizing newer ranges rows voided with
  | nil =>
    obtain ⟨rfl, rfl, rfl⟩ : ranges = [] ∧ rows = [] ∧ voided = [] := by simpa [resolveHolds, eq_comm] using h
    refine ⟨by simp, .nil, fun a _ => ⟨by simp, rfl⟩, fun before c after heq => ?_, fun slot => ?_⟩
    · cases before <;> cases heq
    · refine ⟨fun h => absurd h List.not_mem_nil, fun ⟨before, c, after, heq, _⟩ => ?_⟩
      cases before <;> cases heq
  | cons c cs ih =>
    obtain ⟨⟨hc, hrows⟩, hcs⟩ := List.forall_mem_cons.mp hcs
    obtain ⟨hform, hpair, hmem, hrow⟩ := c.leaves_spec hc hrows today hnewer
    obtain ⟨more, moreRows, moreVoided, hmore⟩ :
        ∃ more moreRows moreVoided, resolveHolds today ((c.lo, c.hi) :: newer) cs = (more, moreRows, moreVoided) := ⟨_, _, _, rfl⟩
    obtain ⟨hform', hpair', hnone', hfirst', hvoid'⟩ := ih hcs (List.forall_mem_cons.mpr ⟨hc, hnewer⟩) hmore
    obtain ⟨rfl, rfl, rfl⟩ : (c.leaves today newer).1 ++ more = ranges ∧ (c.leaves today newer).2 ++ moreRows = rows ∧
        (if (c.leaves today newer).1 = [] then c.slot :: moreVoided else moreVoided) = voided := by
      simpa [resolveHolds, hmore] using h
    have hrowsAt : ∀ a, rowsAt a ((c.leaves today newer).2 ++ moreRows) = rowsAt a (c.leaves today newer).2 ++ rowsAt a moreRows :=
      fun a => List.filter_append _ _
    have hempty : (c.leaves today newer).1 = [] ↔ ∀ a, c.spans a → ∃ t ∈ newer, inSpan t a := by
      constructor
      · intro hnil a ha
        by_contra hno
        push Not at hno
        obtain ⟨r, hr, -⟩ := (hmem a).mpr ⟨ha, hno⟩
        rw [hnil] at hr
        exact absurd hr List.not_mem_nil
      · intro hall
        refine List.eq_nil_iff_forall_not_mem.mpr fun r hr => ?_
        obtain ⟨hle, -⟩ := hform r hr
        obtain ⟨hspan, hno⟩ := (hmem r.lo).mp ⟨r, hr, le_rfl, hle⟩
        obtain ⟨t, ht, hta⟩ := hall r.lo hspan
        exact hno t ht hta
    have hlater : ∀ a, c.spans a → (∀ r ∈ more, ¬ r.holds a) ∧ rowsAt a moreRows = [] := fun a ha =>
      hnone' a (.inl ⟨(c.lo, c.hi), List.mem_cons_self .., ha⟩)
    have hearlier : ∀ a, ¬ (c.spans a ∧ ∀ t ∈ newer, ¬ inSpan t a) →
        (∀ r ∈ (c.leaves today newer).1, ¬ r.holds a) ∧ rowsAt a (c.leaves today newer).2 = [] := fun a ha =>
      ⟨fun r hr hra => ha ((hmem a).mp ⟨r, hr, hra⟩), (hrow a).2 ha⟩
    refine ⟨fun r hr => ?_, ?_, fun a ha => ?_, fun before b after heq a hba hbefore hnew => ?_, fun slot => ?_⟩
    · rcases List.mem_append.mp hr with hr | hr
      · obtain ⟨hle, hsheet⟩ := hform r hr
        obtain ⟨⟨hlo, -⟩, -⟩ := (hmem r.lo).mp ⟨r, hr, le_rfl, hle⟩
        obtain ⟨⟨-, hhi⟩, -⟩ := (hmem r.hi).mp ⟨r, hr, hle, le_rfl⟩
        exact ⟨c, List.mem_cons_self .., hle, hsheet, hlo, hhi⟩
      · obtain ⟨b, hb, hfrom⟩ := hform' r hr
        exact ⟨b, List.mem_cons_of_mem _ hb, hfrom⟩
    · refine List.pairwise_append.mpr ⟨hpair, hpair', fun r hr q hq => ?_⟩
      obtain ⟨hrle, -⟩ := hform r hr
      obtain ⟨-, -, hqle, -⟩ := hform' q hq
      by_contra hover
      simp only [spansApart] at hover
      obtain ⟨hspan, -⟩ := (hmem (max r.lo q.lo)).mp ⟨r, hr, by simp only [HoldRange.holds, inSpan]; omega⟩
      exact (hlater _ hspan).1 q hq (by simp only [HoldRange.holds, inSpan]; omega)
    · have hleaves : ¬ (c.spans a ∧ ∀ t ∈ newer, ¬ inSpan t a) := fun ⟨hspan, hno⟩ => by
        rcases ha with ⟨t, ht, hta⟩ | hnone
        · exact hno t ht hta
        · exact hnone c (List.mem_cons_self ..) hspan
      have hrest : (∀ r ∈ more, ¬ r.holds a) ∧ rowsAt a moreRows = [] := hnone' a (by
        rcases ha with ⟨t, ht, hta⟩ | hnone
        · exact .inl ⟨t, List.mem_cons_of_mem _ ht, hta⟩
        · exact .inr fun b hb => hnone b (List.mem_cons_of_mem _ hb))
      obtain ⟨hr, hrow⟩ := hearlier a hleaves
      exact ⟨List.forall_mem_append.mpr ⟨hr, hrest.1⟩, by rw [hrowsAt, hrow, hrest.2, List.append_nil]⟩
    · cases before with
      | nil =>
        obtain ⟨rfl, rfl⟩ : c = b ∧ cs = after := by simpa using heq
        obtain ⟨r, hr, hra⟩ := (hmem a).mpr ⟨hba, hnew⟩
        obtain ⟨hmoreNone, hmoreRows⟩ := hlater a hba
        refine ⟨⟨r, List.mem_append.mpr (.inl hr), hra⟩, fun q hq hqa => ?_, ?_⟩
        · rcases List.mem_append.mp hq with hq | hq
          · obtain ⟨-, hsheet⟩ := hform q hq
            rw [hsheet]
          · exact absurd hqa (hmoreNone q hq)
        · rw [hrowsAt, (hrow a).1 ⟨hba, hnew⟩, hmoreRows, List.append_nil]
      | cons p before =>
        obtain ⟨rfl, rfl⟩ : c = p ∧ cs = before ++ b :: after := by simpa using heq
        obtain ⟨hcno, hbefore⟩ := List.forall_mem_cons.mp hbefore
        obtain ⟨hnoneHere, hrowsHere⟩ := hearlier a fun h => hcno h.1
        obtain ⟨⟨r, hr, hra⟩, hsheet, hrowsMore⟩ :=
          hfirst' before b after rfl a hba hbefore (List.forall_mem_cons.mpr ⟨hcno, hnew⟩)
        refine ⟨⟨r, List.mem_append.mpr (.inr hr), hra⟩, fun q hq hqa => ?_, ?_⟩
        · rcases List.mem_append.mp hq with hq | hq
          · exact absurd hqa (hnoneHere q hq)
          · exact hsheet q hq hqa
        · rw [hrowsAt, hrowsHere, hrowsMore, List.nil_append]
    · have hcases : slot ∈ (if (c.leaves today newer).1 = [] then c.slot :: moreVoided else moreVoided) ↔
          ((c.leaves today newer).1 = [] ∧ slot = c.slot) ∨ slot ∈ moreVoided := by
        split
        · next h => simp [h]
        · next h => simp [h]
      rw [hcases, hempty, hvoid' slot]
      constructor
      · rintro (⟨hall, rfl⟩ | ⟨before, b, after, rfl, rfl, hall⟩)
        · exact ⟨[], c, cs, rfl, rfl, fun a ha => .inr (hall a ha)⟩
        · refine ⟨c :: before, b, after, rfl, rfl, fun a ha => ?_⟩
          rcases hall a ha with ⟨p, hp, hpa⟩ | ⟨t, ht, hta⟩
          · exact .inl ⟨p, List.mem_cons_of_mem _ hp, hpa⟩
          · rcases List.mem_cons.mp ht with rfl | ht
            · exact .inl ⟨c, List.mem_cons_self .., hta⟩
            · exact .inr ⟨t, ht, hta⟩
      · rintro ⟨before, b, after, heq, rfl, hall⟩
        cases before with
        | nil =>
          obtain ⟨rfl, rfl⟩ : c = b ∧ cs = after := by simpa using heq
          exact .inl ⟨fun a ha => (hall a ha).resolve_left fun ⟨_, hp, _⟩ => List.not_mem_nil hp, rfl⟩
        | cons p before =>
          obtain ⟨rfl, rfl⟩ : c = p ∧ cs = before ++ b :: after := by simpa using heq
          refine .inr ⟨before, b, after, rfl, rfl, fun a ha => ?_⟩
          rcases hall a ha with ⟨p, hp, hpa⟩ | ⟨t, ht, hta⟩
          · rcases List.mem_cons.mp hp with rfl | hp
            · exact .inr ⟨(p.lo, p.hi), List.mem_cons_self .., hpa⟩
            · exact .inl ⟨p, hp, hpa⟩
          · exact .inr ⟨t, List.mem_cons_of_mem _ ht, hta⟩

end Sys2Proof.Machine
end

section
/-! SUPPORT. The gaps between ranges filled, and the Retention Unit that resolution gives, candidate by candidate. -/

namespace Sys2Proof.Machine

/-! ## The gaps between ranges -/

/-- Ranges that follow on another from an account to the last one. -/
def tiled : Nat → List HoldRange → Prop
  | lo, [] => lo = Config.maxAccount + 1
  | lo, r :: l => r.lo = lo ∧ r.lo ≤ r.hi ∧ tiled (r.hi + 1) l

/-- A range with no sheet in a gap between some ranges. -/
def HoldRange.gapOf (r : HoldRange) (ranges : List HoldRange) : Prop :=
  r.sheet = none ∧ r.wait = [] ∧ r.owed = false ∧ r.rewrite = none ∧ ∀ q ∈ ranges, spansApart (r.lo, r.hi) (q.lo, q.hi)

theorem fillGaps_spec {lo : Nat} {ranges : List HoldRange} (hlo : lo ≤ Config.maxAccount + 1)
    (hranges : ∀ r ∈ ranges, lo ≤ r.lo ∧ r.lo ≤ r.hi ∧ r.hi ≤ Config.maxAccount)
    (hpair : ranges.Pairwise fun r q => r.hi < q.lo) :
    tiled lo (fillGaps lo ranges) ∧ (∀ r ∈ ranges, r ∈ fillGaps lo ranges) ∧
      ∀ r ∈ fillGaps lo ranges, lo ≤ r.lo ∧ (r ∈ ranges ∨ r.gapOf ranges) := by
  induction ranges generalizing lo with
  | nil =>
    rw [fillGaps]
    split
    · next h => exact ⟨⟨rfl, h, rfl⟩, by simp, by simp [HoldRange.gapOf]⟩
    · next h => exact ⟨by rw [tiled]; omega, by simp, by simp⟩
  | cons q ranges ih =>
    obtain ⟨⟨hqlo, hqle, hqmax⟩, hrest⟩ := List.forall_mem_cons.mp hranges
    obtain ⟨hqbefore, hpair⟩ := List.pairwise_cons.mp hpair
    obtain ⟨htiled, hall, hwhere⟩ := ih (lo := q.hi + 1) (by omega)
      (fun r hr => ⟨Nat.succ_le_of_lt (hqbefore r hr), (hrest r hr).2⟩) hpair
    have hin : ∀ r ∈ q :: fillGaps (q.hi + 1) ranges, lo ≤ r.lo ∧ (r ∈ q :: ranges ∨ r.gapOf (q :: ranges)) := by
      refine List.forall_mem_cons.mpr ⟨⟨hqlo, .inl (List.mem_cons_self ..)⟩, fun r hr => ?_⟩
      obtain ⟨hafter, hkind⟩ := hwhere r hr
      refine ⟨by omega, hkind.imp (List.mem_cons_of_mem _) fun hgap => ?_⟩
      obtain ⟨hsheet, hwait, howed, hrewrite, hapart⟩ := hgap
      exact ⟨hsheet, hwait, howed, hrewrite, List.forall_mem_cons.mpr ⟨.inr (Nat.lt_of_succ_le hafter), hapart⟩⟩
    rw [fillGaps]
    split
    · next h =>
      refine ⟨⟨rfl, by dsimp only; omega, by dsimp only; omega, hqle, htiled⟩, fun r hr => ?_, List.forall_mem_cons.mpr ⟨?_, hin⟩⟩
      · rcases List.mem_cons.mp hr with rfl | hr
        · exact List.mem_cons_of_mem _ (List.mem_cons_self ..)
        · exact List.mem_cons_of_mem _ (List.mem_cons_of_mem _ (hall r hr))
      · refine ⟨le_rfl, .inr ⟨rfl, rfl, rfl, rfl, List.forall_mem_cons.mpr ⟨.inl (by dsimp only; omega), fun r hr => .inl ?_⟩⟩⟩
        have := hqbefore r hr
        dsimp only
        omega
    · next h =>
      refine ⟨⟨by omega, hqle, htiled⟩, fun r hr => ?_, hin⟩
      rcases List.mem_cons.mp hr with rfl | hr
      · exact List.mem_cons_self ..
      · exact List.mem_cons_of_mem _ (hall r hr)

theorem le_of_tiled {lo : Nat} {l : List HoldRange} (h : tiled lo l) : lo ≤ Config.maxAccount + 1 := by
  induction l generalizing lo with
  | nil => exact Nat.le_of_eq h
  | cons r l ih =>
    obtain ⟨rfl, hle, htail⟩ := h
    have := ih htail
    omega

/-- Ranges that follow on another: the first, the last, each next, and the one of an account. -/
theorem tiled_spec {lo : Nat} {l : List HoldRange} (h : tiled lo l) (hlo : lo ≤ Config.maxAccount) :
    (l.head?.map fun r => r.lo) = some lo ∧ (l.getLast?.map fun r => r.hi) = some Config.maxAccount ∧
    (∀ (i : Nat) (a b : HoldRange), l[i]? = some a → l[i + 1]? = some b → a.lo ≤ a.hi ∧ b.lo = a.hi + 1) ∧
    ∀ a, lo ≤ a → a ≤ Config.maxAccount → ∃ r ∈ l, r.lo ≤ a ∧ a ≤ r.hi := by
  induction l generalizing lo with
  | nil =>
    have hend : lo = Config.maxAccount + 1 := h
    omega
  | cons r l ih =>
    obtain ⟨rfl, hle, htail⟩ := h
    cases l with
    | nil =>
      have hend : r.hi + 1 = Config.maxAccount + 1 := htail
      refine ⟨rfl, by simp; omega, fun i a b ha hb => by simp at hb, fun a ha hmax => ⟨r, List.mem_singleton_self r, ha, by omega⟩⟩
    | cons q l =>
      have hq : q.lo = r.hi + 1 := htail.1
      have hmore : r.hi + 1 ≤ Config.maxAccount := by
        have hqle := htail.2.1
        have hend := le_of_tiled htail.2.2
        omega
      · obtain ⟨-, hlast, hnext, hcover⟩ := ih htail hmore
        refine ⟨rfl, by rw [List.getLast?_cons_cons]; exact hlast, fun i a b ha hb => ?_, fun a ha hmax => ?_⟩
        · cases i with
          | zero =>
            obtain rfl : r = a := by simpa using ha
            obtain rfl : q = b := by simpa using hb
            exact ⟨hle, hq⟩
          | succ i => exact hnext i a b (by simpa using ha) (by simpa using hb)
        · by_cases hhere : a ≤ r.hi
          · exact ⟨r, List.mem_cons_self .., ha, hhere⟩
          · obtain ⟨p, hp, hpa⟩ := hcover a (by omega) hmax
            exact ⟨p, List.mem_cons_of_mem _ hp, hpa⟩

/-! ## The candidates by their places -/

theorem insertBy_map {α β : Type} {lt : β → β → Bool} (f : α → β) (a : α) (l : List α) :
    insertBy lt (f a) (l.map f) = (insertBy (fun a b => lt (f a) (f b)) a l).map f := by
  induction l with
  | nil => rfl
  | cons b l ih =>
    rw [List.map_cons, insertBy, insertBy]
    split
    · rfl
    · rw [ih, List.map_cons]

theorem sortBy_map {α β : Type} {lt : β → β → Bool} (f : α → β) (l : List α) :
    sortBy lt (l.map f) = (sortBy (fun a b => lt (f a) (f b)) l).map f := by
  have hfold : ∀ acc : List α, (l.map f).foldl (fun acc a => insertBy lt a acc) (acc.map f) =
      (l.foldl (fun acc a => insertBy (fun a b => lt (f a) (f b)) a acc) acc).map f := by
    induction l with
    | nil => exact fun _ => rfl
    | cons a l ih =>
      intro acc
      rw [List.map_cons, List.foldl_cons, List.foldl_cons, insertBy_map, ih]
  exact hfold []

/-- The HOLD candidates with their places, in scan order. -/
def holdsOf (l : List Cand) : List (SlotAddr × Nat × Nat × Nat × Tbl HoldEntry) :=
  l.filterMap fun c =>
    match c.content with
    | .hold lo hi g rows => some (c.slot, lo, hi, g, rows)
    | _ => none

/-- A candidate within the accounts of R1. -/
def holdCandOf (q : SlotAddr × Nat × Nat × Nat × Tbl HoldEntry) : HoldCand :=
  ⟨q.1, max q.2.1 1, min q.2.2.1 Config.maxAccount, q.2.2.2.1, q.2.2.2.2⟩

/-- The candidates and their places in scan order, the newest first. -/
def placedHolds (l : List Cand) : List (HoldCand × Nat) :=
  sortBy (fun a b => decide (b.1.generation < a.1.generation)) ((holdsOf l).map holdCandOf).zipIdx

/-- One candidate is newer than another: of a greater generation, or of copies the first. -/
def newerThan (a b : HoldCand × Nat) : Prop :=
  b.1.generation < a.1.generation ∨ (b.1.generation = a.1.generation ∧ a.2 < b.2)

theorem holdCands_eq (l : List Cand) : holdCands l = (placedHolds l).map (·.1) := by
  have hraw : (l.filterMap fun c =>
      match c.content with
      | .hold lo hi g rows => some (⟨c.slot, max lo 1, min hi Config.maxAccount, g, rows⟩ : HoldCand)
      | _ => none) = (holdsOf l).map holdCandOf := by
    rw [holdsOf, List.map_filterMap]
    refine List.filterMap_congr fun c _ => ?_
    cases c.content <;> rfl
  have hplaced := sortBy_map (lt := fun a b : HoldCand => decide (b.generation < a.generation)) Prod.fst ((holdsOf l).map holdCandOf).zipIdx
  rw [List.zipIdx_map_fst] at hplaced
  exact (congrArg (sortBy fun a b : HoldCand => decide (b.generation < a.generation)) hraw).trans hplaced

theorem placedHolds_newer (l : List Cand) : (placedHolds l).Pairwise newerThan := by
  have hplaces : ((holdsOf l).map holdCandOf).zipIdx.Pairwise fun a b => a.2 < b.2 := by
    refine List.pairwise_map.mp ?_
    rw [List.zipIdx_map_snd]
    exact List.pairwise_lt_range'
  refine sortBy_pairwise (P := fun a b => a.2 < b.2) (fun a c hca hlt => ?_) (fun a b hlt => .inl (of_decide_eq_true hlt))
    (fun a b c hab hbc => ?_) hplaces
  · have := of_decide_eq_false hlt
    unfold newerThan
    omega
  · have := of_decide_eq_true hab
    unfold newerThan at *
    omega

theorem mem_placedHolds {l : List Cand} {c : HoldCand} {i : Nat} :
    (c, i) ∈ placedHolds l ↔ ∃ q, (holdsOf l)[i]? = some q ∧ holdCandOf q = c := by
  rw [placedHolds, (sortBy_perm _).mem_iff, List.mem_zipIdx_iff_getElem?, List.getElem?_map, Option.map_eq_some_iff]

theorem foldl_max_spec (l : List Nat) : (∀ n ∈ l, n ≤ l.foldl max 0) ∧ (l.foldl max 0 = 0 ∨ l.foldl max 0 ∈ l) := by
  have hfold : ∀ m, m ≤ l.foldl max m ∧ (∀ n ∈ l, n ≤ l.foldl max m) ∧ (l.foldl max m = m ∨ l.foldl max m ∈ l) := by
    induction l with
    | nil => simp
    | cons a l ih =>
      intro m
      obtain ⟨hm, hall, hwhich⟩ := ih (max m a)
      rw [List.foldl_cons]
      refine ⟨by omega, List.forall_mem_cons.mpr ⟨by omega, hall⟩, ?_⟩
      rcases hwhich with heq | hin
      · rcases Nat.le_total m a with hle | hle
        · exact .inr (by rw [heq, Nat.max_eq_right hle]; exact List.mem_cons_self ..)
        · exact .inl (by rw [heq, Nat.max_eq_left hle])
      · exact .inr (List.mem_cons_of_mem _ hin)
  exact (hfold 0).2

/-! ## The Retention Unit resolved -/

/-- Ranges apart from each other, in account order. -/
theorem sorted_ranges {ranges : List HoldRange} (hne : ∀ r ∈ ranges, r.lo ≤ r.hi)
    (hpair : ranges.Pairwise fun r q => spansApart (r.lo, r.hi) (q.lo, q.hi)) :
    (sortBy (fun a b => decide (a.lo < b.lo)) ranges).Pairwise fun r q => r.hi < q.lo := by
  have hperm := sortBy_perm (lt := fun a b : HoldRange => decide (a.lo < b.lo)) ranges
  have hsorted := sortBy_sorted (lt := fun a b : HoldRange => decide (a.lo < b.lo))
    (fun a b h => decide_eq_false (Nat.lt_asymm (of_decide_eq_true h)))
    (fun a b c h h' => decide_eq_true ((of_decide_eq_true h).trans (of_decide_eq_true h'))) ranges
  have hapart := hperm.symm.pairwise hpair fun {r q} h => h.symm
  refine (hsorted.and hapart).imp_of_mem fun {r q} hr hq h => ?_
  have hrle := hne r (hperm.mem_iff.mp hr)
  have hqle := hne q (hperm.mem_iff.mp hq)
  have horder := of_decide_eq_false h.1
  have hover := h.2
  simp only [spansApart] at hover
  omega

section
variable {l : List Cand}

/-- The candidates of a list lie within the accounts of R1, and their tables are sorted. -/
def holdsValid (l : List Cand) : Prop :=
  ∀ q ∈ holdsOf l, 1 ≤ q.2.1 ∧ q.2.1 ≤ q.2.2.1 ∧ q.2.2.1 ≤ Config.maxAccount ∧ tblSorted q.2.2.2.2 = true

theorem holdCandOf_valid (h : holdsValid l) {q : SlotAddr × Nat × Nat × Nat × Tbl HoldEntry} (hq : q ∈ holdsOf l) :
    holdCandOf q = ⟨q.1, q.2.1, q.2.2.1, q.2.2.2.1, q.2.2.2.2⟩ := by
  obtain ⟨hlo, -, hhi, -⟩ := h q hq
  rw [holdCandOf, Nat.max_eq_left hlo, Nat.min_eq_left hhi]

/-- Whether the candidate at a place spans an account. -/
def spansAt (l : List Cand) (i a : Nat) : Prop := ∃ q, (holdsOf l)[i]? = some q ∧ q.2.1 ≤ a ∧ a ≤ q.2.2.1

/-- Whether the candidate at one place is newer than that at another. -/
def newerAt (l : List Cand) (i j : Nat) : Prop := ∃ a b, (holdsOf l)[i]? = some a ∧ (holdsOf l)[j]? = some b ∧
  (b.2.2.2.1 < a.2.2.2.1 ∨ (b.2.2.2.1 = a.2.2.2.1 ∧ i < j))

theorem spansAt_iff (h : holdsValid l) {i a : Nat} : spansAt l i a ↔ ∃ c, (c, i) ∈ placedHolds l ∧ c.spans a := by
  constructor
  · rintro ⟨q, hq, ha⟩
    refine ⟨_, mem_placedHolds.mpr ⟨q, hq, holdCandOf_valid h (List.mem_of_getElem? hq)⟩, ha⟩
  · rintro ⟨c, hc, ha⟩
    obtain ⟨q, hq, rfl⟩ := mem_placedHolds.mp hc
    rw [holdCandOf_valid h (List.mem_of_getElem? hq)] at ha
    exact ⟨q, hq, ha⟩

theorem newerAt_iff {c b : HoldCand} {i j : Nat} (hc : (c, i) ∈ placedHolds l) (hb : (b, j) ∈ placedHolds l) :
    newerAt l i j ↔ newerThan (c, i) (b, j) := by
  obtain ⟨q, hq, rfl⟩ := mem_placedHolds.mp hc
  obtain ⟨p, hp, rfl⟩ := mem_placedHolds.mp hb
  constructor
  · rintro ⟨q', p', hq', hp', hnew⟩
    obtain rfl := Option.some.inj (hq.symm.trans hq')
    obtain rfl := Option.some.inj (hp.symm.trans hp')
    exact hnew
  · exact fun hnew => ⟨q, p, hq, hp, hnew⟩

theorem newerThan_asymm {a b : HoldCand × Nat} (h : newerThan a b) : ¬ newerThan b a := by
  unfold newerThan at *
  omega

/-- The place of a candidate among the candidates in order: before it stand exactly the newer ones. -/
theorem placedHolds_split {c : HoldCand} {i : Nat} (hc : (c, i) ∈ placedHolds l) : ∃ before after,
    placedHolds l = before ++ (c, i) :: after ∧
      ∀ b j, (b, j) ∈ placedHolds l → ((b, j) ∈ before ↔ newerAt l j i) := by
  obtain ⟨before, after, heq⟩ := List.mem_iff_append.mp hc
  have hpair := placedHolds_newer l
  rw [heq] at hpair
  obtain ⟨-, hafter, hbefore⟩ := List.pairwise_append.mp hpair
  obtain ⟨hafter, -⟩ := List.pairwise_cons.mp hafter
  refine ⟨before, after, heq, fun b j hb => ?_⟩
  rw [newerAt_iff hb hc]
  refine ⟨fun hin => hbefore _ hin _ (List.mem_cons_self ..), fun hnew => ?_⟩
  have hin := hb
  rw [heq] at hin
  rcases List.mem_append.mp hin with hin | hin
  · exact hin
  · rcases List.mem_cons.mp hin with hself | hin
    · rw [hself] at hnew
      exact absurd hnew (newerThan_asymm hnew)
    · exact absurd hnew (newerThan_asymm (hafter _ hin))

theorem rebuiltRetention_spec (h : holdsValid l) (today : Nat) :
    let given := rebuiltRetention today l
    let ranges := given.1.ranges
    (∀ account, 1 ≤ account → account ≤ 999999999999999 → ∃ r ∈ ranges, r.lo ≤ account ∧ account ≤ r.hi ∧ r.wait = [] ∧
      r.rewrite = none ∧
      ((∀ i, ¬ spansAt l i account) → tblGet account given.1.holds = none ∧ r.sheet = none ∧ r.owed = false) ∧
      ∀ (i : Nat) (q : SlotAddr × Nat × Nat × Nat × Tbl HoldEntry), (holdsOf l)[i]? = some q → spansAt l i account →
        (∀ j, spansAt l j account → j = i ∨ newerAt l i j) →
        r.sheet = some (q.1, q.2.2.2.1) ∧ r.owed = true ∧
        tblGet account given.1.holds = (tblGet account q.2.2.2.2).bind (takenEntry today)) ∧
    (ranges.head?.map fun r => r.lo) = some 1 ∧ (ranges.getLast?.map fun r => r.hi) = some 999999999999999 ∧
    (∀ (i : Nat) (a b : HoldRange), ranges[i]? = some a → ranges[i + 1]? = some b → a.lo ≤ a.hi ∧ b.lo = a.hi + 1) ∧
    (∀ c ∈ holdsOf l, c.2.2.2.1 ≤ given.1.lastGeneration) ∧
    (given.1.lastGeneration = 0 ∨ ∃ c ∈ holdsOf l, c.2.2.2.1 = given.1.lastGeneration) ∧
    ∀ slot, slot ∈ given.2 ↔ ∃ i c, (holdsOf l)[i]? = some c ∧ c.1 = slot ∧
      ∀ account, c.2.1 ≤ account → account ≤ c.2.2.1 → ∃ j, newerAt l j i ∧ spansAt l j account := by
  have hwf : ∀ c ∈ holdCands l, c.wf := fun c hc => by
    rw [holdCands_eq] at hc
    obtain ⟨⟨c, i⟩, hp, rfl⟩ := List.mem_map.mp hc
    obtain ⟨q, hq, rfl⟩ := mem_placedHolds.mp hp
    have hin := List.mem_of_getElem? hq
    obtain ⟨-, hle, -, hsorted⟩ := h q hin
    rw [holdCandOf_valid h hin]
    exact ⟨hle, hsorted⟩
  obtain ⟨ranges, rows, voided, hresolved⟩ : ∃ ranges rows voided, resolveHolds today [] (holdCands l) = (ranges, rows, voided) :=
    ⟨_, _, _, rfl⟩
  obtain ⟨hfrom, hpair, hnone, hfirst, hvoid⟩ := resolveHolds_spec today hwf (fun _ ht => absurd ht List.not_mem_nil) hresolved
  have hgiven : rebuiltRetention today l = (⟨rows.foldl (fun t p => tblPut p.1 p.2 t) [],
      fillGaps 1 (sortBy (fun a b => decide (a.lo < b.lo)) ranges), ((holdCands l).map (·.generation)).foldl max 0, none⟩, voided) := by
    unfold rebuiltRetention
    simp only [hresolved]
  rw [hgiven]
  have hsorted := sortBy_perm (lt := fun a b : HoldRange => decide (a.lo < b.lo)) ranges
  have hbounds : ∀ c ∈ holdCands l, 1 ≤ c.lo ∧ c.hi ≤ Config.maxAccount := fun c hc => by
    rw [holdCands_eq] at hc
    obtain ⟨⟨c, i⟩, hp, rfl⟩ := List.mem_map.mp hc
    obtain ⟨q, -, rfl⟩ := mem_placedHolds.mp hp
    exact ⟨Nat.le_max_right _ _, Nat.min_le_right _ _⟩
  have hranges : ∀ r ∈ sortBy (fun a b => decide (a.lo < b.lo)) ranges, 1 ≤ r.lo ∧ r.lo ≤ r.hi ∧ r.hi ≤ Config.maxAccount := fun r hr => by
    obtain ⟨c, hc, hle, -, hlo, hhi⟩ := hfrom r (hsorted.mem_iff.mp hr)
    obtain ⟨hone, hmax⟩ := hbounds c hc
    exact ⟨hone.trans hlo, hle, hhi.trans hmax⟩
  obtain ⟨htiled, hin, hwhere⟩ := fillGaps_spec (by decide) hranges
    (sorted_ranges (fun r hr => by obtain ⟨_, _, hle, _⟩ := hfrom r hr; exact hle) hpair)
  obtain ⟨hhead, hlast, hnext, hcover⟩ := tiled_spec htiled (by decide)
  have hgen : ∀ n, n ∈ (holdCands l).map (·.generation) ↔ ∃ c ∈ holdsOf l, c.2.2.2.1 = n := fun n => by
    rw [holdCands_eq, List.map_map, List.mem_map]
    constructor
    · rintro ⟨⟨c, i⟩, hc, rfl⟩
      obtain ⟨q, hq, rfl⟩ := mem_placedHolds.mp hc
      exact ⟨q, List.mem_of_getElem? hq, rfl⟩
    · rintro ⟨q, hq, rfl⟩
      obtain ⟨i, hi⟩ := List.mem_iff_getElem?.mp hq
      exact ⟨(holdCandOf q, i), mem_placedHolds.mpr ⟨q, hi, rfl⟩, rfl⟩
  obtain ⟨hgreatest, hwhich⟩ := foldl_max_spec ((holdCands l).map (·.generation))
  refine ⟨fun a hone hmax => ?_, hhead, hlast, hnext, fun c hc => hgreatest _ ((hgen _).mpr ⟨c, hc, rfl⟩),
    hwhich.imp_right fun hin => (hgen _).mp hin, fun slot => ?_⟩
  · obtain ⟨r, hr, hlo, hhi⟩ := hcover a hone hmax
    have hkind : r ∈ ranges ∨ r.gapOf (sortBy (fun a b => decide (a.lo < b.lo)) ranges) :=
      (hwhere r hr).2.imp_left hsorted.mem_iff.mp
    refine ⟨r, hr, hlo, hhi, ?_, ?_, fun hno => ?_, fun i q hq hspan hnew => ?_⟩
    · rcases hkind with hr | ⟨-, hwait, -⟩
      · obtain ⟨c, -, -, heq, -⟩ := hfrom r hr
        rw [heq]
      · exact hwait
    · rcases hkind with hr | ⟨-, -, -, hrewrite, -⟩
      · obtain ⟨c, -, -, heq, -⟩ := hfrom r hr
        rw [heq]
      · exact hrewrite
    · have hnospan : ∀ c ∈ holdCands l, ¬ c.spans a := fun c hc hca => by
        rw [holdCands_eq] at hc
        obtain ⟨⟨c, i⟩, hp, rfl⟩ := List.mem_map.mp hc
        exact hno i ((spansAt_iff h).mpr ⟨c, hp, hca⟩)
      obtain ⟨hnorange, hnorows⟩ := hnone a (.inr hnospan)
      obtain ⟨hsheet, -, howed, -⟩ := hkind.resolve_left fun hr => hnorange r hr ⟨hlo, hhi⟩
      refine ⟨?_, hsheet, howed⟩
      rw [tblGet_foldl_put_rows, hnorows]
      rfl
    · have hp : (holdCandOf q, i) ∈ placedHolds l := mem_placedHolds.mpr ⟨q, hq, rfl⟩
      obtain ⟨before, after, heq, hbefore⟩ := placedHolds_split hp
      have hcands : holdCands l = before.map (·.1) ++ holdCandOf q :: after.map (·.1) := by
        rw [holdCands_eq, heq, List.map_append, List.map_cons]
      have hca : (holdCandOf q).spans a := by
        obtain ⟨p, hpi, hpa⟩ := hspan
        obtain rfl := Option.some.inj (hq.symm.trans hpi)
        rw [holdCandOf_valid h (List.mem_of_getElem? hq)]
        exact hpa
      have hfirstOne : ∀ b ∈ before.map (·.1), ¬ b.spans a := fun b hb hba => by
        obtain ⟨⟨b, j⟩, hbj, rfl⟩ := List.mem_map.mp hb
        have hpj : (b, j) ∈ placedHolds l := by
          rw [heq]
          exact List.mem_append.mpr (.inl hbj)
        have hnewer : newerThan (b, j) (holdCandOf q, i) := (newerAt_iff hpj hp).mp ((hbefore b j hpj).mp hbj)
        rcases hnew j ((spansAt_iff h).mpr ⟨b, hpj, hba⟩) with rfl | hold
        · obtain ⟨p, hpq, rfl⟩ := mem_placedHolds.mp hpj
          obtain rfl := Option.some.inj (hq.symm.trans hpq)
          exact newerThan_asymm hnewer hnewer
        · exact newerThan_asymm hnewer ((newerAt_iff hp hpj).mp hold)
      obtain ⟨⟨p, hpr, hpa⟩, hsheet, hrows⟩ :=
        hfirst _ _ _ hcands a hca hfirstOne (fun _ ht => absurd ht List.not_mem_nil)
      have hrin : r ∈ ranges := hkind.resolve_right fun ⟨_, _, _, _, hapart⟩ => by
        have hcross := hapart p (hsorted.mem_iff.mpr hpr)
        simp only [HoldRange.holds, inSpan, spansApart] at hcross hpa
        omega
      obtain ⟨c, -, -, hform, -⟩ := hfrom r hrin
      refine ⟨hsheet r hrin ⟨hlo, hhi⟩, by rw [hform], ?_⟩
      rw [tblGet_foldl_put_rows, hrows]
      show _ = (tblGet a (holdCandOf q).rows).bind (takenEntry today)
      cases (tblGet a (holdCandOf q).rows).bind (takenEntry today) <;> rfl
  · rw [hvoid slot]
    constructor
    · rintro ⟨before, c, after, heq, rfl, hall⟩
      rw [holdCands_eq] at heq
      obtain ⟨newer, rest, hplaced, rfl, hrest⟩ := List.map_eq_append_iff.mp heq
      obtain ⟨⟨c', i⟩, older, rfl, rfl, -⟩ := List.map_eq_cons_iff.mp hrest
      have hp : (c', i) ∈ placedHolds l := by
        rw [hplaced]
        exact List.mem_append.mpr (.inr (List.mem_cons_self ..))
      obtain ⟨q, hq, rfl⟩ := mem_placedHolds.mp hp
      refine ⟨i, q, hq, rfl, fun a hlo hhi => ?_⟩
      have hca : (holdCandOf q).spans a := by
        rw [holdCandOf_valid h (List.mem_of_getElem? hq)]
        exact ⟨hlo, hhi⟩
      obtain ⟨b, hb, hba⟩ := (hall a hca).resolve_right fun ⟨_, ht, _⟩ => List.not_mem_nil ht
      obtain ⟨⟨b, j⟩, hbj, rfl⟩ := List.mem_map.mp hb
      have hpj : (b, j) ∈ placedHolds l := by
        rw [hplaced]
        exact List.mem_append.mpr (.inl hbj)
      have hpair := placedHolds_newer l
      rw [hplaced] at hpair
      obtain ⟨-, -, hcross⟩ := List.pairwise_append.mp hpair
      exact ⟨j, (newerAt_iff hpj hp).mpr (hcross _ hbj _ (List.mem_cons_self ..)), (spansAt_iff h).mpr ⟨b, hpj, hba⟩⟩
    · rintro ⟨i, q, hq, rfl, hall⟩
      have hp : (holdCandOf q, i) ∈ placedHolds l := mem_placedHolds.mpr ⟨q, hq, rfl⟩
      obtain ⟨before, after, heq, hbefore⟩ := placedHolds_split hp
      refine ⟨before.map (·.1), holdCandOf q, after.map (·.1), by rw [holdCands_eq, heq, List.map_append, List.map_cons], rfl,
        fun a ha => .inl ?_⟩
      rw [holdCandOf_valid h (List.mem_of_getElem? hq)] at ha
      obtain ⟨j, hnewer, hspan⟩ := hall a ha.1 ha.2
      obtain ⟨b, hb, hba⟩ := (spansAt_iff h).mp hspan
      exact ⟨b, List.mem_map.mpr ⟨(b, j), (hbefore b j hb).mpr hnewer, rfl⟩, hba⟩

end

end Sys2Proof.Machine
end

section
/-! SUPPORT. The end of the rebuild: the space notices armed, and the notice that joins its queue; and the statement of the rebuild. -/

namespace Sys2Proof.Machine

/-! ## The space notices armed -/

/-- A port after some notices, none of them REBUILD_DONE: its flag as it was, and a place at most of each queue for each. -/
def Port.Noted (n : Nat) (p q : Port) : Prop :=
  q.notices.length = p.notices.length ∧ q.notices.getD 7 none = p.notices.getD 7 none ∧
    ∀ ch, (q.out.get ch).length ≤ (p.out.get ch).length + n

theorem Port.Noted.refl (p : Port) (n : Nat) : p.Noted n p := ⟨rfl, rfl, fun _ => Nat.le_add_right _ _⟩

theorem Port.Noted.trans {n m : Nat} {p q r : Port} (h : p.Noted n q) (h' : q.Noted m r) : p.Noted (n + m) r := by
  obtain ⟨hlen, hflag, hout⟩ := h
  obtain ⟨hlen', hflag', hout'⟩ := h'
  refine ⟨hlen'.trans hlen, hflag'.trans hflag, fun ch => ?_⟩
  have := hout ch
  have := hout' ch
  omega

theorem Port.noted_noticed (x : Ctx) (p : Port) {k : NoticeKind} (res : Result) (hk : k.index ≠ 7) : p.Noted 1 (p.noticed x k res) := by
  refine ⟨?_, ?_, fun ch => Port.length_noticed_le x p k res ch⟩ <;> unfold Port.noticed <;> dsimp only <;> split
  · exact List.length_set
  · exact List.length_set
  · simp [hk]
  · simp [hk]

/-- The array with a channel's CLEAR_SPACE_LOW armed or not. -/
def Works.setLow (w : Works) (mc : Fin 4) (b : Bool) : Works := w.mapChan mc fun c => { c with lowArmed := b }

theorem Works.setLow_setLow (w : Works) (mc : Fin 4) (a b : Bool) : (w.setLow mc a).setLow mc b = w.setLow mc b :=
  match mc with
  | 0 => rfl
  | 1 => rfl
  | 2 => rfl
  | 3 => rfl

theorem Works.setLow_clear (x : Ctx) (w : Works) (mc k : Fin 4) (b : Bool) :
    (w.setLow mc b).clearOf x k = w.clearOf x k ∧ ((w.setLow mc b).chan k).online = (w.chan k).online := by
  unfold Works.setLow Works.clearOf
  by_cases h : k = mc
  · subst h
    rw [Works.mapChan_chan_self]
    exact ⟨rfl, rfl⟩
  · rw [Works.mapChan_chan_other _ _ h]
    exact ⟨rfl, rfl⟩

/-- Two states of the units with the same CLEAR counts on the same ONLINE channels. -/
def Works.SameClear (x : Ctx) (w v : Works) : Prop :=
  ∀ k, v.clearOf x k = w.clearOf x k ∧ (v.chan k).online = (w.chan k).online

/-- A channel's CLEAR_SPACE_LOW is armed exactly when its CLEAR count is at the low mark at least. -/
theorem Works.armLow_spec {x : Ctx} {w : Works} {mc : Fin 4} (hpart : w.part = .running) (hext : 0 < (x.set.media.get mc).extents) :
    let v := w.armLow x mc
    v.part = .running ∧ w.SameClear x v ∧
    (v.chan mc).lowArmed = decide (markSlots (x.set.media.get mc) (x.set.media.get mc).low ≤ w.clearOf x mc) ∧
    (∀ k, k ≠ mc → (v.chan k).lowArmed = (w.chan k).lowArmed) ∧ v.array.fullArmed = w.array.fullArmed ∧ w.port.Noted 1 v.port := by
  intro v
  have hcases : ∃ b port, v = { w.setLow mc b with port := port } ∧
      b = decide (markSlots (x.set.media.get mc) (x.set.media.get mc).low ≤ w.clearOf x mc) ∧ w.port.Noted 1 port := by
    have hclear := (w.setLow_clear x mc mc true).1
    have harmed : ((w.setLow mc true).chan mc).lowArmed = true := congrArg MediaChan.lowArmed (Works.mapChan_chan_self _ _ _)
    have hgo : ¬ ((x.set.media.get mc).extents = 0 ∨ (w.setLow mc true).part ≠ .running) := fun h =>
      h.elim (Nat.ne_of_gt hext) fun hne => hne hpart
    have hv : v = if ((w.setLow mc true).chan mc).lowArmed ∧
        (w.setLow mc true).clearOf x mc < markSlots (x.set.media.get mc) (x.set.media.get mc).low then
          ((w.setLow mc true).setLow mc false).notice x .clearSpaceLow (.channelClear mc ((w.setLow mc true).clearOf x mc))
        else if markSlots (x.set.media.get mc) (x.set.media.get mc).high ≤ (w.setLow mc true).clearOf x mc then
          (w.setLow mc true).setLow mc true
        else w.setLow mc true := if_neg hgo
    rw [hclear, harmed, Works.setLow_setLow, Works.setLow_setLow] at hv
    by_cases hlow : w.clearOf x mc < markSlots (x.set.media.get mc) (x.set.media.get mc).low
    · rw [if_pos ⟨rfl, hlow⟩, Works.notice_eq] at hv
      exact ⟨false, _, hv, (decide_eq_false (Nat.not_le.mpr hlow)).symm, Port.noted_noticed x _ _ (by decide)⟩
    · rw [if_neg fun h => hlow h.2] at hv
      refine ⟨true, w.port, ?_, (decide_eq_true (Nat.not_lt.mp hlow)).symm, .refl _ _⟩
      rw [hv]
      split <;> rfl
  obtain ⟨b, port, hv, hb, hnoted⟩ := hcases
  rw [hv]
  refine ⟨hpart, fun k => w.setLow_clear x mc k b, ?_, fun k hk => ?_, rfl, hnoted⟩
  · rw [← hb]
    exact congrArg MediaChan.lowArmed (Works.mapChan_chan_self _ _ _)
  · exact congrArg MediaChan.lowArmed (Works.mapChan_chan_other _ _ hk)

/-- The channels of a list armed and tested, each once. -/
theorem Works.armLows_spec {x : Ctx} {l : List (Fin 4)} (hl : l.Nodup) (hext : ∀ mc ∈ l, 0 < (x.set.media.get mc).extents) {w : Works}
    (hpart : w.part = .running) :
    let v := l.foldl (fun w mc => w.armLow x mc) w
    v.part = .running ∧ w.SameClear x v ∧
    (∀ mc ∈ l, (v.chan mc).lowArmed = decide (markSlots (x.set.media.get mc) (x.set.media.get mc).low ≤ w.clearOf x mc)) ∧
    (∀ k, k ∉ l → (v.chan k).lowArmed = (w.chan k).lowArmed) ∧ v.array.fullArmed = w.array.fullArmed ∧ w.port.Noted l.length v.port := by
  induction l generalizing w with
  | nil => exact ⟨hpart, fun _ => ⟨rfl, rfl⟩, by simp, fun _ _ => rfl, rfl, .refl _ _⟩
  | cons mc l ih =>
    obtain ⟨hmc, hl⟩ := List.nodup_cons.mp hl
    obtain ⟨hextmc, hext⟩ := List.forall_mem_cons.mp hext
    obtain ⟨hpart', hclear, hlow, hother, hfull, hport⟩ := w.armLow_spec hpart hextmc
    obtain ⟨hpart'', hclear', hlow', hother', hfull', hport'⟩ := ih hl hext hpart'
    refine ⟨hpart'', fun k => ⟨(hclear' k).1.trans (hclear k).1, (hclear' k).2.trans (hclear k).2⟩,
      List.forall_mem_cons.mpr ⟨(hother' mc hmc).trans hlow, fun k hk => ?_⟩, fun k hk => ?_, hfull'.trans hfull, ?_⟩
    · rw [← (hclear k).1]
      exact hlow' k hk
    · obtain ⟨hne, hk⟩ := not_or.mp fun h => hk (List.mem_cons.mpr h)
      exact (hother' k hk).trans (hother k hne)
    · rw [List.length_cons, Nat.add_comm]
      exact hport.trans hport'

theorem Works.SameClear.total {x : Ctx} {w v : Works} (h : w.SameClear x v) : v.clearTotal x = w.clearTotal x := by
  unfold Works.clearTotal
  have honline : (fun mc => (v.chan mc).online) = fun mc => (w.chan mc).online := funext fun k => (h k).2
  have hclear : (fun mc => v.clearOf x mc) = fun mc => w.clearOf x mc := funext fun k => (h k).1
  rw [honline, hclear]

/-- ARRAY_FULL is armed exactly when the total is above 0. -/
theorem Works.fullTest_spec {x : Ctx} {w : Works} (hpart : w.part = .running) (harmed : w.array.fullArmed = true) :
    let v := w.fullTest x
    (∀ k, (v.chan k).lowArmed = (w.chan k).lowArmed) ∧ v.array.fullArmed = decide (0 < w.clearTotal x) ∧ w.port.Noted 1 v.port := by
  intro v
  have hv : v = if w.clearTotal x = 0 then
      ({ w with array := { w.array with fullArmed := false } } : Works).notice x .arrayFull (.slots w.usedSlots)
      else { w with array := { w.array with fullArmed := true } } := by
    refine (if_neg fun h => h hpart).trans ?_
    rw [if_pos harmed]
  by_cases h : w.clearTotal x = 0
  · rw [if_pos h, Works.notice_eq] at hv
    rw [hv]
    exact ⟨fun _ => rfl, (decide_eq_false (by omega)).symm, Port.noted_noticed x _ _ (by decide)⟩
  · rw [if_neg h] at hv
    rw [hv]
    exact ⟨fun _ => rfl, (decide_eq_true (by omega)).symm, .refl _ _⟩

/-! ## The end of the rebuild -/

theorem configured_spec (x : Ctx) : (configured x).Nodup ∧ (configured x).length ≤ 4 ∧
    ∀ mc, mc ∈ configured x ↔ 0 < (x.set.media.get mc).extents := by
  have hall : ∀ mc : Fin 4, mc ∈ channels := by decide
  have hchannels : channels.Nodup := by decide
  refine ⟨hchannels.filter _, List.length_filter_le _ _, fun mc => ?_⟩
  rw [configured, List.mem_filter]
  exact ⟨fun h => of_decide_eq_true h.2, fun h => ⟨hall mc, decide_eq_true h⟩⟩

/-- The end of the rebuild: what it leaves, what follows, the notices armed, and REBUILD_DONE queued or pending. -/
theorem Works.rebuildEnd_spec (x : Ctx) (w : Works) (hflags : w.port.notices.length = 8) :
    let t := w.rebuildEnd x
    let ch := x.set.routes.getD 7 0
    let merged := (w.port.notices.getD 7 none).isSome
    t.part = .running ∧ t.rebuild = w.rebuild ∧ t.days = w.days ∧ t.retention = w.retention ∧
    t.scrub = { w.scrub with timerFrom := x.clock } ∧
    (∀ r ∈ w.retention.ranges, r.owed = true → .holdStart r.lo ∈ t.tasks) ∧
    (∀ mc : Fin 4, 0 < (x.set.media.get mc).extents → .relocationTest mc ∈ t.tasks ∧
      (t.chan mc).lowArmed = decide (markSlots (x.set.media.get mc) (x.set.media.get mc).low ≤ w.clearOf x mc)) ∧
    t.array.fullArmed = decide (0 < w.clearTotal x) ∧
    ((x.windows.get ch).state ≠ .active → t.port.notices.getD 7 none = some ⟨.rebuildDone w.rebuild.counts, merged⟩) ∧
    ((x.windows.get ch).state = .active → (w.port.out.get ch).length ≤ 58 →
      (t.port.out.get ch).getLast? = some ⟨0, .done, none, some .rebuildDone, false, merged, .rebuildDone w.rebuild.counts⟩) := by
  intro t ch merged
  obtain ⟨hnodup, hlen, hmem⟩ := configured_spec x
  obtain ⟨hpart, hclear, hlow, -, hfull, hport⟩ :=
    Works.armLows_spec hnodup (fun mc hmc => (hmem mc).mp hmc) (x := x) (w := w.ended x) rfl
  obtain ⟨hlow', hfull', hport'⟩ := Works.fullTest_spec (x := x) hpart hfull
  obtain ⟨hcount, hflag, hout⟩ := hport.trans hport'
  obtain ⟨array, port, hframe⟩ := w.rebuildEnd_frame x
  obtain ⟨u, hu⟩ : ∃ u, u = ((configured x).foldl (fun w mc => w.armLow x mc) (w.ended x)).fullTest x := ⟨_, rfl⟩
  rw [← hu] at hlow' hfull' hcount hflag hout
  have heq : t = { u with
      tasks := u.tasks ++ (configured x).map fun mc => .relocationTest mc
      port := u.port.noticed x .rebuildDone (.rebuildDone u.rebuild.counts) } := by
    rw [hu]
    exact w.rebuildEnd_eq x
  have hkept : t.part = .running ∧ t.rebuild = w.rebuild ∧ t.days = w.days ∧ t.retention = w.retention ∧
      t.scrub = { w.scrub with timerFrom := x.clock } ∧
      t.tasks = w.tasks ++ ((w.retention.ranges.filter fun r => r.owed).map fun r => .holdStart r.lo) ++
        (configured x).map fun mc => .relocationTest mc := by
    rw [show t = _ from hframe]
    exact ⟨rfl, rfl, rfl, rfl, rfl, rfl⟩
  obtain ⟨hrunning, hcounts, hdays, hretention, hscrub, htasks⟩ := hkept
  have hrebuild : u.rebuild = w.rebuild := by
    rw [← hcounts, heq]
  have hport : t.port = u.port.noticed x .rebuildDone (.rebuildDone w.rebuild.counts) := by rw [heq, hrebuild]
  have harray : t.array = u.array := by rw [heq]
  refine ⟨hrunning, hcounts, hdays, hretention, hscrub, fun r hr howed => ?_, fun mc hmc => ⟨?_, ?_⟩, ?_, fun hidle => ?_,
    fun hactive hroom => ?_⟩
  · rw [htasks]
    exact List.mem_append.mpr (.inl (List.mem_append.mpr (.inr (List.mem_map.mpr ⟨r, List.mem_filter.mpr ⟨hr, howed⟩, rfl⟩))))
  · rw [htasks]
    exact List.mem_append.mpr (.inr (List.mem_map_of_mem ((hmem mc).mpr hmc)))
  · rw [Works.chan, harray]
    exact (hlow' mc).trans (hlow mc ((hmem mc).mpr hmc))
  · rw [harray, hfull']
    exact congrArg (fun n => decide (0 < n)) hclear.total
  · have hlt : 7 < u.port.notices.length := by rw [hcount]; exact hflags.symm ▸ (by decide)
    rw [hport, Port.noticed]
    rw [if_neg fun h => hidle h.1]
    have hflag' : u.port.notices.getD 7 none = w.port.notices.getD 7 none := hflag
    simp only [NoticeKind.index, List.getD_eq_getElem?_getD, List.getElem?_set_self hlt, Option.getD_some] at hflag' ⊢
    rw [hflag']
    rfl
  · have hplace : (u.port.out.get ch).length < 64 := by
      have hle := hout ch
      have hold : ((w.ended x).port.out.get ch).length ≤ 58 := hroom
      omega
    rw [hport, Port.noticed]
    refine (congrArg (fun p : Port => (p.out.get ch).getLast?) (if_pos ⟨hactive, hplace⟩)).trans ?_
    have hwas : (u.port.notices.getD 7 none).isSome = merged := congrArg Option.isSome hflag
    rw [← hwas]
    exact (congrArg List.getLast? (Quad.get_set_self _ _ _)).trans List.getLast?_concat

/-- A void mark of the rebuild completed: counted, and with the last one the rebuild ends. -/
theorem Works.rebuildMarked_spec (x : Ctx) (w : Works) (hpart : w.part = .rebuilding) (hres : w.rebuild.resolved = true) :
    let counted : Works := { w with rebuild := { w.rebuild with marks := w.rebuild.marks - 1 } }
    (2 ≤ w.rebuild.marks → w.rebuildMarked x = counted) ∧ (w.rebuild.marks = 1 → w.rebuildMarked x = counted.rebuildEnd x) := by
  intro counted
  refine ⟨fun h => if_neg fun hend => ?_, fun h => if_pos ?_⟩
  · have hzero : w.rebuild.marks - 1 = 0 := of_decide_eq_true ((Bool.and_eq_true _ _).mp hend).2
    omega
  · have hzero : w.rebuild.marks - 1 = 0 := by rw [h]
    exact (Bool.and_eq_true _ _).mpr ⟨(Bool.and_eq_true _ _).mpr ⟨decide_eq_true hpart, hres⟩, decide_eq_true hzero⟩

/-- The release-day rule on one entry: nothing is left of it without disputes and a regulatory hold. -/
theorem takenEntry_eq (today : Nat) (e : HoldEntry) : takenEntry today e =
    let kept : HoldEntry := if (e.reg.bind fun h => h.release).any (fun day => decide (day ≤ today)) then { e with reg := none } else e
    if kept.disputes = 0 ∧ kept.reg = none then none else some kept := by
  have halive : ∀ k : HoldEntry, (if k.alive then some k else none) = if k.disputes = 0 ∧ k.reg = none then none else some k := fun k => by
    by_cases h : k.disputes = 0 ∧ k.reg = none
    · have hdead : k.alive = false := by simp [HoldEntry.alive, h]
      rw [if_pos h, hdead]
      rfl
    · have hlive : k.alive = true := by
        rw [HoldEntry.alive, Bool.or_eq_true, decide_eq_true_eq, Option.isSome_iff_ne_none]
        by_cases hd : k.disputes = 0
        · exact .inr fun hreg => h ⟨hd, hreg⟩
        · exact .inl (Nat.pos_of_ne_zero hd)
      rw [if_neg h, if_pos hlive]
  exact halive _

/-- Settles O60: the candidates of a day by the rules of step 4 to 7, the days and holds by their candidates, the end by its marks. -/
theorem rebuiltDaysStandWithoutOverlap : Obligations.RebuiltDaysStandWithoutOverlap := by
  refine ⟨fun stood d slot group sum l hl => ?_, fun stood d cands => resolveDay_spec stood d cands,
    fun x w cands hpart hres hperm hpair => ?_, fun today cands hvalid => ?_, fun x w slot hpart hres hflags => ?_⟩
  · obtain ⟨hsub, hstand, hpair, hgone⟩ := survivors_spec (group := group) (ranges := sum.ranges) (l := l)
    obtain ⟨hruns, hbalance, hplaces, hcount⟩ := rebuiltDay_spec stood d slot group sum (fun c hc => hl c (hsub.subset hc)) hpair
    exact ⟨hsub, hstand, hpair, hgone, rfl, rfl, hruns, hbalance, rfl, hplaces, hcount⟩
  · exact Works.resolve_spec hpart hres hperm hpair
  · have hholds : holdsValid cands := fun q hq => hvalid q.1 q.2.1 q.2.2.1 q.2.2.2.1 q.2.2.2.2 hq
    obtain ⟨haccounts, hrest⟩ := rebuiltRetention_spec hholds today
    refine ⟨fun a hone hmax => ?_, hrest⟩
    obtain ⟨r, hr, hlo, hhi, hwait, hrewrite, hno, hspan⟩ := haccounts a hone hmax
    refine ⟨r, hr, hlo, hhi, hwait, hrewrite, hno, fun i slot lo hi g rows hq hspans hnewest => ?_⟩
    obtain ⟨hsheet, howed, hget⟩ := hspan i (slot, lo, hi, g, rows) hq hspans hnewest
    exact ⟨hsheet, howed, hget.trans (congrArg (tblGet a rows).bind (funext (takenEntry_eq today)))⟩
  · obtain ⟨hmore, hlast⟩ := w.rebuildMarked_spec x hpart hres
    refine ⟨hmore, fun hone => ?_⟩
    rw [show w.runTask x (.voidDone .rebuild slot) = _ from hlast hone]
    obtain ⟨hrunning, hcounts, hdays, hretention, hscrub, howed, hchans, hfull, hidle, hactive⟩ :=
      Works.rebuildEnd_spec x { w with rebuild := { w.rebuild with marks := w.rebuild.marks - 1 } } hflags
    exact ⟨hrunning, hcounts, hdays, hretention, hscrub, howed, hchans, hfull, hidle, hactive⟩

end Sys2Proof.Machine
end

section
/-!
SUPPORT. The bounds of the units (R75, R103, R109, R167, R168) as an invariant of the units' state, kept by every operation of the
port, the catalogue and the Intake Unit. Each theorem `Works.Fits.f` says that `f` keeps the bounds; the proofs follow the definitions.
-/

namespace Sys2Proof.Machine

/-! ## The bounds -/

/-- What of a request in progress the bounds speak of: its serial number and its channel. -/
def Req.place (r : Req) : Nat × Fin 4 := (r.id, r.ch)

/-- The port's bounds: 64 responses queued on a channel, at most `lim ch` requests in progress on channel `ch`, in the order of their
serial numbers, each below `n`. -/
def Port.Fits (lim : Fin 4 → Nat) (n : Nat) (p : Port) : Prop :=
  (∀ ch, (p.out.get ch).length ≤ Config.outbound) ∧ (∀ ch, p.inProgress ch ≤ lim ch) ∧
    p.reqs.Pairwise (fun a b => a.id < b.id) ∧ ∀ r ∈ p.reqs, r.id < n

/-- A media channel's bounds: 512 operations queued, one entry for each extent. -/
def MediaChan.Fits (c : MediaChan) : Prop := c.queue.length ≤ Config.opQueue ∧ tblSorted c.exts = true

/-- The units' bounds, with at most `lim ch` requests in progress on channel `ch`. -/
def Works.Fits (lim : Fin 4 → Nat) (w : Works) : Prop :=
  w.port.Fits lim w.serial ∧ (∀ mc, (w.chan mc).Fits) ∧ w.packer.queue.length ≤ Config.packerQueue ∧
    w.enquiry.cursors.length = 16

/-- The requests that a channel's window leaves to be in progress: eight, less the one being fetched (R167). -/
def Window.room (v : Window) : Nat := Config.inProgress - if v.fetching then 1 else 0

theorem State.bounded_iff (s : State) : s.bounded ↔ s.works.Fits fun ch => (s.windows.get ch).room := by
  have hroom (ch : Fin 4) : (s.works.port.inProgress ch + if (s.windows.get ch).fetching then 1 else 0) ≤ Config.inProgress ↔
      s.works.port.inProgress ch ≤ (s.windows.get ch).room := by
    unfold Window.room
    have : Config.inProgress = 8 := rfl
    split <;> omega
  simp only [State.bounded, Works.Fits, Port.Fits, MediaChan.Fits, hroom, forall_and, and_assoc]

variable {lim : Fin 4 → Nat} {w : Works} {x : Ctx}

/-! ## Bounds of the port -/

theorem Port.inProgress_eq (p : Port) (ch : Fin 4) : p.inProgress ch = (p.reqs.map Req.place).countP fun q => decide (q.2 = ch) := by
  rw [List.countP_map]
  rfl

/-- The bounds stay where requests leave or change but for their places, and no queue passes its limit. -/
theorem Port.Fits.thin {p q : Port} {n m : Nat} (h : p.Fits lim n) (hout : ∀ ch, (q.out.get ch).length ≤ Config.outbound)
    (hreqs : (q.reqs.map Req.place).Sublist (p.reqs.map Req.place)) (hn : n ≤ m) : q.Fits lim m := by
  obtain ⟨-, hin, hid, hser⟩ := h
  have hid' : (p.reqs.map Req.place).Pairwise fun a b => a.1 < b.1 := List.pairwise_map.mpr hid
  refine ⟨hout, fun ch => ?_, List.pairwise_map (R := fun a b : Nat × Fin 4 => a.1 < b.1).mp (hid'.sublist hreqs), fun r hr => ?_⟩
  · rw [q.inProgress_eq]
    exact hreqs.countP_le.trans ((p.inProgress_eq ch).symm.le.trans (hin ch))
  · obtain ⟨r', hr', he⟩ := List.mem_map.mp (hreqs.subset (List.mem_map_of_mem hr))
    have : r'.id = r.id := congrArg Prod.fst he
    exact this ▸ (hser r' hr').trans_le hn

theorem Port.Fits.mono {p : Port} {n m : Nat} (h : p.Fits lim n) (hn : n ≤ m) : p.Fits lim m := h.thin h.1 (List.Sublist.refl _) hn

theorem map_place_map {f : Req → Req} (hf : ∀ r, (f r).place = r.place) (l : List Req) :
    (l.map f).map Req.place = l.map Req.place := by
  rw [List.map_map]
  exact List.map_congr_left fun r _ => hf r

theorem sublist_updatePhase (p : Req → Bool) (ph : ReqPhase) (l : List Req) :
    ((updateWhere p (fun r => { r with phase := ph }) l).map Req.place).Sublist (l.map Req.place) := by
  rw [updateWhere, map_place_map fun r => by split <;> rfl]

/-- An outbound queue with a place takes one more response. -/
theorem Quad.length_push_le {α : Type} {q : Quad (List α)} {ch : Fin 4} {a : α} {n : Nat} (h : ∀ i, (q.get i).length ≤ n)
    (hroom : (q.get ch).length < n) (i : Fin 4) : ((q.modify ch (· ++ [a])).get i).length ≤ n := by
  rw [Quad.get_modify]
  split
  · rw [List.length_append, List.length_singleton]
    subst_vars
    exact hroom
  · exact h i

theorem Port.Fits.leave {p : Port} {n : Nat} (h : p.Fits lim n) (id : Nat) : (p.leave id).Fits lim n :=
  h.thin h.1 (List.filter_sublist.map _) le_rfl

theorem Port.Fits.push {p : Port} {n : Nat} (h : p.Fits lim n) (ns : List (Option PendingNotice)) (ch : Fin 4) (resp : Response)
    (hroom : (p.out.get ch).length < Config.outbound) :
    ({ p with notices := ns, out := p.out.modify ch (· ++ [resp]) } : Port).Fits lim n :=
  h.thin (Quad.length_push_le h.1 hroom) (List.Sublist.refl _) le_rfl

theorem Port.Fits.offer {p : Port} {n : Nat} (h : p.Fits lim n) (r : Req) (resp : Response) : (p.offer r resp).Fits lim n := by
  unfold Port.offer
  split_ifs with hd hroom
  · exact h.leave r.id
  · exact (h.push p.notices r.ch resp hroom).leave r.id
  · exact h.thin h.1 (sublist_updatePhase ..) le_rfl

theorem Port.Fits.discard {p : Port} {n : Nat} (h : p.Fits lim n) (ch : Fin 4) : (p.discard ch).Fits lim n := by
  refine h.thin (fun i => ?_) ?_ le_rfl
  · simp only [Port.discard, Quad.get_set]
    split
    · exact Nat.zero_le _
    · exact h.1 i
  · simp only [Port.discard]
    rw [map_place_map fun r => by split <;> rfl]
    exact List.filter_sublist.map _

/-! ## Bounds of the units -/

theorem Works.Fits.withPort (h : w.Fits lim) {p : Port} (hp : p.Fits lim w.serial) : ({ w with port := p } : Works).Fits lim :=
  ⟨hp, h.2⟩

theorem Works.Fits.withIntake (h : w.Fits lim) (i : Intake) : ({ w with intake := i } : Works).Fits lim := h

theorem Works.Fits.next (h : w.Fits lim) : w.next.2.Fits lim := ⟨h.1.mono (Nat.le_succ _), h.2⟩

theorem Works.Fits.task (h : w.Fits lim) (t : Task) : (w.task t).Fits lim := h

theorem Works.Fits.addTasks (h : w.Fits lim) (l : List Task) : (w.addTasks l).Fits lim := h

theorem Works.Fits.ite {c : Prop} [Decidable c] {a b : Works} (ha : a.Fits lim) (hb : b.Fits lim) :
    (if c then a else b).Fits lim := by
  split
  · exact ha
  · exact hb

theorem Works.Fits.foldl {α : Type} {f : Works → α → Works} (hf : ∀ w a, w.Fits lim → (f w a).Fits lim) (l : List α)
    (h : w.Fits lim) : (l.foldl f w).Fits lim := by
  induction l generalizing w with
  | nil => exact h
  | cons a l ih => exact ih (hf w a h)

/-! ## The port -/

theorem Works.Fits.setPhase (h : w.Fits lim) (id : Nat) (ph : ReqPhase) : (w.setPhase id ph).Fits lim :=
  h.withPort (h.1.thin h.1.1 (sublist_updatePhase ..) le_rfl)

theorem Works.Fits.take (h : w.Fits lim) (id : Nat) : (w.take id).Fits lim := h.setPhase id .taken

theorem Works.Fits.reply (h : w.Fits lim) (id : Nat) (v : Verdict) (reason : Option Reason) (res : Result) (e : Bool) :
    (w.reply id v reason res e).Fits lim := by
  unfold Works.reply
  split
  · exact h
  · exact h.withPort (h.1.offer _ _)

theorem Works.Fits.done (h : w.Fits lim) (id : Nat) (res : Result) : (w.done id res).Fits lim := h.reply ..

theorem Works.Fits.refuse (h : w.Fits lim) (id : Nat) (reason : Reason) : (w.refuse id reason).Fits lim := h.reply ..

theorem Works.Fits.refuseWith (h : w.Fits lim) (id : Nat) (reason : Reason) (res : Result) : (w.refuseWith id reason res).Fits lim :=
  h.reply ..

theorem Works.Fits.notice (h : w.Fits lim) (k : NoticeKind) (res : Result) : (w.notice x k res).Fits lim := by
  simp only [Works.notice, Works.takesNotice, Bool.and_eq_true, decide_eq_true_eq]
  split_ifs with hroom
  · exact h.withPort (h.1.push _ _ _ hroom.2)
  · exact h

theorem Works.Fits.postPending (h : w.Fits lim) (k : NoticeKind) : (w.postPending x k).Fits lim := by
  simp only [Works.postPending, Works.takesNotice, Bool.and_eq_true, decide_eq_true_eq]
  split
  · exact h
  · split_ifs with hroom
    · exact h.withPort (h.1.push _ _ _ hroom.2)
    · exact h

theorem Works.Fits.postKinds (h : w.Fits lim) (l : List NoticeKind) : (w.postKinds x l).Fits lim :=
  .foldl (fun _ k hw => hw.postPending k) l h

theorem Works.Fits.report (h : w.Fits lim) (id : Nat) (bytes : Bytes) (res : Result) : (w.report id bytes res).Fits lim := by
  unfold Works.report
  split
  · exact h
  · split_ifs
    · exact h.withPort (h.1.leave id)
    · exact h.take id

/-! ## The catalogue -/

theorem Works.Fits.mapDay (h : w.Fits lim) (d : Nat) (f : DayEntry → DayEntry) : (w.mapDay d f).Fits lim := h

theorem Works.Fits.mapEntry (h : w.Fits lim) (d cls : Nat) (first : Key) (f : Entry → Entry) : (w.mapEntry d cls first f).Fits lim := h

theorem Works.Fits.claim (h : w.Fits lim) (d cls : Nat) (first : Key) (o : Holder) : (w.claim d cls first o).Fits lim := h

theorem Works.Fits.quarantineNotice (h : w.Fits lim) (d cls : Nat) (first : Key) : (w.quarantineNotice x d cls first).Fits lim :=
  h.notice ..

theorem Works.Fits.release (h : w.Fits lim) (d cls : Nat) (first : Key) : (w.release x d cls first).Fits lim := by
  unfold Works.release
  split
  · exact h
  · exact .task (.ite (.quarantineNotice (h.mapEntry ..) ..) (h.mapEntry ..)) _

theorem Works.Fits.releaseItem (h : w.Fits lim) (d item : Nat) (l : List (Nat × Key)) : (w.releaseItem x d item l).Fits lim := by
  refine .foldl (fun w p hw => ?_) l h
  split
  · exact .ite (hw.release ..) hw
  · exact hw

theorem Works.Fits.quarantine (h : w.Fits lim) (r : SheetRef) : (w.quarantine x r).Fits lim := by
  unfold Works.quarantine
  split
  · exact h
  · exact .ite h (.ite (.quarantineNotice (h.mapEntry ..) ..) (h.mapEntry ..))

theorem Works.Fits.markPaid (h : w.Fits lim) (d : Nat) : (w.markPaid d).Fits lim := .ite h h

theorem Works.Fits.dayFor (h : w.Fits lim) (d : Nat) : (w.dayFor x d).2.Fits lim := by
  unfold Works.dayFor
  split
  · exact h
  · split_ifs <;> exact h

theorem Works.Fits.beginClosing (h : w.Fits lim) (d : Nat) : (w.beginClosing d).Fits lim := .ite h h

/-! ## The Intake Unit -/

theorem Works.Fits.setFile (h : w.Fits lim) (slot : Nat) (f : File) : (w.setFile slot f).Fits lim := h

theorem Works.Fits.mapFile (h : w.Fits lim) (slot : Nat) (f : File → File) : (w.mapFile slot f).Fits lim := h

theorem Works.Fits.fileNotice (h : w.Fits lim) (f : File) (st : FileState) : (w.fileNotice x f st).Fits lim := h.notice ..

theorem Works.Fits.endParcel (h : w.Fits lim) (slot : Nat) (v : Verdict) (reason : Option Reason) :
    (w.endParcel slot v reason).Fits lim := by
  unfold Works.endParcel
  split
  · exact h
  · split
    · exact h
    · exact (h.setFile ..).reply ..

theorem Works.Fits.abandon (h : w.Fits lim) (slot : Nat) : (w.abandon slot).Fits lim := (h.mapFile ..).endParcel ..

theorem Works.Fits.rewait (h : w.Fits lim) : w.rewait.Fits lim := h

theorem Works.Fits.placeRecord (h : w.Fits lim) (slot : Nat) (p : Plain) : (w.placeRecord x slot p).2.Fits lim := by
  have hday := h.dayFor (x := x) (dayOf p.start)
  unfold Works.placeRecord
  dsimp only
  split_ifs
  · exact h
  · exact h
  · exact h
  · split
    · next heq => rw [heq] at hday; exact hday
    · next w' heq =>
      have hw' : w'.Fits lim := by rw [heq] at hday; exact hday
      split
      · exact hw'
      · split_ifs <;> exact hw'

theorem Works.Fits.finishParcel (h : w.Fits lim) (slot : Nat) : (w.finishParcel slot).Fits lim := .ite (h.endParcel ..) h

theorem Works.Fits.recordIntake (h : w.Fits lim) (slot : Nat) : (w.recordIntake x slot).1.Fits lim := by
  unfold Works.recordIntake
  split
  · exact h
  · split
    · split
      · exact h
      · split
        · exact h
        · exact (((h.setFile ..).placeRecord ..).mapFile ..).finishParcel _
    · exact h

theorem Works.Fits.restoreIntake (h : w.Fits lim) (slot : Nat) : (w.restoreIntake slot).1.Fits lim := by
  unfold Works.restoreIntake
  split
  · exact h
  · split
    · split
      · exact h
      · exact (h.setFile ..).finishParcel _
    · exact h

theorem Works.Fits.endStalled (h : w.Fits lim) : (w.endStalled x).Fits lim :=
  .foldl (fun _ _ hw => .ite (hw.endParcel ..) hw) _ h

theorem Works.Fits.abandonRival (h : w.Fits lim) (slot source : Nat) : (w.abandonRival slot source).Fits lim := by
  unfold Works.abandonRival
  split
  · exact h.abandon _
  · exact h

theorem Works.Fits.opened (h : w.Fits lim) (r : Req) (slot : Nat) (f : File) : (w.opened r slot f).Fits lim :=
  ((h.setFile ..).abandonRival ..).done ..

theorem Works.Fits.openFile (h : w.Fits lim) (r : Req) (source fileId kind cls day : Nat) (first : Key) :
    (w.openFile r source fileId kind cls day first).Fits lim := by
  unfold Works.openFile
  refine .ite (h.refuse ..) ?_
  split
  · refine .ite (h.refuse ..) (.ite (h.refuse ..) (.ite (.ite (h.opened ..) (h.refuse ..)) (.ite (h.refuse ..) ?_)))
    split
    · exact h.refuse ..
    · exact h.opened ..
  · split
    · exact h.refuse ..
    · split
      · exact h.refuse ..
      · exact h.opened ..

theorem Works.Fits.ingest (h : w.Fits lim) (r : Req) (source fileId sequence start listLength : Nat) (records : List Plain) :
    (w.ingest r source fileId sequence start listLength records).Fits lim := by
  unfold Works.ingest
  refine .ite (h.refuse ..) ?_
  split
  · exact h.refuse ..
  · exact .ite (h.refuse ..) (.ite (h.refuse ..) (.ite (h.refuse ..) ((h.setFile ..).take _)))

theorem Works.Fits.closeFile (h : w.Fits lim) (r : Req) (source fileId : Nat) (declared : FileTotals) :
    (w.closeFile x r source fileId declared).Fits lim := by
  unfold Works.closeFile
  split
  · exact h.refuse ..
  · refine .ite (h.refuse ..) (.ite (h.refuse ..) (.done ?_ ..))
    have hnotice {w : Works} (hw : w.Fits lim) (c : Prop) [Decidable c] (f : File) (st : FileState) :
        (if c then w.fileNotice x f st else w).Fits lim := .ite (hw.fileNotice ..) hw
    exact .ite ((hnotice (h.setFile ..) ..).task _) (hnotice (h.setFile ..) ..)

theorem Works.Fits.abandonFile (h : w.Fits lim) (r : Req) (source fileId : Nat) : (w.abandonFile r source fileId).Fits lim := by
  unfold Works.abandonFile
  split
  · exact h.refuse ..
  · split
    · exact h.done ..
    · exact (h.abandon _).done ..
    · exact h.refuse ..

theorem Works.Fits.forgetFile (h : w.Fits lim) (r : Req) (source fileId : Nat) : (w.forgetFile r source fileId).Fits lim := by
  unfold Works.forgetFile
  split
  · exact h.refuse ..
  · exact .ite (h.refuse ..) ((h.withIntake _).done ..)

theorem Works.Fits.fileState (h : w.Fits lim) (r : Req) (source fileId : Nat) : (w.fileState r source fileId).Fits lim := by
  unfold Works.fileState
  refine .ite (h.refuse ..) ?_
  split
  · exact h.refuse ..
  · exact h.report ..

theorem Works.Fits.settleRecord (h : w.Fits lim) (slot : Nat) (fate : Option Fate) : (w.settleRecord x slot fate).Fits lim := by
  unfold Works.settleRecord
  split
  · exact h
  · exact .ite ((h.setFile ..).fileNotice ..) (h.setFile ..)

theorem Works.Fits.restoreFailed (h : w.Fits lim) (slot : Nat) : (w.restoreFailed x slot).Fits lim := by
  unfold Works.restoreFailed
  split
  · exact h
  · exact (h.setFile ..).fileNotice ..

end Sys2Proof.Machine
end

section
/-!
SUPPORT. The operations of the Array Controller keep the bounds of the units: a queue takes an operation only while it has room, and an
extent table is changed entry by entry.
-/

namespace Sys2Proof.Machine

variable {lim : Fin 4 → Nat} {w : Works} {x : Ctx} {c : MediaChan}

/-! ## Media channels -/

theorem MediaChan.Fits.putExt (h : c.Fits) (e : Nat) (i : ExtInfo) : ({ c with exts := tblPut e i c.exts } : MediaChan).Fits :=
  ⟨h.1, tblPut_sorted _ _ _ h.2⟩

theorem MediaChan.Fits.setExt (h : c.Fits) (e : Nat) (st : ExtState) : (c.setExt e st).Fits := h.putExt ..

theorem MediaChan.Fits.repeatOp (h : c.Fits) (op : Op) : (c.repeatOp op).Fits := ⟨List.length_take_le .., h.2⟩

theorem MediaChan.Fits.unqueue (h : c.Fits) (op : Op) : (c.unqueue op).Fits := by
  have hleave : (c.queue.filter fun o => decide (o.arrival ≠ op.arrival)).length ≤ Config.opQueue :=
    (List.length_filter_le ..).trans h.1
  unfold MediaChan.unqueue
  dsimp only
  split
  · exact ⟨hleave, h.2⟩
  · split_ifs with hroom
    · refine ⟨?_, h.2⟩
      rw [List.length_append]
      exact hroom
    · exact ⟨hleave, h.2⟩

theorem MediaChan.Fits.mapOps (h : c.Fits) (f : Op → Op) : (c.mapOps f).Fits := ⟨(List.length_map f).le.trans h.1, h.2⟩

theorem MediaChan.Fits.owe (h : c.Fits) (idx : Nat) (who : List VoidOwner) (d : Bool) : (c.owe idx who d).Fits := by
  unfold MediaChan.owe
  split_ifs <;> exact h

theorem MediaChan.Fits.defer (h : c.Fits) (idx : Nat) : (c.defer idx).Fits := MediaChan.Fits.owe (c := c.stale idx) h idx [] true

theorem MediaChan.Fits.reopen (h : c.Fits) (extents : Nat) : (c.reopen extents).Fits := by
  have hopen {c : MediaChan} (hc : c.Fits) :
      (match c.nextOpen extents with | some e => { c.setExt e .opened with openExt := some e } | none => c).Fits := by
    split
    · exact hc.setExt ..
    · exact hc
  unfold MediaChan.reopen
  split
  · exact h
  · refine hopen ?_
    split
    · exact h.setExt ..
    · exact h

theorem MediaChan.Fits.makeBad (h : c.Fits) (e : Nat) : (c.makeBad e).Fits := h.setExt e .bad

theorem Works.Fits.mapChan (h : w.Fits lim) (mc : Fin 4) {f : MediaChan → MediaChan}
    (hf : (w.chan mc).Fits → (f (w.chan mc)).Fits) : (w.mapChan mc f).Fits lim := by
  obtain ⟨hport, hchan, hrest⟩ := h
  refine ⟨hport, fun i => ?_, hrest⟩
  unfold Works.chan Works.mapChan
  dsimp only
  rw [Quad.get_modify]
  split
  · exact hf (hchan mc)
  · exact hchan i

theorem Works.Fits.withArray (h : w.Fits lim) {a : ArrayCtl} (ha : a.chans = w.array.chans) :
    ({ w with array := a } : Works).Fits lim := by
  obtain ⟨hport, hchan, hrest⟩ := h
  refine ⟨hport, fun mc => ?_, hrest⟩
  unfold Works.chan
  rw [ha]
  exact hchan mc

theorem Works.Fits.mapReloc (h : w.Fits lim) (mc : Fin 4) (f : Relocation → Relocation) : (w.mapReloc mc f).Fits lim :=
  h.mapChan mc fun hc => hc

/-! ## Space -/

theorem Works.Fits.lowTest (h : w.Fits lim) (mc : Fin 4) : (w.lowTest x mc).Fits lim :=
  .ite h (.ite ((h.mapChan mc fun hc => hc).notice ..) (.ite (h.mapChan mc fun hc => hc) h))

theorem Works.Fits.fullTest (h : w.Fits lim) : (w.fullTest x).Fits lim := by
  unfold Works.fullTest
  split_ifs
  · exact h
  · refine .notice ?_ ..
    exact h.withArray rfl
  · exact h
  · exact h

theorem Works.Fits.fullArm (h : w.Fits lim) : (w.fullArm x).Fits lim := .ite h h

theorem Works.Fits.spaceChanged (h : w.Fits lim) (mc : Fin 4) : (w.spaceChanged x mc).Fits lim := ((h.lowTest mc).fullArm).task _

theorem Works.Fits.failExt (h : w.Fits lim) (mc : Fin 4) (e : Nat) : (w.failExt x mc e).Fits lim := by
  have hput (i : ExtInfo) : (w.mapChan mc fun c => { c with exts := tblPut e i c.exts }).Fits lim :=
    h.mapChan mc fun hc => hc.putExt ..
  exact .ite (hput _) (.spaceChanged (.ite ((hput _).mapChan mc fun hc => hc.setExt ..) (hput _)) mc)

/-! ## Operation queues -/

theorem Works.Fits.askOp (h : w.Fits lim) (mc : Fin 4) (kind : OpKind) (fg : Bool) : (w.askOp mc kind fg).Fits lim := by
  refine (h.next.mapChan mc fun hc => ?_).task _
  split_ifs with hroom
  · refine ⟨?_, hc.2⟩
    rw [List.length_append]
    exact hroom
  · exact hc

theorem Works.Fits.grant (h : w.Fits lim) (mc : Fin 4) : (w.grant x mc).Fits lim := by
  unfold Works.grant
  refine .ite h ?_
  split
  · exact h
  · split
    · exact .ite (h.mapChan mc fun hc => hc.unqueue _) (((h.mapChan mc fun hc => hc.unqueue _).addTasks _).task _)
    · exact h.mapChan mc fun hc => hc.unqueue _

theorem Works.Fits.opEnded (h : w.Fits lim) (mc : Fin 4) : (w.opEnded mc).Fits lim := (h.mapChan mc fun hc => hc).task _

/-! ## The cache and the reads -/

theorem Works.Fits.enterCache (h : w.Fits lim) (s : SlotAddr) (image : Bytes) : (w.enterCache s image).2.Fits lim := by
  unfold Works.enterCache
  split
  · split_ifs
    · exact h
    · exact h.next
  · exact h.next

theorem Works.Fits.pin (h : w.Fits lim) (id : Nat) : (w.pin id).Fits lim := h

theorem Works.Fits.unpin (h : w.Fits lim) (id : Nat) : (w.unpin id).Fits lim := h

theorem Works.Fits.detach (h : w.Fits lim) (s : SlotAddr) : (w.detach s).Fits lim := h

theorem Works.Fits.touch (h : w.Fits lim) (id : Nat) : (w.touch id).Fits lim := by
  unfold Works.touch
  split <;> exact h

theorem Works.Fits.serve (h : w.Fits lim) (who : Requester) (id : Nat) (image : Bytes) : (w.serve who id image).Fits lim := .ite h h

theorem Works.Fits.askRead (h : w.Fits lim) (s : SlotAddr) (who : Requester) : (w.askRead s who).Fits lim := by
  unfold Works.askRead
  dsimp only
  split
  · exact .ite ((h.enterCache ..).serve ..) (h.task _)
  · split
    · exact (h.enterCache ..).serve ..
    · exact .ite (h.task _) (.ite (h.mapChan _ fun hc => hc.mapOps _) (h.askOp ..))

theorem Works.Fits.readEnded (h : w.Fits lim) (mc : Fin 4) (op : Op) (idx : Nat) (who : List (Requester × Bool)) (again : Bool)
    (image : Option Bytes) : (w.readEnded x mc op idx who again image).Fits lim := by
  unfold Works.readEnded
  split
  · exact (Works.Fits.foldl (fun _ _ hw => hw.serve ..) _ (h.enterCache ..)).opEnded mc
  · refine .ite ((h.mapChan mc fun hc => hc.repeatOp _).task _) (.opEnded (.addTasks ?_ _) mc)
    split
    · exact h.quarantine _
    · exact h

/-! ## Posting and allocation -/

theorem Works.Fits.admitList (l : List Post) (h : w.Fits lim) : (w.admitList l).Fits lim := by
  induction l generalizing w with
  | nil => exact h
  | cons p l ih =>
    unfold Works.admitList
    exact .ite (ih h) (ih h)

theorem Works.Fits.takeIn (h : w.Fits lim) : w.takeIn.Fits lim := h.admitList _

theorem Works.Fits.post (h : w.Fits lim) (image : Bytes) (kind : SheetKind) (poster : Poster) : (w.post image kind poster).Fits lim :=
  Works.Fits.takeIn (w := { w.next.2 with array := _ }) h.next

theorem Works.Fits.takeSlot (h : w.Fits lim) {kind : SheetKind} {s : SlotAddr} {v : Works} (heq : w.takeSlot x kind = some (s, v)) :
    v.Fits lim := by
  unfold Works.takeSlot at heq
  split at heq
  · cases heq
  · dsimp only at heq
    split at heq
    · cases heq
    · cases heq
      exact ((h.mapChan _ fun hc => hc.reopen _).spaceChanged _).fullTest

theorem Works.Fits.allocPosts (l : List Post) (h : w.Fits lim) : (w.allocPosts x l).Fits lim := by
  induction l generalizing w with
  | nil => exact h
  | cons p l ih =>
    unfold Works.allocPosts
    refine .ite (ih h) ?_
    split
    · exact ih h
    · next v heq => exact ih (Works.Fits.askOp (w := { v with array := _ }) (h.takeSlot heq) ..)

/-! ## Void marks -/

theorem Works.Fits.voidMark (h : w.Fits lim) (s : SlotAddr) (who : VoidOwner) : (w.voidMark s who).Fits lim :=
  .ite (h.mapChan _ fun hc => hc.mapOps _) (.ite (h.mapChan _ fun hc => hc.owe ..) (.ite (h.askOp ..) (h.task _)))

theorem Works.Fits.voidEnded (h : w.Fits lim) (mc : Fin 4) (idx : Nat) (who : List VoidOwner) (failed : Bool) :
    (w.voidEnded x mc idx who failed).Fits lim := by
  have hstale : ((w.mapChan mc fun c => c.stale idx).detach ⟨mc, idx⟩).Fits lim := (h.mapChan mc fun hc => hc).detach _
  exact .opEnded (.addTasks (.addTasks (.ite (hstale.failExt ..) hstale) _) _) mc

/-! ## Relocation -/

theorem Works.Fits.nextSource (h : w.Fits lim) (mc : Fin 4) (mark : Nat) : (w.nextSource x mc mark).Fits lim := by
  unfold Works.nextSource
  refine .ite ?_ (h.mapChan mc fun hc => hc)
  split
  · exact ((h.mapChan mc fun hc => hc.setExt ..).lowTest _).fullArm
  · exact h.mapChan mc fun hc => hc

theorem Works.Fits.relocationTest (h : w.Fits lim) (mc : Fin 4) : (w.relocationTest x mc).Fits lim := .ite h (h.nextSource ..)

theorem Works.Fits.releaseSlot (h : w.Fits lim) (s : SlotAddr) : (w.releaseSlot x s).Fits lim := by
  unfold Works.releaseSlot
  split
  · exact .ite (h.release ..) h
  · exact h

theorem Works.Fits.giveUp (h : w.Fits lim) (mc : Fin 4) (markNew exclude : Bool) : (w.giveUp x mc markNew exclude).Fits lim := by
  unfold Works.giveUp
  split
  · exact h
  · next cp _ =>
    have hmark : (match cp.new with | some s => if markNew then w.voidMark s .untold else w | none => w).Fits lim := by
      split
      · exact .ite (h.voidMark ..) h
      · exact h
    exact ((Works.Fits.ite ((hmark.releaseSlot _).mapChan mc fun hc => hc) (hmark.releaseSlot _)).mapReloc mc _).task _

theorem Works.Fits.pauseCopy (h : w.Fits lim) (mc : Fin 4) (old : Nat) : (w.pauseCopy x mc old).Fits lim :=
  (h.releaseSlot _).mapReloc ..

theorem Works.Fits.startCopy (h : w.Fits lim) (mc : Fin 4) (old : Nat) (kind : SheetKind) : (w.startCopy x mc old kind).Fits lim := by
  unfold Works.startCopy
  split
  · exact h.pauseCopy ..
  · next heq => exact ((h.takeSlot heq).mapReloc ..).askRead ..

theorem Works.Fits.recopy (h : w.Fits lim) (mc : Fin 4) : (w.recopy x mc).Fits lim := by
  unfold Works.recopy
  split
  · exact h
  · split
    · exact h.pauseCopy ..
    · next heq =>
      split
      · exact ((h.takeSlot heq).mapReloc ..).askOp ..
      · exact (h.takeSlot heq).mapReloc ..

theorem Works.Fits.handleSlot (h : w.Fits lim) (mc : Fin 4) (idx : Nat) : (w.handleSlot x mc idx).Fits lim := by
  unfold Works.handleSlot
  split
  · exact (h.mapReloc ..).task _
  · exact (h.mapReloc ..).task _
  · refine .startCopy ?_ ..
    split
    · exact h.claim ..
    · exact h

theorem Works.Fits.relocationStep (h : w.Fits lim) (mc : Fin 4) : (w.relocationStep x mc).Fits lim := by
  unfold Works.relocationStep
  split
  · exact h
  · refine .ite h (.ite (h.handleSlot ..) ?_)
    split
    · exact h.handleSlot ..
    · exact h

theorem Works.Fits.relocationReleased (h : w.Fits lim) (d cls : Nat) (first : Key) : (w.relocationReleased x d cls first).Fits lim := by
  refine .foldl (fun w mc hw => ?_) _ h
  dsimp only
  split
  · exact hw
  · refine .ite hw ?_
    split
    · exact hw.handleSlot ..
    · exact hw

theorem Works.Fits.resumePaused (l : List (Fin 4)) (h : w.Fits lim) : (w.resumePaused x l).Fits lim := by
  induction l generalizing w with
  | nil => exact h
  | cons mc l ih =>
    unfold Works.resumePaused
    exact .ite (ih ((h.mapReloc ..).relocationStep _)) (ih h)

theorem Works.Fits.allocate (h : w.Fits lim) : (w.allocate x).Fits lim := (h.resumePaused _).allocPosts _

theorem Works.Fits.relocationSettle (h : w.Fits lim) (mc : Fin 4) : (w.relocationSettle x mc).Fits lim := by
  unfold Works.relocationSettle
  dsimp only
  have hmap : (w.mapChan mc fun c => { c with relocation := c.relocation.map fun r =>
      { r with revisit := r.revisit.filter fun i => !!((c.slot i).any (·.readable)) } }).Fits lim := h.mapChan mc fun hc => hc
  split
  · exact hmap
  · refine .ite hmap (.ite ?_ (.ite hmap (.ite ?_ (hmap.askOp ..))))
    · exact ((hmap.mapChan mc fun hc => hc.setExt ..).spaceChanged _).nextSource ..
    · exact (hmap.mapChan mc fun hc => hc.setExt ..).askOp ..

theorem Works.Fits.sourceDone (h : w.Fits lim) (mc : Fin 4) (e : Nat) : (w.sourceDone x mc e).Fits lim :=
  .ite (h.nextSource ..) (h.task _)

theorem Works.Fits.cleared (h : w.Fits lim) (mc : Fin 4) (e : Nat) : (w.cleared x mc e).Fits lim :=
  (((((h.mapChan mc fun hc => ⟨hc.1, tblDrop_sorted _ _ hc.2⟩).lowTest _).fullArm).sourceDone ..).task _).opEnded mc

theorem Works.Fits.retired (h : w.Fits lim) (mc : Fin 4) (e : Nat) : (w.retired x mc e).Fits lim :=
  ((h.mapChan mc fun hc => hc.makeBad e).sourceDone ..).opEnded mc

theorem Works.Fits.rename (h : w.Fits lim) (old new : SlotAddr) : (w.rename old new).Fits lim := h

theorem Works.Fits.moveCached (h : w.Fits lim) (old new : SlotAddr) : (w.moveCached old new).Fits lim := h

theorem Works.Fits.copyPassed (h : w.Fits lim) (mc : Fin 4) (s : SlotAddr) : (w.copyPassed x mc s).Fits lim := by
  unfold Works.copyPassed
  split
  · exact h
  · refine .ite h (.task (.mapReloc ?_ ..) _)
    split
    · split
      · exact ((((h.mapEntry ..).moveCached ..).releaseSlot _).voidMark ..)
      · exact h.voidMark ..
    · exact .ite (((h.rename ..).moveCached ..).voidMark ..) (h.voidMark ..)

theorem Works.Fits.copyAnswer (h : w.Fits lim) (mc : Fin 4) (old : Nat) (a : ReadAnswer) : (w.copyAnswer x mc old a).Fits lim := by
  unfold Works.copyAnswer
  split
  · exact h
  · refine .ite h ?_
    split
    · dsimp only
      split
      · exact (h.mapReloc ..).askOp ..
      · exact (h.mapReloc ..).recopy _
    · exact h.giveUp ..
    · exact h.giveUp ..
    · exact h.giveUp ..

/-! ## Programs -/

theorem Works.Fits.programEnded (h : w.Fits lim) (mc : Fin 4) (post idx : Nat) (passed : Bool) :
    (w.programEnded x mc post idx passed).Fits lim := by
  unfold Works.programEnded
  dsimp only
  split
  · exact h.opEnded mc
  · split
    · have hlive : (w.mapChan mc fun c => c.setSlot idx .live).Fits lim := h.mapChan mc fun hc => hc
      have hcache {w : Works} (hw : w.Fits lim) (s : SlotAddr) (image : Bytes) (c : Prop) [Decidable c] (t : Task) :
          (if c then (w.enterCache s image).2 else (w.enterCache s image).2.task t).Fits lim :=
        .ite (hw.enterCache ..) ((hw.enterCache ..).task _)
      refine .opEnded (.task (.takeIn (hcache ?_ ..)) _) mc
      exact hlive.withArray rfl
    · have hfail : ((w.mapChan mc fun c => c.stale idx).failExt x mc (extOf idx)).Fits lim :=
        (h.mapChan mc fun hc => hc).failExt ..
      refine .opEnded (.addTasks (.takeIn ?_) _) mc
      exact hfail.withArray rfl

theorem Works.Fits.copyEnded (h : w.Fits lim) (mc : Fin 4) (idx : Nat) (source : Fin 4) (passed : Bool) :
    (w.copyEnded x mc idx source passed).Fits lim := by
  have hfail : ((w.mapChan mc fun c => c.stale idx).failExt x mc (extOf idx)).Fits lim := (h.mapChan mc fun hc => hc).failExt ..
  exact .ite ((((h.mapChan mc fun hc => hc).copyPassed ..).task _).opEnded mc)
    (.opEnded (.addTasks (.ite (hfail.recopy _) hfail) _) mc)

/-! ## Channel faults and probes -/

theorem Works.Fits.settleOp (h : w.Fits lim) (mc : Fin 4) (o : Op) : (w.settleOp x mc o).Fits lim := by
  unfold Works.settleOp
  refine .ite h ?_
  split
  · exact h.addTasks _
  · exact h.mapChan mc fun hc => hc.defer _
  · have hdefer (idx : Nat) : (w.mapChan mc fun c => c.defer idx).Fits lim := h.mapChan mc fun hc => hc.defer _
    exact .ite ((hdefer _).giveUp ..) (hdefer _)
  · exact h.mapChan mc fun hc => hc.owe ..
  · exact h.mapChan mc fun hc => hc
  · exact .ite (h.mapChan mc fun hc => hc) h

theorem Works.Fits.stopRelocation (h : w.Fits lim) (mc : Fin 4) : (w.stopRelocation x mc).Fits lim := by
  unfold Works.stopRelocation
  split
  · exact h
  · refine ((h.giveUp ..).mapChan mc fun hc => ?_).spaceChanged mc
    dsimp only
    split_ifs
    · exact hc.setExt ..
    · exact hc

theorem Works.Fits.recopyLost (h : w.Fits lim) (mc : Fin 4) : (w.recopyLost x mc).Fits lim :=
  .foldl (fun _ _ hw => .ite (hw.recopy _) hw) _ h

theorem MediaChan.Fits.deferAll (l : List (Nat × SlotInfo)) (h : c.Fits) : (l.foldl (fun c p => c.defer p.1) c).Fits := by
  induction l generalizing c with
  | nil => exact h
  | cons p l ih => exact ih (h.defer _)

theorem Works.Fits.fault (h : w.Fits lim) (mc : Fin 4) : (w.fault x mc).Fits lim := by
  have hsettle {w : Works} (hw : w.Fits lim) (ops : List Op) : (ops.foldl (fun w o => w.settleOp x mc o) w).Fits lim :=
    .foldl (fun _ _ hw => hw.settleOp ..) ops hw
  have hafter {w : Works} (hw : w.Fits lim) (l : List Task) : (((w.stopRelocation x mc).recopyLost x mc).addTasks l).takeIn.Fits lim :=
    (((hw.stopRelocation mc).recopyLost mc).addTasks l).takeIn
  have hdone {w : Works} (hw : w.Fits lim) (space : Nat) : (if 0 < space then w.fullTest x else w).Fits lim := .ite hw.fullTest hw
  unfold Works.fault
  refine hdone (hafter (.mapChan ?_ mc fun hc => hc.deferAll _) _) _
  refine Works.Fits.withArray (hsettle (.notice (h.mapChan mc fun hc => ?_) ..) _) rfl
  exact ⟨Nat.zero_le _, hc.2⟩

theorem Works.Fits.probeReady (h : w.Fits lim) (mc : Fin 4) : (w.probeReady x mc).Fits lim := by
  have hon := h.mapChan mc (f := fun c => { c with online := true, probing := false, owed := [], clearAgain := [], retireAgain := [] })
    fun hc => hc
  exact ((Works.Fits.foldl (fun _ _ hw => hw.askOp ..) _
    (Works.Fits.foldl (fun _ _ hw => hw.askOp ..) _ (Works.Fits.foldl (fun _ _ hw => hw.askOp ..) _ hon))).fullArm).addTasks _

end Sys2Proof.Machine
end

section
/-!
SUPPORT. The operations of the Packer keep the bounds of the units: an item joins the work queue only while it holds fewer than 1024.
-/

namespace Sys2Proof.Machine

variable {lim : Fin 4 → Nat} {w : Works} {x : Ctx}

/-! ## The work queue -/

theorem Works.Fits.withPacker (h : w.Fits lim) {p : Packer} (hp : p.queue.length ≤ Config.packerQueue) :
    ({ w with packer := p } : Works).Fits lim := by
  obtain ⟨hport, hchan, -, hcursors⟩ := h
  exact ⟨hport, hchan, hp, hcursors⟩

theorem Works.Fits.queue_le (h : w.Fits lim) : w.packer.queue.length ≤ Config.packerQueue := h.2.2.1

theorem Works.Fits.pushItem (h : w.Fits lim) {d n : Nat} {work : Work} {askers : List (Fin 4)} {v : Works}
    (heq : w.pushItem d work askers = some (n, v)) : v.Fits lim := by
  unfold Works.pushItem at heq
  split_ifs at heq with hroom
  cases heq
  refine .task (h.next.withPacker ?_) _
  rw [List.length_append]
  exact hroom

theorem Works.Fits.noteAsker (h : w.Fits lim) (a : Asker) : (w.noteAsker a).Fits lim := h

theorem Works.Fits.mapItem (h : w.Fits lim) (id : Nat) (f : Item → Item) : (w.mapItem id f).Fits lim :=
  h.withPacker ((List.length_map _).le.trans h.queue_le)

theorem Works.Fits.itemLeaves (h : w.Fits lim) (id : Nat) : (w.itemLeaves id).Fits lim :=
  .addTasks (h.withPacker ((List.length_filter_le ..).trans h.queue_le)) _

theorem Works.Fits.askCloseRuns (d : Nat) (l : List Nat) (h : w.Fits lim) : (w.askCloseRuns d l).Fits lim := by
  induction l generalizing w with
  | nil => exact h
  | cons c l ih =>
    unfold Works.askCloseRuns
    refine .ite (ih h) ?_
    split
    · next heq => exact ih (h.pushItem heq)
    · exact h.noteAsker _

theorem Works.Fits.askRestore (h : w.Fits lim) (slot : Nat) : (w.askRestore slot).Fits lim := by
  unfold Works.askRestore
  split
  · exact h
  · split
    · exact h
    · refine .ite h ?_
      split
      · next heq => exact h.pushItem heq
      · exact h.noteAsker _

/-! ## The merge schedule -/

theorem Works.Fits.mapSched (h : w.Fits lim) (d c : Nat) (f : MergeSched → MergeSched) : (w.mapSched d c f).Fits lim := h

theorem Works.Fits.mergeTest (h : w.Fits lim) (d c : Nat) : (w.mergeTest x d c).Fits lim := by
  unfold Works.mergeTest
  refine .ite ?_ h
  split
  · next heq => exact (h.pushItem heq).mapSched ..
  · exact h.noteAsker _

theorem Works.Fits.askMerge (h : w.Fits lim) (ch : Fin 4) (d c : Nat) : (w.askMerge ch d c).Fits lim := by
  unfold Works.askMerge
  split
  · exact h.mapItem ..
  · exact (h.mapSched ..).task _

theorem Works.Fits.unblock (h : w.Fits lim) (d : Nat) : (w.unblock d).Fits lim :=
  .addTasks (.foldl (fun _ _ hw => hw.mapSched ..) _ h) _

/-! ## The tests of an item and the take of a group -/

theorem Works.Fits.dropPending (h : w.Fits lim) (ch : Fin 4) : (w.dropPending ch).Fits lim := h

theorem Works.Fits.dropItem (h : w.Fits lim) (i : Item) : (w.dropItem x i).Fits lim := by
  have hleft : ((w.itemLeaves i.id).task .scan).Fits lim := (h.itemLeaves _).task _
  unfold Works.dropItem
  dsimp only
  split
  · exact (hleft.mapSched ..).addTasks _
  · exact hleft.restoreFailed _
  · exact hleft

theorem Works.Fits.testItem (h : w.Fits lim) (i : Item) : (w.testItem x i).2.Fits lim := by
  unfold Works.testItem
  split
  · exact h
  · split
    · exact h.dropItem i
    · exact h
  · split
    · exact .dropItem ((h.dropPending _).task _) i
    · split
      · exact h
      · exact .dropItem ((h.dropPending _).task _) i
  · split
    · exact (h.dropItem i).task _
    · split_ifs
      · exact (h.dropItem i).task _
      · exact (h.dropItem i).task _
      · exact h
  · have hmap (l : List Task) (f : Item → Item) : ((w.addTasks l).mapItem i.id f).Fits lim := (h.addTasks l).mapItem ..
    dsimp only
    split
    · exact (hmap ..).dropItem i
    · exact hmap ..
  · split
    · exact h.dropItem i
    · have htest (c : Prop) [Decidable c] : (if c then (Tested.go, w) else (.drop, w.dropItem x i)).2.Fits lim := by
        split
        · exact h
        · exact h.dropItem i
      dsimp only
      split
      · exact htest _
      · exact htest _

theorem Works.Fits.mapGroup (h : w.Fits lim) (id : Nat) (f : Group → Group) : (w.mapGroup id f).Fits lim := h

theorem Works.Fits.withGroups (h : w.Fits lim) (l : List Group) :
    ({ w with packer := { w.packer with groups := l } } : Works).Fits lim := h

theorem Works.Fits.groupReads (h : w.Fits lim) (id : Nat) : (w.groupReads id).Fits lim := by
  unfold Works.groupReads
  split
  · exact h
  · exact .ite h (.ite (h.mapGroup ..) h)

theorem Works.Fits.beginGroup (h : w.Fits lim) (i : Item) (t : Take) : (w.beginGroup i t).Fits lim := by
  have hclaims {w : Works} (hw : w.Fits lim) : (t.claims.foldl (fun w p => w.claim i.day p.1 p.2.first (.item i.id))
      (t.served.foldl (fun w n => w.touch n) w)).Fits lim :=
    .foldl (fun _ _ hw => hw.claim ..) _ (.foldl (fun _ _ hw => hw.touch _) _ hw)
  have hreads (n : Nat) (l : List GroupRead) {w : Works} (hw : w.Fits lim) : (l.foldl (fun w r =>
      match w.current r.ref with | some e => w.askRead e.slot (.group n r.ref) | none => w) w).Fits lim := by
    refine .foldl (fun w r hw => ?_) l hw
    split
    · exact hw.askRead ..
    · exact hw
  unfold Works.beginGroup
  split
  · exact h
  · refine .groupReads (hreads _ _ ?_) _
    exact Works.Fits.withGroups (.mapItem (.mapDay (hclaims h.next) ..) ..) _

theorem Works.Fits.scanItems (held l : List Nat) (h : w.Fits lim) : (w.scanItems x held l).Fits lim := by
  induction l generalizing w held with
  | nil => exact h
  | cons id l ih =>
    unfold Works.scanItems
    split
    · exact ih _ h
    · next i _ =>
      refine .ite (ih _ h) (.ite h (.ite (ih _ h) ?_))
      have htest := h.testItem (x := x) i
      split
      · next heq =>
        rw [heq] at htest
        exact ih _ htest
      · next heq =>
        rw [heq] at htest
        split
        · exact ih _ htest
        · exact .ite (ih _ (htest.beginGroup ..)) (ih _ htest)

theorem Works.Fits.scan (h : w.Fits lim) : (w.scan x).Fits lim := h.scanItems ..

/-! ## Packing and posting -/

theorem Works.Fits.beginPacking (h : w.Fits lim) (id : Nat) : (w.beginPacking id).Fits lim := by
  unfold Works.beginPacking
  split
  · exact h
  · split
    · exact (h.mapGroup ..).task _
    · exact h

theorem Works.Fits.postNext (h : w.Fits lim) (id : Nat) : (w.postNext id).Fits lim := by
  unfold Works.postNext
  split
  · exact h
  · split
    · exact h.post ..
    · exact h

theorem Works.Fits.toSummary (h : w.Fits lim) (id : Nat) : (w.toSummary id).Fits lim := by
  unfold Works.toSummary
  split
  · exact h
  · refine .ite h ?_
    split
    · exact h
    · exact (h.mapGroup ..).post ..

theorem Works.Fits.beginPosting (h : w.Fits lim) (id : Nat) : (w.beginPosting id).Fits lim :=
  ((h.mapGroup ..).postNext _).toSummary _

theorem Works.Fits.packStep (h : w.Fits lim) (id : Nat) : (w.packStep id).Fits lim := by
  unfold Works.packStep
  split
  · exact h
  · refine .ite h ?_
    split
    · split
      · exact h.beginPosting _
      · exact (h.mapGroup ..).task _
    · dsimp only
      split
      · exact (h.mapGroup ..).task _
      · exact .ite ((h.mapGroup ..).task _) (((h.claim ..).mapGroup ..).askRead ..)

theorem Works.Fits.coalesce (h : w.Fits lim) (id : Nat) (recs : List Rec) : (w.coalesce x id recs).Fits lim := by
  unfold Works.coalesce
  split
  · exact h
  · split
    · exact .ite ((h.mapGroup ..).task _) (((h.releaseItem ..).mapGroup ..).task _)
    · exact h

/-! ## Abort and the answers -/

theorem Works.Fits.abort (h : w.Fits lim) (id : Nat) (mc : Option (Fin 4)) (lost : List SlotAddr) : (w.abort x id mc lost).Fits lim := by
  unfold Works.abort
  split
  · exact h
  · have hgone : ({ w with array := w.array.withdraw id } : Works).Fits lim := h.withArray rfl
    have hmarks {w : Works} (hw : w.Fits lim) (d : Nat) (l : List SlotAddr) :
        (l.foldl (fun w s => w.voidMark s (.day d)) w).Fits lim := .foldl (fun _ _ hw => hw.voidMark ..) l hw
    refine .addTasks (.takeIn (.releaseItem (hmarks (.mapItem ?_ ..) _ _) ..)) _
    exact (hgone.mapDay ..).withGroups _

theorem Works.Fits.groupAnswer (h : w.Fits lim) (id : Nat) (r : SheetRef) (a : ReadAnswer) : (w.groupAnswer x id r a).Fits lim := by
  unfold Works.groupAnswer
  split
  · exact h
  · refine .ite h ?_
    split
    · exact (h.mapGroup ..).groupReads _
    · exact h.abort ..
    · exact h.abort ..
    · split
      · exact h.askRead ..
      · exact (h.mapGroup ..).groupReads _

theorem Works.Fits.neighbourAnswer (h : w.Fits lim) (id : Nat) (r : SheetRef) (a : ReadAnswer) :
    (w.neighbourAnswer x id r a).Fits lim := by
  unfold Works.neighbourAnswer
  split
  · exact h
  · refine .ite h ?_
    split
    · exact h.coalesce ..
    · exact h.abort ..
    · exact h.abort ..
    · split
      · exact h.askRead ..
      · exact h.abort ..

theorem Works.Fits.outputAdmitted (h : w.Fits lim) (id n : Nat) : (w.outputAdmitted id n).Fits lim := (h.mapGroup ..).postNext _

theorem Works.Fits.outputLive (h : w.Fits lim) (id n : Nat) (s : SlotAddr) : (w.outputLive id n s).Fits lim :=
  (h.mapGroup ..).toSummary _

/-! ## Completion -/

theorem Works.Fits.intakeCompletes (h : w.Fits lim) (g : Group) (work : Work) : (w.intakeCompletes x g work).Fits lim := by
  unfold Works.intakeCompletes
  split
  · exact .foldl (fun _ _ hw => hw.settleRecord ..) _ (h.withIntake _)
  · exact .foldl (fun _ _ hw => hw.settleRecord ..) _ (h.withIntake _)
  · exact .foldl (fun _ _ hw => hw.settleRecord ..) _ (h.mapFile ..)
  · exact h

theorem Works.Fits.gateTest (h : w.Fits lim) : w.gateTest.Fits lim := (h.withIntake _).rewait

theorem Works.Fits.reportDone (h : w.Fits lim) (g : Group) (i : Item) (left : List (Nat × Entry)) :
    (w.reportDone g i left).Fits lim := by
  unfold Works.reportDone
  split
  · exact (h.mapSched ..).addTasks _
  · exact h.task _
  · exact h.task _
  · exact h.task _
  · exact h

theorem Works.Fits.itemCompletes (h : w.Fits lim) (g : Group) (i : Item) : (w.itemCompletes g i).Fits lim := by
  unfold Works.itemCompletes
  split
  · exact .ite (h.itemLeaves _) (h.mapItem ..)
  · exact h.itemLeaves _

theorem Works.Fits.complete (h : w.Fits lim) (id : Nat) (s : SlotAddr) : (w.complete x id s).Fits lim := by
  unfold Works.complete
  split
  · exact h
  · split
    · next g _ _ _ d i _ _ =>
      have hmarks {w : Works} (hw : w.Fits lim) (l : List SlotAddr) :
          (l.foldl (fun w s => w.voidMark s (.day g.day)) w).Fits lim := .foldl (fun _ _ hw => hw.voidMark ..) l hw
      have hunblock {w : Works} (hw : w.Fits lim) (c : Bool) : (if c = true then w.unblock g.day else w).Fits lim :=
        .ite (hw.unblock _) hw
      have htests {w : Works} (hw : w.Fits lim) (c : Prop) [Decidable c] : (if c then w.testMerges g.day else w).Fits lim :=
        .ite hw hw
      refine .addTasks (.itemCompletes (hmarks (htests (hunblock (.reportDone (.gateTest (.intakeCompletes (.releaseItem ?_ ..) ..))
        ..) _) _) _) ..) _
      exact h
    · exact h

end Sys2Proof.Machine
end

section
/-!
SUPPORT. The operations of the Enquiry Unit and of the Amendment Unit keep the bounds of the units: a cursor is set in its place, and
requests only leave the port.
-/

namespace Sys2Proof.Machine

variable {lim : Fin 4 → Nat} {w : Works} {x : Ctx}

/-! ## Cursors -/

theorem Works.Fits.withEnquiry (h : w.Fits lim) {e : Enquiry} (he : e.cursors.length = w.enquiry.cursors.length) :
    ({ w with enquiry := e } : Works).Fits lim := by
  obtain ⟨hport, hchan, hqueue, hcursors⟩ := h
  exact ⟨hport, hchan, hqueue, he.trans hcursors⟩

theorem Works.Fits.setCursor (h : w.Fits lim) (n : Nat) (c : Cursor) : (w.setCursor n c).Fits lim := h.withEnquiry List.length_set

theorem Works.Fits.dropPrefetch (h : w.Fits lim) (n : Nat) : (w.dropPrefetch n).Fits lim := by
  refine .setCursor ?_ ..
  split
  · exact h.unpin _
  · exact h

theorem Works.Fits.freeCursor (h : w.Fits lim) (n : Nat) : (w.freeCursor n).Fits lim := (h.dropPrefetch n).setCursor ..

theorem Works.Fits.prefetch (h : w.Fits lim) (n : Nat) (rd : Reading) : (w.prefetch x n rd).Fits lim := by
  unfold Works.prefetch
  dsimp only
  split
  · exact h.dropPrefetch n
  · exact .ite h (.askRead (.setCursor (h.dropPrefetch n).next ..) ..)

theorem Works.Fits.endRead (h : w.Fits lim) (n : Nat) (v : Verdict) (reason : Option Reason) (position : Position)
    (meetsBack endMark : Bool) : (w.endRead x n v reason position meetsBack endMark).Fits lim := by
  unfold Works.endRead
  dsimp only
  split
  · exact h
  · have hreply (c : Cursor) (id : Nat) (res : Result) : ((w.setCursor n c).reply id v reason res endMark).Fits lim :=
      (h.setCursor ..).reply ..
    exact .ite (hreply ..) (.ite ((hreply ..).dropPrefetch _) ((hreply ..).prefetch ..))

theorem Works.Fits.mapReading (h : w.Fits lim) (n : Nat) (f : Reading → Reading) : (w.mapReading n f).Fits lim := h.setCursor ..

theorem Works.Fits.needSheet (h : w.Fits lim) (n : Nat) (rd : Reading) (r : SheetRef) (e : Entry) (p : Place) :
    (w.needSheet n rd r e p).Fits lim := by
  unfold Works.needSheet
  dsimp only
  split
  · exact .ite ((h.touch _).mapReading ..) ((Works.Fits.mapReading (.ite (h.dropPrefetch n) h) ..).askRead ..)
  · exact (h.mapReading ..).askRead ..

theorem Works.Fits.useItem (h : w.Fits lim) (n : Nat) (c : Cursor) (rd : Reading) (p : Place) (i : EnquiryItem) :
    (w.useItem x n c rd p i).1.Fits lim := by
  unfold Works.useItem
  split
  · exact h.mapReading ..
  · dsimp only
    split
    · exact h.endRead ..
    · exact h.setCursor ..

theorem Works.Fits.readStep (h : w.Fits lim) (n : Nat) : (w.readStep x n).1.Fits lim := by
  unfold Works.readStep
  dsimp only
  split
  · exact h
  · split
    · exact h
    · split
      · split
        · exact h.endRead ..
        · exact h.needSheet ..
      · exact h.endRead ..
      · split
        · split
          · split
            · exact h.setCursor ..
            · exact (h.setCursor ..).endRead ..
          · exact h.endRead ..
        · split
          · exact h.mapReading ..
          · exact h.useItem ..

theorem Works.Fits.waitEnds (h : w.Fits lim) (n : Nat) : (w.waitEnds x n).Fits lim := by
  unfold Works.waitEnds
  dsimp only
  split
  · exact h
  · exact h.endRead ..

theorem Works.Fits.mediaEnds (h : w.Fits lim) (n : Nat) : (w.mediaEnds x n).Fits lim := by
  unfold Works.mediaEnds
  dsimp only
  split
  · exact h
  · exact .ite (h.endRead ..) (h.endRead ..)

theorem Works.Fits.cursorAnswer (h : w.Fits lim) (n req : Nat) (r : SheetRef) (a : ReadAnswer) :
    (w.cursorAnswer x n req r a).Fits lim := by
  unfold Works.cursorAnswer
  split
  · exact h
  · refine .ite h ?_
    split
    · exact h.mapReading ..
    · exact h.mapReading ..
    · exact (h.mapReading ..).mediaEnds _
    · exact h.mapReading ..

theorem Works.Fits.prefetchAnswer (h : w.Fits lim) (n serial : Nat) (a : ReadAnswer) : (w.prefetchAnswer x n serial a).Fits lim := by
  unfold Works.prefetchAnswer
  dsimp only
  split
  · exact h.setCursor ..
  · exact h.unpin _
  · exact h
  · exact h.setCursor ..
  · exact h

/-! ## Lookups -/

theorem Works.Fits.mapLookup (h : w.Fits lim) (req : Nat) (f : Lookup → Lookup) : (w.mapLookup req f).Fits lim := h

theorem Works.Fits.dropLookup (h : w.Fits lim) (req : Nat) : (w.dropLookup req).Fits lim := h

theorem Works.Fits.lookupRefused (h : w.Fits lim) (req : Nat) (reason : Reason) (res : Result) :
    (w.lookupRefused req reason res).Fits lim := (h.dropLookup _).refuseWith ..

theorem Works.Fits.lookupFound (h : w.Fits lim) (l : Lookup) (r : Rec) : (w.lookupFound x l r).Fits lim :=
  .ite (h.mapLookup ..) ((h.dropLookup _).report ..)

theorem Works.Fits.lookupStep (h : w.Fits lim) (req : Nat) : (w.lookupStep x req).Fits lim := by
  unfold Works.lookupStep
  split
  · exact h
  · have hmap (f : Lookup → Lookup) := h.mapLookup req f
    refine .ite ((hmap _).lookupRefused ..) ?_
    dsimp only
    split
    · exact (hmap _).lookupFound ..
    · split
      · exact ((hmap _).mapLookup ..).askRead ..
      · split
        · exact (hmap _).lookupFound ..
        · split
          · exact (hmap _).lookupRefused ..
          · split
            · exact (hmap _).lookupFound ..
            · exact (hmap _).lookupRefused ..

theorem Works.Fits.lookupAnswer (h : w.Fits lim) (req : Nat) (r : SheetRef) (a : ReadAnswer) : (w.lookupAnswer req r a).Fits lim := by
  unfold Works.lookupAnswer
  split
  · exact h
  · refine .ite h ?_
    split
    · exact (h.mapLookup ..).task _
    · exact (h.mapLookup ..).task _
    · exact h.lookupRefused ..
    · exact h.task _

theorem Works.Fits.enquiriesGoOn (h : w.Fits lim) : w.enquiriesGoOn.Fits lim := .addTasks (h.withEnquiry (List.length_map _)) _

theorem Works.Fits.holdTuned (h : w.Fits lim) : (w.holdTuned x).Fits lim := .foldl (fun _ _ hw => .ite (hw.dropPrefetch _) hw) _ h

theorem Works.Fits.idleTuned (h : w.Fits lim) : (w.idleTuned x).Fits lim :=
  .foldl (fun _ _ hw => .ite (hw.freeCursor _) hw) _ (.foldl (fun _ _ hw => .ite (hw.lookupRefused ..) hw) _
    (.foldl (fun _ _ hw => .ite (hw.waitEnds _) hw) _ h))

theorem Works.Fits.dropReads (h : w.Fits lim) (p : Req → Bool) (l : List Lookup) :
    ({ w with port := { w.port with reqs := w.port.reqs.filter p }, enquiry := { w.enquiry with lookups := l } } : Works).Fits lim :=
  ⟨h.1.thin h.1.1 (List.filter_sublist.map _) le_rfl, h.2⟩

theorem Works.Fits.enquiryReset (h : w.Fits lim) : w.enquiryReset.Fits lim := by
  have hfree : (cursorNumbers.foldl (fun w n => w.freeCursor n) w).Fits lim := .foldl (fun _ _ hw => hw.freeCursor _) _ h
  exact hfree.dropReads ..

/-! ## The Amendment Unit -/

theorem Works.Fits.setBatch (h : w.Fits lim) (ch : Fin 4) (b : Batch) : (w.setBatch ch b).Fits lim := h

theorem Works.Fits.releasePins (h : w.Fits lim) (b : Batch) : (w.releasePins b).Fits lim := .foldl (fun _ _ hw => hw.unpin _) _ h

theorem Works.Fits.endBatch (h : w.Fits lim) (ch : Fin 4) : (w.endBatch ch).Fits lim := (h.releasePins _).next.setBatch ..

theorem Works.Fits.refuseBatch (h : w.Fits lim) (ch : Fin 4) (reason : Reason) (entry : Nat) :
    (w.refuseBatch ch reason entry).Fits lim := by
  unfold Works.refuseBatch
  split
  · exact (h.endBatch _).refuseWith ..
  · exact h.endBatch _

theorem Works.Fits.leavePending (h : w.Fits lim) (ch : Fin 4) : (w.leavePending ch).Fits lim := (h.dropPending _).task _

theorem Works.Fits.commit (h : w.Fits lim) (ch : Fin 4) (group : Nat) : (w.commit ch group).Fits lim := by
  have hend := (h.leavePending ch).endBatch ch
  unfold Works.commit
  dsimp only
  split
  · exact hend.done ..
  · exact hend

theorem Works.Fits.dropBatch (h : w.Fits lim) (ch : Fin 4) (reason : Reason) (entry : Nat) : (w.dropBatch ch reason entry).Fits lim :=
  (h.leavePending _).refuseBatch ..

theorem Works.Fits.beginFinding (h : w.Fits lim) (ch : Fin 4) (n : Nat) : (w.beginFinding ch n).Fits lim :=
  (h.next.setBatch ..).task _

theorem Works.Fits.findNext (h : w.Fits lim) (ch : Fin 4) : (w.findNext ch).Fits lim := by
  unfold Works.findNext
  split
  · exact h.beginFinding ..
  · exact (h.setBatch ..).task _

theorem Works.Fits.dropStaleHit (h : w.Fits lim) (ch : Fin 4) : (w.dropStaleHit ch).Fits lim := by
  unfold Works.dropStaleHit
  dsimp only
  split
  · exact h
  · exact .ite h ((h.unpin _).setBatch ..)

theorem Works.Fits.findEntry (h : w.Fits lim) (ch : Fin 4) : (w.findEntry ch).Fits lim := by
  have hstale := h.dropStaleHit ch
  unfold Works.findEntry
  dsimp only
  split
  · split
    · exact hstale
    · refine .ite (hstale.refuseBatch ..) ?_
      split
      · exact .ite (hstale.refuseBatch ..) ((hstale.setBatch ..).askMerge ..)
      · split
        · exact (hstale.setBatch ..).askRead ..
        · split
          · exact (hstale.setBatch ..).findNext _
          · exact .ite (hstale.refuseBatch ..) (hstale.refuseBatch ..)
  · exact hstale

theorem Works.Fits.findAnswer (h : w.Fits lim) (ch : Fin 4) (serial n : Nat) (r : SheetRef) (a : ReadAnswer) :
    (w.findAnswer ch serial n r a).Fits lim := by
  have hhit (f : Option Found) : (match f with | some f => w.unpin f.pin | none => w).Fits lim := by
    split
    · exact h.unpin _
    · exact h
  unfold Works.findAnswer
  refine .ite ?_ ?_
  · split
    · exact h.unpin _
    · exact h
  · dsimp only
    split
    · generalize List.find? _ _ = found
      cases found with
      | some c => exact ((hhit _).setBatch ..).task _
      | none => exact ((h.unpin _).setBatch ..).task _
    · exact (h.setBatch ..).task _
    · exact h.refuseBatch ..
    · exact h.refuseBatch ..
    · exact (h.setBatch ..).task _

theorem Works.Fits.mergeTold (h : w.Fits lim) (ch : Fin 4) : (w.mergeTold ch).Fits lim := by
  unfold Works.mergeTold
  dsimp only
  split
  · exact (h.setBatch ..).task _
  · exact h

theorem Works.Fits.queueApply (h : w.Fits lim) (ch : Fin 4) : (w.queueApply ch).Fits lim := by
  unfold Works.queueApply
  refine .ite h ?_
  dsimp only
  split
  · next heq => exact (h.pushItem heq).setBatch ..
  · exact (h.setBatch ..).noteAsker _

theorem Works.Fits.place (h : w.Fits lim) (ch : Fin 4) : (w.place ch).Fits lim := by
  unfold Works.place
  refine .ite h (.ite (.findNext (.setBatch (.foldl (fun w e hw => ?_) _ h) ..) _) (.ite h (.ite (h.refuseBatch ..)
    (.queueApply (.setBatch ?_ ..) _))))
  · split
    · exact hw.unpin _
    · exact hw
  · exact h

theorem Works.Fits.collect_error (h : w.Fits lim) {r : Req} {l : List AmendEntry} {v : Works} (heq : w.collect r l = .error v) :
    v.Fits lim := by
  unfold Works.collect at heq
  dsimp only at heq
  split at heq
  · exact Except.error.inj heq ▸ h.refuse ..
  · split at heq
    · exact Except.error.inj heq ▸ h.refuse ..
    · split at heq
      · exact Except.error.inj heq ▸ (h.endBatch _).refuseWith ..
      · cases heq

theorem Works.Fits.amendCollect (h : w.Fits lim) (r : Req) (l : List AmendEntry) : (w.amendCollect r l).Fits lim := by
  unfold Works.amendCollect
  split
  · next heq => exact h.collect_error heq
  · exact (h.setBatch ..).done ..

theorem Works.Fits.amendClose (h : w.Fits lim) (r : Req) (net : Int) (l : List AmendEntry) : (w.amendClose r net l).Fits lim := by
  unfold Works.amendClose
  split
  · next heq => exact h.collect_error heq
  · have htaken (b : Batch) : ((w.setBatch r.ch b).take r.id).Fits lim := (h.setBatch ..).take _
    dsimp only
    split
    · exact (htaken _).refuseBatch ..
    · exact ((htaken _).setBatch ..).beginFinding ..

theorem Works.Fits.abandonBatch (h : w.Fits lim) (r : Req) : (w.abandonBatch r).Fits lim := by
  unfold Works.abandonBatch
  dsimp only
  split
  · exact h.done ..
  · exact (h.endBatch _).done ..
  · exact h.refuse ..

theorem Works.Fits.amendReset (h : w.Fits lim) : w.amendReset.Fits lim := .foldl (fun _ _ hw => .ite (hw.endBatch _) hw) _ h

end Sys2Proof.Machine
end

section
/-!
SUPPORT. The operations of the Retention Unit, of the Audit Unit and of the rebuild keep the bounds of the units.
-/

namespace Sys2Proof.Machine

variable {lim : Fin 4 → Nat} {w : Works} {x : Ctx}

/-! ## Holds -/

theorem Works.Fits.mapRetention (h : w.Fits lim) (f : Retention → Retention) : (w.mapRetention f).Fits lim := h

theorem Works.Fits.mapRange (h : w.Fits lim) (lo : Nat) (f : HoldRange → HoldRange) : (w.mapRange lo f).Fits lim := h

theorem Works.Fits.postHold (h : w.Fits lim) (lo serial : Nat) (p : HoldPart) : (w.postHold lo serial p).Fits lim :=
  ((h.mapRetention _).mapRange ..).post ..

theorem Works.Fits.holdStart (h : w.Fits lim) (lo : Nat) : (w.holdStart lo).Fits lim := by
  unfold Works.holdStart
  split
  · exact h
  · refine .ite h ?_
    have hrefused (l : List HoldReq) : (l.foldl (fun w q => w.refuse q.req .state) w.next.2).Fits lim :=
      .foldl (fun _ _ hw => hw.refuse ..) l h.next
    dsimp only
    split
    · exact ((hrefused _).mapRange ..).postHold ..
    · split
      · exact ((hrefused _).mapRange ..).voidMark ..
      · exact ((hrefused _).mapRange ..).task _

theorem Works.Fits.holdLive (h : w.Fits lim) (serial : Nat) (s : SlotAddr) : (w.holdLive serial s).Fits lim := by
  unfold Works.holdLive
  split
  · exact h
  · split
    · exact h
    · split
      · exact h
      · dsimp only
        split
        · exact (h.mapRange ..).postHold ..
        · exact (h.mapRange ..).task _

theorem Works.Fits.answerHold (h : w.Fits lim) (q : HoldReq) : (w.answerHold q).Fits lim := h.done ..

theorem Works.Fits.holdEnd (h : w.Fits lim) (serial : Nat) : (w.holdEnd serial).Fits lim := by
  unfold Works.holdEnd
  split
  · exact h
  · split
    · exact h
    · refine .addTasks (.foldl (fun _ _ hw => hw.answerHold _) _ ?_) _
      split
      · exact (h.mapRetention _).voidMark ..
      · exact h.mapRetention _

theorem Works.Fits.joinWait (h : w.Fits lim) (q : HoldReq) : (w.joinWait q).Fits lim := by
  unfold Works.joinWait
  split
  · exact h
  · exact (h.mapRange ..).task _

theorem Works.Fits.placeHold (h : w.Fits lim) (r : Req) (account kind release : Nat) : (w.placeHold x r account kind release).Fits lim := by
  unfold Works.placeHold
  split
  · exact h.refuse ..
  · exact .ite (h.refuse ..) (.ite (h.refuse ..) (.ite (h.refuse ..) (((h.mapRetention _).joinWait _).take _)))

theorem Works.Fits.releaseHoldReq (h : w.Fits lim) (r : Req) (account kind : Nat) : (w.releaseHoldReq r account kind).Fits lim := by
  unfold Works.releaseHoldReq
  split
  · exact h.refuse ..
  · exact .ite (h.refuse ..) ((h.joinWait _).take _)

theorem Works.Fits.holdState (h : w.Fits lim) (r : Req) (account : Nat) : (w.holdState r account).Fits lim := by
  unfold Works.holdState
  refine .ite (h.refuse ..) ?_
  split
  · exact h.refuse ..
  · exact h.done ..

theorem Works.Fits.autoRelease (h : w.Fits lim) (today : Nat) : (w.autoRelease today).Fits lim := (h.mapRetention _).addTasks _

/-! ## Removing a day -/

theorem Works.Fits.mapSweep (h : w.Fits lim) (f : Sweep → Sweep) : (w.mapSweep f).Fits lim := h

theorem Works.Fits.offerDay (h : w.Fits lim) (d : Nat) : (w.offerDay x d).Fits lim := by
  unfold Works.offerDay
  split
  · exact h
  · exact .ite h (((h.mapDay ..).mapSweep _).post ..)

theorem Works.Fits.dayGoneLive (h : w.Fits lim) (d : Nat) (s : SlotAddr) : (w.dayGoneLive d s).Fits lim := by
  unfold Works.dayGoneLive
  split
  · exact h
  · split
    · exact (h.mapDay ..).voidMark ..
    · exact h.voidMark ..

theorem Works.Fits.dayGoneMarked (h : w.Fits lim) (d : Nat) (self : Bool) : (w.dayGoneMarked d self).Fits lim := by
  unfold Works.dayGoneMarked
  refine .ite h ?_
  split
  · exact (h.mapDay ..).voidMark ..
  · exact h

/-! ## Sweeps -/

theorem Works.Fits.startSweep (h : w.Fits lim) : (w.startSweep x).2.Fits lim := by
  unfold Works.startSweep
  split <;> exact h

theorem Works.Fits.sweepReq (h : w.Fits lim) (r : Req) : (w.sweepReq x r).Fits lim := (h.startSweep (x := x)).done ..

theorem Works.Fits.sweepCheck (h : w.Fits lim) (d c : Nat) : (w.sweepCheck x d c).Fits lim := by
  unfold Works.sweepCheck
  split
  · exact h
  · have hrun (p : Prop) [Decidable p] : (if p then w.setRun d c .residual else w).Fits lim := .ite h h
    exact .ite h (.task (.ite ((hrun _).offerDay _) (hrun _)) _)

theorem Works.Fits.sweepDoneWith (h : w.Fits lim) (d c : Nat) : (w.sweepDoneWith x d c).Fits lim :=
  .ite ((h.mapSweep _).sweepCheck ..) h

theorem Works.Fits.sweepQueue (h : w.Fits lim) (d : Nat) (work : Work) (sheets : List SheetRef) : (w.sweepQueue d work sheets).Fits lim := by
  unfold Works.sweepQueue
  dsimp only
  split
  · next heq =>
    split at heq
    · cases heq
    · exact (h.mapSweep _).pushItem heq
  · exact ((h.mapSweep _).mapSweep _).noteAsker _

theorem Works.Fits.sweepRetry (l : List (Nat × Work)) (h : w.Fits lim) : (w.sweepRetry l).Fits lim := by
  induction l generalizing w with
  | nil => exact h
  | cons p l ih =>
    unfold Works.sweepRetry
    split
    · next heq => exact ih ((h.pushItem heq).mapSweep _)
    · exact h.noteAsker _

theorem Works.Fits.sweepSpace (h : w.Fits lim) : w.sweepSpace.Fits lim := by
  unfold Works.sweepSpace
  split
  · exact h
  · exact .ite ((h.sweepRetry _).addTasks _) (h.sweepRetry _)

theorem Works.Fits.deferRun (h : w.Fits lim) (d c : Nat) (cause : Cause) : (w.deferRun d c cause).Fits lim := h

theorem Works.Fits.mapVisit (h : w.Fits lim) (d c : Nat) (f : Visit → Visit) : (w.mapVisit d c f).Fits lim := h

theorem Works.Fits.carryOut (h : w.Fits lim) (v : Visit) (e : Entry) (a : Decision) : (w.carryOut v e a).Fits lim := by
  unfold Works.carryOut
  dsimp only
  split
  · exact h
  · exact (h.mapSweep _).deferRun ..
  · exact h.mapSweep _
  · exact .ite ((h.mapSweep _).mapSweep _) ((h.mapSweep _).mapVisit ..)
  · exact (h.mapSweep _).sweepQueue ..
  · exact (h.mapVisit ..).askRead ..

theorem Works.Fits.endVisit (h : w.Fits lim) (v : Visit) : (w.endVisit x v).Fits lim := by
  have hretire {w : Works} (hw : w.Fits lim) : (if v.retire = [] then w else w.sweepQueue v.day (.retire v.retire) v.retire).Fits lim :=
    .ite hw (hw.sweepQueue ..)
  have hagain {w : Works} (hw : w.Fits lim) (f : Sweep → Sweep) :
      (if v.again = true then (w.mapSweep f).task (.visit v.day v.cls) else w).Fits lim := .ite ((hw.mapSweep _).task _) hw
  exact .sweepCheck (hagain (hretire (h.mapSweep _)) _) ..

theorem Works.Fits.visitStep (h : w.Fits lim) (s : Sweep) (v : Visit) : (w.visitStep x s v).Fits lim := by
  unfold Works.visitStep
  split
  · exact h.endVisit _
  · exact (h.mapVisit ..).carryOut ..

theorem Works.Fits.visit (h : w.Fits lim) (d c : Nat) : (w.visit x d c).Fits lim := by
  unfold Works.visit
  split
  · exact h
  · split
    · exact h
    · exact .ite h ((h.visitStep ..).task _)

theorem Works.Fits.revisit (h : w.Fits lim) (d c : Nat) (cause : Cause) : (w.revisit d c cause).Fits lim := by
  unfold Works.revisit
  split
  · exact h
  · refine .ite h ?_
    dsimp only
    split
    · exact (h.mapSweep _).mapVisit ..
    · exact ((h.mapSweep _).mapSweep _).task _

theorem Works.Fits.revisitDay (h : w.Fits lim) (d : Nat) (cause : Cause) : (w.revisitDay d cause).Fits lim := by
  unfold Works.revisitDay
  split
  · exact h
  · exact h.addTasks _

theorem Works.Fits.revisitChannel (h : w.Fits lim) (mc : Fin 4) : (w.revisitChannel mc).Fits lim := by
  unfold Works.revisitChannel
  split
  · exact h
  · exact h.addTasks _

theorem Works.Fits.sweepAnswer (h : w.Fits lim) (r : SheetRef) (a : ReadAnswer) : (w.sweepAnswer r a).Fits lim := by
  unfold Works.sweepAnswer
  split
  · exact h
  · split
    · exact h
    · next v _ =>
      have htask {w : Works} (hw : w.Fits lim) (v : Visit) : (if v.walk = true then w else w.task (.visit v.day v.cls)).Fits lim :=
        .ite hw (hw.task _)
      refine .ite h (htask ?_ _)
      split
      · exact h.mapVisit ..
      · split
        · exact (h.mapVisit ..).carryOut ..
        · exact (h.mapVisit ..).carryOut ..

theorem Works.Fits.leaveDay (h : w.Fits lim) (s : Sweep) (d : Nat) : (w.leaveDay x s d).Fits lim := by
  have hretire (f : Sweep → Sweep) : (if s.openRetire = [] then w.mapSweep f else
      (w.mapSweep f).sweepQueue d (.retire s.openRetire) s.openRetire).Fits lim := .ite (h.mapSweep _) ((h.mapSweep _).sweepQueue ..)
  unfold Works.leaveDay
  dsimp only
  split
  · exact hretire _
  · exact .ite ((hretire _).offerDay _) (hretire _)

theorem Works.Fits.visitRun (h : w.Fits lim) (s : Sweep) (d c : Nat) : (w.visitRun x s d c).Fits lim := .ite h (.ite h h)

theorem Works.Fits.sweepWalk (h : w.Fits lim) : (w.sweepWalk x).Fits lim := by
  unfold Works.sweepWalk
  split
  · exact h
  · next s _ =>
    refine .ite h ?_
    split
    · exact .ite h (h.visitStep ..)
    · have hnext (found : Option Nat) (run : Nat → Option Nat) : (match found with
          | none => (w.mapSweep fun s => { s with passed := true }).task .sweepEnd
          | some d =>
            match run d with
            | some c => (w.mapSweep fun s => { s with position := some ⟨d, none, false⟩ }).visitRun x s d c
            | none => w.mapSweep fun s => { s with position := some ⟨d, none, false⟩ }).Fits lim := by
        split
        · exact (h.mapSweep _).task _
        · split
          · exact (h.mapSweep _).visitRun ..
          · exact h.mapSweep _
      dsimp only
      split
      · exact hnext _ _
      · refine .ite (hnext _ _) ?_
        split
        · exact h.visitRun ..
        · exact h.leaveDay ..

theorem Works.Fits.sweepEnd (h : w.Fits lim) : (w.sweepEnd x).Fits lim := by
  unfold Works.sweepEnd
  split
  · exact h
  · exact .ite h ((h.mapRetention _).notice ..)

theorem Works.Fits.sweepReported (h : w.Fits lim) (r : SheetRef) (cause : Cause) : (w.sweepReported r cause).Fits lim := .ite h h

theorem Works.Fits.sweepRetired (h : w.Fits lim) (l : List (SheetRef × Bool)) : (w.sweepRetired x l).Fits lim :=
  .foldl (fun _ _ hw => hw.sweepCheck ..) _ (h.mapSweep _)

theorem Works.Fits.sweepTrimmed (h : w.Fits lim) (r : SheetRef) (records : Nat) : (w.sweepTrimmed x r records).Fits lim :=
  (h.mapSweep _).sweepCheck ..

/-! ## The audit and the scrub walk -/

theorem Works.Fits.mapAudit (h : w.Fits lim) (f : Audit → Audit) : (w.mapAudit f).Fits lim := h

theorem Works.Fits.auditDay (h : w.Fits lim) (r : Req) (d : Nat) : (w.auditDay r d).Fits lim := by
  unfold Works.auditDay
  refine .ite (h.refuse ..) (.ite (h.refuse ..) ?_)
  split
  · exact h.refuse ..
  · refine .take ?_ _
    exact h

theorem Works.Fits.auditDrained (h : w.Fits lim) (d : Nat) : (w.auditDrained d).Fits lim := .ite (h.mapAudit _) h

theorem Works.Fits.auditRelease (h : w.Fits lim) (r : SheetRef) : (w.auditRelease x r).Fits lim := by
  unfold Works.auditRelease
  dsimp only
  split
  · exact .ite ((h.mapAudit _).release ..) (h.mapAudit _)
  · exact h.mapAudit _

theorem Works.Fits.auditTake (h : w.Fits lim) (d cls : Nat) (e : Entry) : (w.auditTake d cls e).Fits lim :=
  .ite (h.mapAudit _) (.ite (h.mapAudit _) (.ite (h.mapAudit _) (((h.claim ..).mapAudit _).askRead ..)))

theorem Works.Fits.auditReleased (h : w.Fits lim) (d cls : Nat) (first : Key) : (w.auditReleased d cls first).Fits lim := by
  unfold Works.auditReleased
  split
  · exact h
  · split
    · refine .ite ?_ h
      split
      · exact h.auditTake ..
      · exact h.mapAudit _
    · exact h

theorem Works.Fits.auditState (h : w.Fits lim) (a : Audit) : (w.auditState x a).Fits lim := by
  unfold Works.auditState
  split
  · exact h
  · refine .report ?_ ..
    exact h

theorem Works.Fits.auditWalk (h : w.Fits lim) : (w.auditWalk x).Fits lim := by
  unfold Works.auditWalk
  split
  · exact h
  · refine .ite h ?_
    dsimp only
    split
    · exact h
    · split
      · exact .ite h (h.auditTake ..)
      · exact h.mapAudit _
    · split
      · exact h.auditState _
      · exact (h.mapAudit _).auditTake ..

theorem Works.Fits.auditAnswer (h : w.Fits lim) (r : SheetRef) (a : ReadAnswer) : (w.auditAnswer x r a).Fits lim := by
  unfold Works.auditAnswer
  split
  · exact h
  · refine .ite h ?_
    split
    · exact h.auditRelease _
    · split
      · split
        · exact (h.mapAudit _).auditRelease _
        · exact ((h.mapAudit _).quarantine _).auditRelease _
      · exact (h.mapAudit _).auditRelease _
      · exact (h.mapAudit _).auditRelease _
      · exact (h.auditRelease _).mapAudit _

theorem Works.Fits.mapScrub (h : w.Fits lim) (f : Scrub → Scrub) : (w.mapScrub f).Fits lim := h

theorem Works.Fits.scrubTake (h : w.Fits lim) (p : Nat × Nat × Entry) : (w.scrubTake p).Fits lim := (h.mapScrub _).askRead ..

theorem Works.Fits.scrubExpiry (h : w.Fits lim) (now : Nat) : (w.scrubExpiry now).Fits lim := by
  unfold Works.scrubExpiry
  refine .ite (h.mapScrub _) ?_
  dsimp only
  split
  · exact (h.mapScrub _).scrubTake _
  · split
    · exact ((h.mapScrub _).mapScrub _).scrubTake _
    · exact h.mapScrub _

theorem Works.Fits.scrubAnswer (h : w.Fits lim) (a : ReadAnswer) : (w.scrubAnswer x a).Fits lim := by
  unfold Works.scrubAnswer
  split
  · exact h
  · dsimp only
    split
    · exact h.mapScrub _
    · split
      · exact h.mapScrub _
      · exact h.mapScrub _
      · exact (h.mapScrub _).mapScrub _
      · refine .ite (h.mapScrub _) ?_
        split
        · exact (h.mapScrub _).mapScrub _
        · exact ((h.mapScrub _).mapScrub _).quarantine _

/-! ## The rebuild -/

theorem Works.Fits.mapRebuild (h : w.Fits lim) (f : Rebuild → Rebuild) : (w.mapRebuild f).Fits lim := h

theorem Works.Fits.rebuildScan (h : w.Fits lim) : (w.rebuildScan x).Fits lim :=
  .foldl (fun _ _ hw => .ite ((hw.mapRebuild _).askOp ..) hw) _ h

theorem Works.Fits.rebuildWaits (h : w.Fits lim) : w.rebuildWaits.Fits lim := .foldl (fun _ _ hw => .ite hw (hw.mapRebuild _)) _ h

theorem Works.Fits.scanTo (h : w.Fits lim) (mc : Fin 4) (next : Nat) : (w.scanTo mc next).Fits lim := h

theorem MediaChan.Fits.foundSlot {c : MediaChan} (h : c.Fits) (idx : Nat) (i : SlotInfo) : (c.foundSlot idx i).Fits := h.setExt ..

theorem Works.Fits.recordSlot (h : w.Fits lim) (mc : Fin 4) (idx : Nat) (f : ScanFound) : (w.recordSlot x mc idx f).Fits lim := by
  have hfound (i : SlotInfo) : (w.mapChan mc fun c => c.foundSlot idx i).Fits lim := h.mapChan mc fun hc => hc.foundSlot ..
  have hresolve {w : Works} (hw : w.Fits lim) : (if w.scanned x = true then w.task .resolve else w).Fits lim := .ite (hw.task _) hw
  unfold Works.recordSlot
  refine hresolve ?_
  split
  · exact ((h.mapChan mc fun hc => hc.makeBad _).mapRebuild _).scanTo ..
  · exact h.scanTo ..
  · exact (hfound _).scanTo ..
  · exact (((hfound _).mapRebuild _).scanTo ..).voidMark ..
  · exact (((hfound _).mapRebuild _).enterCache ..).scanTo ..

theorem Works.Fits.scanRead (h : w.Fits lim) (mc : Fin 4) (op : Op) (idx : Nat) (who : List (Requester × Bool)) (again : Bool)
    (f : ScanFound) : (w.scanRead x mc op idx who again f).Fits lim := by
  unfold Works.scanRead
  split
  · exact (h.mapChan mc fun hc => hc.repeatOp _).task _
  · exact (h.recordSlot ..).opEnded _

theorem Works.Fits.rebuildEnd (h : w.Fits lim) : (w.rebuildEnd x).Fits lim := by
  have hlows {w : Works} (hw : w.Fits lim) (l : List (Fin 4)) :
      (l.foldl (fun w mc => (w.mapChan mc fun c => { c with lowArmed := true }).lowTest x mc) w).Fits lim :=
    .foldl (fun _ mc hw => (hw.mapChan mc fun hc => hc).lowTest mc) l hw
  unfold Works.rebuildEnd
  refine .notice (.addTasks (.fullTest (hlows ?_ _)) _) ..
  exact h

theorem Works.Fits.rebuildTest (h : w.Fits lim) : (w.rebuildTest x).Fits lim := .ite h.rebuildEnd h

theorem Works.Fits.rebuildMarked (h : w.Fits lim) : (w.rebuildMarked x).Fits lim := (h.mapRebuild _).rebuildTest

theorem Works.Fits.resolve (h : w.Fits lim) : (w.resolve x).Fits lim := by
  have hnotices {w : Works} (hw : w.Fits lim) (l : Tbl DayEntry) :
      (l.foldl (fun w p => w.notice x .rebuildDiscrepancy (.day p.1)) w).Fits lim := .foldl (fun _ _ hw => hw.notice ..) l hw
  have hmarks {w : Works} (hw : w.Fits lim) (l : List SlotAddr) : (l.foldl (fun w s => w.voidMark s .rebuild) w).Fits lim :=
    .foldl (fun _ _ hw => hw.voidMark ..) l hw
  unfold Works.resolve
  refine .ite h (.rebuildTest (hmarks (hnotices ?_ _) _))
  exact h

theorem MediaChan.fits_restart (c : MediaChan) (m : MediaCfg) : (c.restart m).Fits := ⟨Nat.zero_le _, rfl⟩

theorem Works.Fits.restart (h : w.Fits lim) : (w.restart x).Fits lim := by
  obtain ⟨hport, -, -, hcursors⟩ := h
  refine ⟨hport, fun mc => ?_, Nat.zero_le _, (List.length_map _).trans hcursors⟩
  match mc with
  | 0 => exact MediaChan.fits_restart ..
  | 1 => exact MediaChan.fits_restart ..
  | 2 => exact MediaChan.fits_restart ..
  | 3 => exact MediaChan.fits_restart ..

theorem Works.Fits.refuseReset (h : w.Fits lim) (id : Nat) : (w.refuseReset id).Fits lim := by
  unfold Works.refuseReset
  split
  · exact h.refuseWith ..
  · exact h.refuse ..

theorem Works.Fits.archiveReset (h : w.Fits lim) (r : Req) : (w.archiveReset x r).Fits lim := by
  have hrefused {w : Works} (hw : w.Fits lim) (l : List Nat) : (l.foldl (fun w id => w.refuseReset id) w).Fits lim :=
    .foldl (fun _ _ hw => hw.refuseReset _) l hw
  refine .addTasks (.done (.restart (hrefused ?_ _)) ..) _
  exact h

end Sys2Proof.Machine
end

section
/-!
SUPPORT. Every consequence and every command keeps the bounds of the units, and every command ends in a next state with the queue of
waiting commands of the state before.
-/

namespace Sys2Proof.Machine

variable {lim : Fin 4 → Nat} {w : Works} {x : Ctx}

/-! ## The consequences -/

theorem Works.Fits.askAgain (h : w.Fits lim) : (a : Asker) → (w.askAgain x a).Fits lim
  | .catalogue d => h.askCloseRuns d _
  | .intake f => h.askRestore f
  | .schedule d c => h.mergeTest d c
  | .batch ch => h.queueApply ch
  | .sweep => h.sweepSpace

theorem Works.Fits.answered (h : w.Fits lim) (a : ReadAnswer) : (who : Requester) → (w.answered x a who).Fits lim
  | .group id r => h.groupAnswer id r a
  | .neighbour id r => h.neighbourAnswer id r a
  | .audit r => h.auditAnswer r a
  | .scrub => h.scrubAnswer a
  | .sweep r => h.sweepAnswer r a
  | .copy mc old => h.copyAnswer mc old a
  | .batch ch serial n r => h.findAnswer ch serial n r a
  | .cursor n req r => h.cursorAnswer n.val req r a
  | .prefetch n serial => h.prefetchAnswer n.val serial a
  | .lookup req r => h.lookupAnswer req r a
  | .rebuild => h.rebuildWaits

theorem Works.Fits.postedLive (h : w.Fits lim) (s : SlotAddr) : (p : Poster) → (w.postedLive x s p).Fits lim
  | .output g n => h.outputLive g n s
  | .summary g => h.complete g s
  | .dayGone d => h.dayGoneLive d s
  | .hold serial => h.holdLive serial s

theorem Works.Fits.postedAdmitted (h : w.Fits lim) : (p : Poster) → (w.postedAdmitted p).Fits lim
  | .output g n => h.outputAdmitted g n
  | .summary _ => h
  | .dayGone _ => h
  | .hold _ => h

theorem Works.Fits.voidTold (h : w.Fits lim) : (o : VoidOwner) → (w.voidTold x o).Fits lim
  | .day d => h.markPaid d
  | .gonePrevious d => h.dayGoneMarked d false
  | .goneSelf d => h.dayGoneMarked d true
  | .holdEmpty serial => h.holdEnd serial
  | .rebuild => h.rebuildMarked
  | .untold => h

theorem Works.Fits.pendingLeft (h : w.Fits lim) (d : Nat) : (w.pendingLeft d).Fits lim := (h.enquiriesGoOn.revisitDay ..).addTasks _

theorem Works.Fits.onlineAgain (h : w.Fits lim) (mc : Fin 4) : (w.onlineAgain mc).Fits lim := by
  refine .revisitChannel (.task (h.withPacker ?_) _) _
  exact (List.length_map _).le.trans h.queue_le

theorem Works.Fits.runTask (h : w.Fits lim) : (t : Task) → (w.runTask x t).Fits lim
  | .scan => h.scan
  | .ask a => h.askAgain a
  | .answer who a => h.answered a who
  | .sheetLive p s => h.postedLive s p
  | .admitted p => h.postedAdmitted p
  | .abort g mc lost => h.abort g mc lost
  | .voidDone who _ => h.voidTold who
  | .grant mc => h.grant mc
  | .allocate => h.allocate
  | .relocationTest mc => h.relocationTest mc
  | .relocationSettle mc => h.relocationSettle mc
  | .find ch => h.findEntry ch
  | .place ch => h.place ch
  | .pendingLeft d => h.pendingLeft d
  | .released _ _ _ => (h.task _).task _
  | .releaseTold d c k => ((h.relocationReleased d c k).auditReleased d c k).revisit d c .busy
  | .runRemoved d c => h.sweepDoneWith d c
  | .mergeTest d c => h.mergeTest d c
  | .mergeTold ch => h.mergeTold ch
  | .holdStart lo => h.holdStart lo
  | .holdEnd serial => h.holdEnd serial
  | .lookup req => h.lookupStep req
  | .revisit d c cause => h.revisit d c cause
  | .visit d c => h.visit d c
  | .sweepEnd => h.sweepEnd
  | .auditDrained d => h.auditDrained d
  | .auditCleared d => h.revisitDay d .audit
  | .online mc => h.onlineAgain mc
  | .dayLeft _ => h.rewait
  | .packStep g => h.packStep g
  | .reported r cause => h.sweepReported r cause
  | .retiredDone l => h.sweepRetired l
  | .trimmedDone r n => h.sweepTrimmed r n
  | .committed ch g => h.commit ch g
  | .applyDropped ch reason n => h.dropBatch ch reason n
  | .resolve => h.resolve

theorem Works.Fits.settle (n : Nat) (h : w.Fits lim) : (settle x n w).Fits lim := by
  induction n generalizing w with
  | zero => exact h
  | succ n ih =>
    unfold Machine.settle
    split
    · exact h
    · next t l _ =>
      have hrest : ({ w with tasks := l } : Works).Fits lim := h
      exact ih (hrest.runTask t)

/-! ## Next states -/

/-- The outcome is a next state with the waiting commands of `s`, bounded when `s` is. -/
def KeepsBounds (s : State) (o : Host.Outcome State Fault Refusal) : Prop :=
  ∃ t, o = .next t ∧ t.pending = s.pending ∧ (s.bounded → t.bounded)

/-- The requests that each channel's window leaves to be in progress. -/
def State.room (s : State) (ch : Fin 4) : Nat := (s.windows.get ch).room

theorem Works.Fits.weaken {more : Fin 4 → Nat} (h : w.Fits lim) (hlim : ∀ ch, lim ch ≤ more ch) : w.Fits more := by
  obtain ⟨⟨hout, hin, hreqs⟩, hrest⟩ := h
  exact ⟨⟨hout, fun ch => (hin ch).trans (hlim ch), hreqs⟩, hrest⟩

theorem KeepsBounds.next (s : State) : KeepsBounds s (.next s) := ⟨s, rfl, rfl, id⟩

/-- A change outside the units that leaves a channel no less room. -/
theorem KeepsBounds.outside {s u : State} (hpending : u.pending = s.pending) (hworks : u.works = s.works)
    (hroom : ∀ ch, s.room ch ≤ u.room ch) : KeepsBounds s (.next u) := by
  refine ⟨u, rfl, hpending, fun hs => u.bounded_iff.mpr ?_⟩
  rw [hworks]
  exact (s.bounded_iff.mp hs).weaken hroom

theorem KeepsBounds.settled {s u : State} {w : Works} (hpending : u.pending = s.pending)
    (hw : s.works.Fits s.room → w.Fits u.room) : KeepsBounds s (u.settled w) :=
  ⟨_, u.settled_next w, hpending, fun hs => (State.bounded_iff _).mpr ((hw (s.bounded_iff.mp hs)).settle _)⟩

/-- The units changed by operations that keep their bounds, the windows being as they were. -/
theorem KeepsBounds.units {s u : State} {w : Works} (hpending : u.pending = s.pending) (hwindows : u.windows = s.windows)
    (hw : ∀ {lim : Fin 4 → Nat}, s.works.Fits lim → w.Fits lim) : KeepsBounds s (u.settled w) := by
  refine .settled hpending fun hs => ?_
  have hroom : u.room = s.room := funext fun ch => by rw [State.room, hwindows]; rfl
  exact hroom ▸ hw hs

theorem KeepsBounds.settledWith {s : State} {p : Works × Option (Nat × Bytes)}
    (hp : ∀ {lim : Fin 4 → Nat}, s.works.Fits lim → p.1.Fits lim) : KeepsBounds s (s.settledWith p) := by
  obtain ⟨w, _ | q⟩ := p
  · exact .units rfl rfl hp
  · exact .units rfl rfl hp

/-- A command that serves a request keeps the bounds when each change of the units that it can name does. -/
theorem KeepsBounds.serve {s : State} {ch : Fin 4} {o : Owner} {f : Req → Option Works}
    (hf : ∀ {lim : Fin 4 → Nat}, s.works.Fits lim → ∀ r, (f r).elim True (Works.Fits lim)) : KeepsBounds s (s.serve ch o f) := by
  obtain h | ⟨r, w, -, hw, h⟩ := s.serve_cases ch o f
  · exact h ▸ .next s
  · refine h ▸ .units rfl rfl fun hs => ?_
    have hfits := hf hs r
    rw [hw] at hfits
    exact hfits

theorem KeepsBounds.ite {s : State} {c : Prop} [Decidable c] {a b : Host.Outcome State Fault Refusal} (ha : KeepsBounds s a)
    (hb : KeepsBounds s b) : KeepsBounds s (if c then a else b) := by
  split
  · exact ha
  · exact hb

/-! ## The commands of the port -/

theorem State.room_mapWindow {s : State} {ch : Fin 4} {f : Window → Window} (hf : (s.windows.get ch).room ≤ (f (s.windows.get ch)).room)
    (i : Fin 4) : s.room i ≤ (s.mapWindow ch f).room i := by
  unfold State.room State.mapWindow
  dsimp only
  rw [Quad.get_modify]
  split
  · subst_vars
    exact hf
  · exact le_rfl

/-- A window that fetches nothing leaves the most room. -/
theorem Window.room_le {u v : Window} (h : v.fetching = false) : u.room ≤ v.room := by
  unfold Window.room
  rw [h]
  exact Nat.sub_le_sub_left (Nat.zero_le _) _

theorem Window.room_of_fetching {u v : Window} (h : v.fetching = u.fetching) : u.room ≤ v.room := by
  unfold Window.room
  rw [h]

theorem keeps_powerOn (torn : List (Fin 4 × Torn)) (s : State) : KeepsBounds s (exec (.powerOn torn) s) := by
  have hreset : State.reset.bounded := resetStateIsSoundAndStarting.2.1
  exact ⟨_, rfl, rfl, fun _ => hreset⟩

theorem Port.Fits.discardAll {p : Port} {n : Nat} (l : List (Fin 4)) (h : p.Fits lim n) :
    (l.foldl (fun p ch => p.discard ch) p).Fits lim n := by
  induction l generalizing p with
  | nil => exact h
  | cons ch l ih => exact ih (h.discard ch)

theorem keeps_portReset (s : State) : KeepsBounds s (exec .portReset s) := by
  have hroom (u : State) (hu : u.windows = .all .initial) (ch : Fin 4) : s.room ch ≤ u.room ch := by
    unfold State.room
    rw [hu]
    match ch with
    | 0 => exact Window.room_le rfl
    | 1 => exact Window.room_le rfl
    | 2 => exact Window.room_le rfl
    | 3 => exact Window.room_le rfl
  refine .settled rfl fun hs => Works.Fits.weaken (lim := s.room) ?_ (hroom _ rfl)
  exact .enquiryReset (.amendReset (hs.withPort (hs.1.discardAll _)))

theorem Window.room_setup (v : Window) (value : BitVec 32) : v.room ≤ (v.setup value).room := by
  unfold Window.setup
  dsimp only
  split
  · exact Window.room_le rfl
  · exact Window.room_of_fetching rfl

theorem keeps_setupEvent (ch : Fin 4) (value : BitVec 32) (s : State) : KeepsBounds s (exec (.setupEvent ch value) s) := by
  have hroom := s.room_mapWindow (ch := ch) (f := fun v => v.setup value) (Window.room_setup ..)
  refine .ite (.next s) (.ite (.outside rfl rfl hroom) (.settled rfl fun hs => ?_))
  exact (hs.weaken hroom).postKinds _

theorem keeps_fillWrite (ch : Fin 4) (value : BitVec 32) (s : State) : KeepsBounds s (exec (.requestFillIndexWrite ch value) s) := by
  refine .outside rfl rfl (State.room_mapWindow (Window.room_of_fetching ?_))
  unfold Window.fillWrite
  split <;> rfl

theorem keeps_consumeWrite (ch : Fin 4) (value : BitVec 32) (s : State) :
    KeepsBounds s (exec (.responseConsumeIndexWrite ch value) s) := by
  refine .outside rfl rfl (State.room_mapWindow (Window.room_of_fetching ?_))
  unfold Window.consumeWrite
  split <;> rfl

theorem keeps_registerWrite (ch : Fin 4) (field : WindowField) (value : BitVec 64) (s : State) :
    KeepsBounds s (exec (.registerWrite ch field value) s) := by
  refine .outside rfl rfl (State.room_mapWindow (Window.room_of_fetching ?_))
  unfold Window.fieldWrite
  split
  · rfl
  · cases field <;> rfl

/-- A fetch begins only while a channel has fewer than eight requests in progress. -/
theorem keeps_requestFetch (ch : Fin 4) (s : State) : KeepsBounds s (exec (.requestFetch ch) s) := by
  simp only [exec, execRequestFetch]
  split
  · next hf =>
    refine ⟨_, rfl, rfl, fun hs => (State.bounded_iff _).mpr ?_⟩
    obtain ⟨⟨hout, hin, hreqs⟩, hrest⟩ := s.bounded_iff.mp hs
    refine ⟨⟨hout, fun i => ?_, hreqs⟩, hrest⟩
    simp only [State.fetches, Bool.and_eq_true, decide_eq_true_eq] at hf
    simp only [State.mapWindow, Quad.get_modify]
    split
    · subst_vars
      exact Nat.le_pred_of_lt hf.2
    · exact hin i
  · exact .next s

/-- The serial number next given stands above those of the requests in progress. -/
theorem Works.Fits.enter {more : Fin 4 → Nat} (h : w.Fits lim) (r : Req) (hid : r.id = w.serial)
    (hmore : ∀ ch, lim ch + (if r.ch = ch then 1 else 0) ≤ more ch) :
    ({ w.next.2 with port := { w.port with reqs := w.port.reqs ++ [r] } } : Works).Fits more := by
  obtain ⟨⟨hout, hin, hids, hser⟩, hrest⟩ := h
  refine ⟨⟨hout, fun ch => ?_, ?_, fun q hq => ?_⟩, hrest⟩
  · have := hin ch
    have := hmore ch
    simp only [Port.inProgress, List.countP_append, List.countP_singleton, decide_eq_true_eq] at *
    omega
  · refine List.pairwise_append.mpr ⟨hids, List.pairwise_singleton .., fun a ha b hb => ?_⟩
    rw [List.mem_singleton.mp hb, hid]
    exact hser a ha
  · obtain hq | hq := List.mem_append.mp hq
    · exact (hser q hq).trans (Nat.lt_succ_self _)
    · rw [List.mem_singleton.mp hq, hid]
      exact Nat.lt_succ_self _

theorem Works.Fits.admitRequest {more : Fin 4 → Nat} (h : w.Fits lim) (ch : Fin 4) (record buffer : Bytes)
    (hmore : ∀ i, lim i + (if ch = i then 1 else 0) ≤ more i) : (w.admitRequest ch record buffer).Fits more := by
  have hrefuse (tag : BitVec 32) (reason : Reason) : (w.portRefuse ch tag reason).Fits more :=
    (h.enter ⟨w.serial, ch, tag, .status, 0, 0, 0, .handed, false⟩ rfl hmore).refuse ..
  unfold Works.admitRequest
  refine .ite (hrefuse ..) ?_
  split
  · exact hrefuse ..
  · exact .ite (h.enter _ rfl hmore) (hrefuse ..)

/-- A fetch that ends leaves its place to the request it brought. -/
theorem keeps_fetchDone (ch : Fin 4) (record buffer : Bytes) (s : State) : KeepsBounds s (exec (.fetchDone ch record buffer) s) := by
  by_cases hf : (s.windows.get ch).state ≠ .active ∨ !(s.windows.get ch).fetching
  · exact ⟨s, if_pos hf, rfl, id⟩
  · have hfetch : (s.windows.get ch).fetching = true := by simpa using (not_or.mp hf).2
    obtain ⟨t, ht, hkeeps⟩ := KeepsBounds.settled (s := s)
      (u := s.mapWindow ch fun v => { v with fetching := false, requestConsume := v.requestConsume + 1 })
      (w := s.works.admitRequest ch record buffer) rfl fun hs => hs.admitRequest ch record buffer fun i => by
        simp only [State.room, State.mapWindow, Quad.get_modify, eq_comm (a := ch)]
        split
        · subst_vars
          simp [Window.room, hfetch, Config.inProgress]
        · exact le_rfl
    exact ⟨t, (if_neg hf).trans ht, hkeeps⟩

theorem keeps_responseWrite (ch : Fin 4) (s : State) : KeepsBounds s (exec (.responseWrite ch) s) := by
  simp only [exec, execResponseWrite]
  split
  · exact .outside rfl rfl (State.room_mapWindow (Window.room_of_fetching rfl))
  · exact .next s

/-- A queue that has given a response takes one more. -/
theorem Works.Fits.givePlace (h : w.Fits lim) (ch : Fin 4) (hroom : (w.port.out.get ch).length < Config.outbound) :
    (w.givePlace x ch).Fits lim := by
  unfold Works.givePlace
  dsimp only
  split
  · split
    · exact h.withPort (h.1.push _ _ _ hroom)
    · exact h
  · split
    · exact h
    · refine h.withPort (.leave ?_ _)
      exact h.1.thin (Quad.length_push_le h.1.1 hroom) (List.Sublist.refl _) le_rfl

theorem keeps_responseWriteDone (ch : Fin 4) (s : State) : KeepsBounds s (exec (.responseWriteDone ch) s) := by
  simp only [exec, execResponseWriteDone]
  refine .ite (.next s) ?_
  split
  · exact .next s
  · next resp l hout =>
    refine .settled rfl fun hs => ?_
    have hlen : l.length < Config.outbound := by
      have := hs.1.1 ch
      rw [hout, List.length_cons] at this
      exact this
    have hset (i : Fin 4) : ((s.works.port.out.set ch l).get i).length ≤ Config.outbound := by
      rw [Quad.get_set]
      split
      · exact hlen.le
      · exact hs.1.1 i
    have htaken : ({ s.works with port := { s.works.port with out := s.works.port.out.set ch l } } : Works).Fits s.room :=
      hs.withPort (hs.1.thin hset (List.Sublist.refl _) le_rfl)
    refine (htaken.givePlace ch ?_).weaken (State.room_mapWindow (s := s) (Window.room_of_fetching rfl))
    exact (congrArg List.length (Quad.get_set_self ..)).trans_lt hlen

theorem keeps_hostAccessFailure (ch : Fin 4) (access : HostAccess) (s : State) :
    KeepsBounds s (exec (.hostAccessFailure ch access) s) := by
  refine .ite (.next s) (.settled rfl fun hs => ?_)
  exact (hs.withPort (hs.1.discard ch)).weaken (State.room_mapWindow (s := s) (Window.room_le rfl))

theorem keeps_bufferWriteDone (ch : Fin 4) (s : State) : KeepsBounds s (exec (.bufferWriteDone ch) s) := by
  simp only [exec, execBufferWriteDone]
  split
  · exact .next s
  · refine .units rfl rfl fun hs => .done ?_ ..
    exact hs

end Sys2Proof.Machine
end

section
/-!
SUPPORT. The remaining commands keep the bounds of the units, and with them every command does.
-/

namespace Sys2Proof.Machine

variable {lim : Fin 4 → Nat} {w : Works} {x : Ctx}

/-! ## Settings and start-up -/

theorem Works.Fits.marksTuned (h : w.Fits lim) : (w.marksTuned x).Fits lim := .addTasks (.foldl (fun _ _ hw => hw.lowTest _) _ h) _

theorem Works.Fits.preferenceTuned (h : w.Fits lim) : w.preferenceTuned.Fits lim :=
  .foldl (fun _ mc hw => hw.mapChan mc fun hc => hc) _ h

theorem Works.Fits.tuned (h : w.Fits lim) (old : Settings) (mask : Nat) : (w.tuned x old mask).Fits lim := by
  have hwhen (f : Works → Works) (hf : ∀ {w : Works}, w.Fits lim → (f w).Fits lim) {c : Prop} {_ : Decidable c} {w : Works}
      (hw : w.Fits lim) : (if c then f w else w).Fits lim := .ite (hf hw) hw
  refine .postKinds ?_ _
  refine hwhen (fun w => w.preferenceTuned) Works.Fits.preferenceTuned ?_
  refine hwhen (fun w => w.marksTuned x) Works.Fits.marksTuned ?_
  refine hwhen (fun w => w.mapScrub fun s => { s with timerFrom := x.clock }) (fun hw => hw.mapScrub _) ?_
  refine hwhen (fun w => w.idleTuned x) Works.Fits.idleTuned ?_
  refine hwhen (fun w => w.holdTuned x) Works.Fits.holdTuned ?_
  refine hwhen (fun w => w.addTasks (w.intake.latePairs.map fun p => .mergeTest p.1 p.2)) (fun hw => hw.addTasks _) ?_
  exact hwhen (fun w => w.endStalled x) Works.Fits.endStalled h

theorem keeps_status (ch : Fin 4) (s : State) : KeepsBounds s (exec (.status ch) s) := by
  refine .serve fun hs r => ?_
  split
  · exact .ite (hs.report ..) (hs.refuse ..)
  · trivial

theorem keeps_tune (ch : Fin 4) (s : State) : KeepsBounds s (exec (.tune ch) s) := by
  simp only [exec, execTune]
  split
  · exact .next s
  · split
    · split
      · exact .units rfl rfl fun hs => hs.refuseWith ..
      · exact .units rfl rfl fun hs => (hs.tuned ..).report ..
    · exact .next s

theorem keeps_configure (ch : Fin 4) (s : State) : KeepsBounds s (exec (.configure ch) s) := by
  simp only [exec, execConfigure]
  split
  · exact .next s
  · split
    · refine .ite (.units rfl rfl fun hs => hs.refuse ..) ?_
      split
      · exact .units rfl rfl fun hs => hs.refuseWith ..
      · exact .units rfl rfl fun hs => hs.restart.done ..
    · exact .next s

/-! ## Operations of the requests -/

theorem Works.Fits.openCursor (h : w.Fits lim) (r : Req) (account fromDay toDay : Nat) (filter : Option Nat) (visibility : Nat) :
    (w.openCursor x r account fromDay toDay filter visibility).Fits lim := by
  unfold Works.openCursor
  split
  · exact h.refuse ..
  · refine .ite (h.refuse ..) ?_
    split
    · exact h.refuse ..
    · exact (h.setCursor ..).done ..

theorem Works.Fits.closeCursor (h : w.Fits lim) (r : Req) (n generation : Nat) : (w.closeCursor r n generation).Fits lim :=
  .ite (h.refuse ..) (.ite (h.refuse ..) (.ite (h.refuse ..) ((h.freeCursor _).done ..)))

theorem Works.Fits.readCursor (h : w.Fits lim) (r : Req) (number generation : Nat) (mode : ReadMode) (n : Nat) :
    (w.readCursor r number generation mode n).Fits lim :=
  .ite (h.refuse ..) (.ite (h.refuse ..) (.ite (h.refuse ..) ((h.setCursor ..).take _)))

theorem Works.Fits.lookupCall (h : w.Fits lim) (r : Req) (id : Identity) (visibility : Nat) : (w.lookupCall r id visibility).Fits lim := by
  unfold Works.lookupCall
  split
  · exact h.refuse ..
  · refine .ite (h.refuse ..) (.task (.take ?_ _) _)
    exact h.withEnquiry rfl

theorem Works.Fits.roll (h : w.Fits lim) (closing : List Nat) : (w.roll x closing).Fits lim :=
  ((Works.Fits.foldl (fun _ _ hw => hw.beginClosing _) closing h).autoRelease _).startSweep

theorem Works.Fits.markAgain (h : w.Fits lim) (mc : Fin 4) (o : Op) : (w.markAgain mc o).Fits lim :=
  (h.mapChan mc fun hc => hc.repeatOp _).task _

/-! ## Requests of one kind

Each of these commands takes the oldest request handed to its unit, when it is of the command's kind. -/

theorem keeps_archiveReset (ch : Fin 4) (s : State) : KeepsBounds s (exec (.archiveReset ch) s) := by
  refine .serve fun hs r => ?_
  split
  · exact hs.archiveReset r
  · trivial

theorem keeps_openFile (ch : Fin 4) (s : State) : KeepsBounds s (exec (.openFile ch) s) := by
  refine .serve fun hs r => ?_
  split
  · exact hs.openFile ..
  · trivial

theorem keeps_ingestParcel (ch : Fin 4) (s : State) : KeepsBounds s (exec (.ingestParcel ch) s) := by
  refine .serve fun hs r => ?_
  split
  · exact hs.ingest ..
  · trivial

theorem keeps_closeFile (ch : Fin 4) (s : State) : KeepsBounds s (exec (.closeFile ch) s) := by
  refine .serve fun hs r => ?_
  split
  · exact hs.closeFile ..
  · trivial

theorem keeps_abandonFile (ch : Fin 4) (s : State) : KeepsBounds s (exec (.abandonFile ch) s) := by
  refine .serve fun hs r => ?_
  split
  · exact hs.abandonFile ..
  · trivial

theorem keeps_forgetFile (ch : Fin 4) (s : State) : KeepsBounds s (exec (.forgetFile ch) s) := by
  refine .serve fun hs r => ?_
  split
  · exact hs.forgetFile ..
  · trivial

theorem keeps_fileState (ch : Fin 4) (s : State) : KeepsBounds s (exec (.fileState ch) s) := by
  refine .serve fun hs r => ?_
  split
  · exact hs.fileState ..
  · trivial

theorem keeps_openCursor (ch : Fin 4) (s : State) : KeepsBounds s (exec (.openCursor ch) s) := by
  refine .serve fun hs r => ?_
  split
  · exact hs.openCursor ..
  · trivial

theorem keeps_closeCursor (ch : Fin 4) (s : State) : KeepsBounds s (exec (.closeCursor ch) s) := by
  refine .serve fun hs r => ?_
  split
  · exact hs.closeCursor ..
  · trivial

theorem keeps_lookupCall (ch : Fin 4) (s : State) : KeepsBounds s (exec (.lookupCall ch) s) := by
  refine .serve fun hs r => ?_
  split
  · exact hs.lookupCall ..
  · trivial

theorem keeps_abandonBatch (ch : Fin 4) (s : State) : KeepsBounds s (exec (.abandonBatch ch) s) := by
  refine .serve fun hs r => ?_
  split
  · exact hs.abandonBatch _
  · trivial

theorem keeps_placeHold (ch : Fin 4) (s : State) : KeepsBounds s (exec (.placeHold ch) s) := by
  refine .serve fun hs r => ?_
  split
  · exact hs.placeHold ..
  · trivial

theorem keeps_releaseHold (ch : Fin 4) (s : State) : KeepsBounds s (exec (.releaseHold ch) s) := by
  refine .serve fun hs r => ?_
  split
  · exact hs.releaseHoldReq ..
  · trivial

theorem keeps_holdState (ch : Fin 4) (s : State) : KeepsBounds s (exec (.holdState ch) s) := by
  refine .serve fun hs r => ?_
  split
  · exact hs.holdState ..
  · trivial

theorem keeps_sweep (ch : Fin 4) (s : State) : KeepsBounds s (exec (.sweep ch) s) := by
  refine .serve fun hs r => ?_
  split
  · exact hs.sweepReq _
  · trivial

theorem keeps_auditDay (ch : Fin 4) (s : State) : KeepsBounds s (exec (.auditDay ch) s) := by
  refine .serve fun hs r => ?_
  split
  · exact hs.auditDay ..
  · trivial

theorem keeps_forward (ch : Fin 4) (s : State) : KeepsBounds s (exec (.forward ch) s) := by
  refine .serve fun hs r => ?_
  split
  · split
    · exact hs.readCursor ..
    · split
      · exact hs.refuse ..
      · trivial
  · trivial

theorem keeps_skipForward (ch : Fin 4) (s : State) : KeepsBounds s (exec (.skipForward ch) s) := by
  refine .serve fun hs r => ?_
  split
  · split
    · exact hs.readCursor ..
    · trivial
  · trivial

theorem keeps_backward (ch : Fin 4) (s : State) : KeepsBounds s (exec (.backward ch) s) := by
  refine .serve fun hs r => ?_
  split
  · split
    · exact hs.readCursor ..
    · trivial
  · trivial

theorem keeps_peek (ch : Fin 4) (s : State) : KeepsBounds s (exec (.peek ch) s) := by
  refine .serve fun hs r => ?_
  split
  · split
    · exact hs.readCursor ..
    · trivial
  · trivial

theorem keeps_amendClose (ch : Fin 4) (s : State) : KeepsBounds s (exec (.amendClose ch) s) := by
  refine .serve fun hs r => ?_
  split
  · split
    · exact hs.amendClose ..
    · trivial
  · trivial

theorem keeps_amend (ch : Fin 4) (s : State) : KeepsBounds s (exec (.amend ch) s) := by
  refine .serve fun hs r => ?_
  split
  · split
    · trivial
    · exact hs.amendCollect ..
  · trivial

theorem keeps_closeDay (ch : Fin 4) (s : State) : KeepsBounds s (exec (.closeDay ch) s) := by
  refine .serve fun hs r => ?_
  split
  · dsimp only [Option.elim_some]
    split
    · exact hs.refuse ..
    · exact .done (.ite (hs.beginClosing _) hs) ..
  · trivial

theorem keeps_dayState (ch : Fin 4) (s : State) : KeepsBounds s (exec (.dayState ch) s) := by
  refine .serve fun hs r => ?_
  split
  · refine .ite (hs.refuse ..) ?_
    split
    · exact hs.refuse ..
    · exact hs.report ..
  · trivial

/-! ## Requests that change the configuration -/

theorem keeps_dayRoll (ch : Fin 4) (s : State) : KeepsBounds s (exec (.dayRoll ch) s) := by
  simp only [exec, execDayRoll]
  split
  · exact .next s
  · split
    · exact .ite (.units rfl rfl fun hs => hs.refuse ..) (.units rfl rfl fun hs => (hs.roll _).done ..)
    · exact .next s

theorem keeps_setClassTable (ch : Fin 4) (s : State) : KeepsBounds s (exec (.setClassTable ch) s) := by
  simp only [exec, execSetClassTable]
  split
  · exact .next s
  · split
    · split
      · exact .units rfl rfl fun hs => hs.refuseWith ..
      · exact .units rfl rfl fun hs => hs.done ..
    · exact .next s

theorem keeps_setPolicy (ch : Fin 4) (s : State) : KeepsBounds s (exec (.setPolicy ch) s) := by
  simp only [exec, execSetPolicy]
  split
  · exact .next s
  · split
    · split
      · exact .units rfl rfl fun hs => hs.refuseWith ..
      · exact .units rfl rfl fun hs => hs.done ..
    · exact .next s

/-! ## Events of the units -/

theorem keeps_recordIntake (slot : Nat) (s : State) : KeepsBounds s (exec (.recordIntakeEvent slot) s) :=
  .settledWith fun hs => hs.recordIntake slot

theorem keeps_restoreIntake (slot : Nat) (s : State) : KeepsBounds s (exec (.restoreRecordIntake slot) s) :=
  .settledWith fun hs => hs.restoreIntake slot

theorem keeps_stallLimit (slot : Nat) (s : State) : KeepsBounds s (exec (.stallLimit slot) s) := by
  simp only [exec, execStallLimit]
  split
  · exact .next s
  · exact .units rfl rfl fun hs => hs.endParcel ..

theorem keeps_packing (day : Nat) (s : State) : KeepsBounds s (exec (.packing day) s) := by
  simp only [exec, execPacking]
  split
  · exact .next s
  · exact .units rfl rfl fun hs => hs.beginPacking _

theorem keeps_mergeDelayExpiry (day cls : Nat) (s : State) : KeepsBounds s (exec (.mergeDelayExpiry day cls) s) := by
  simp only [exec, execMergeDelayExpiry]
  split
  · exact .next s
  · exact .units rfl rfl fun hs => hs.mergeTest ..

theorem keeps_readStep (n : Fin 16) (s : State) : KeepsBounds s (exec (.readStep n) s) := .settledWith fun hs => hs.readStep _

theorem keeps_waitLimit (waiter : Waiter) (s : State) : KeepsBounds s (exec (.waitLimit waiter) s) := by
  simp only [exec, execWaitLimit]
  split
  · split
    · exact .next s
    · exact .units rfl rfl fun hs => hs.waitEnds _
  · split
    · exact .next s
    · exact .units rfl rfl fun hs => hs.lookupRefused ..

theorem keeps_holdWindowExpiry (n : Fin 16) (s : State) : KeepsBounds s (exec (.holdWindowExpiry n) s) := by
  simp only [exec, execHoldWindowExpiry]
  split
  · exact .next s
  · exact .units rfl rfl fun hs => hs.dropPrefetch _

theorem keeps_idleExpiry (n : Fin 16) (s : State) : KeepsBounds s (exec (.idleExpiry n) s) := by
  simp only [exec, execIdleExpiry]
  split
  · exact .next s
  · exact .units rfl rfl fun hs => hs.freeCursor _

theorem keeps_scrubTimerExpiry (s : State) : KeepsBounds s (exec .scrubTimerExpiry s) :=
  .ite (.next s) (.units rfl rfl fun hs => hs.scrubExpiry _)

theorem keeps_rebuildScan (s : State) : KeepsBounds s (exec .rebuildScan s) := .ite (.units rfl rfl fun hs => hs.rebuildScan) (.next s)

/-! ## Events of the media channels -/

theorem keeps_programDone (mc : Fin 4) (result : ProgramEnd) (s : State) : KeepsBounds s (exec (.programDone mc result) s) := by
  simp only [exec, execProgramDone]
  split
  · exact .next s
  · split
    · exact .units rfl rfl fun hs => .ite (hs.opEnded _) (hs.programEnded ..)
    · exact .units rfl rfl fun hs => .ite (hs.opEnded _) (hs.copyEnded ..)
    · exact .next s

theorem keeps_mediaReadDone (mc : Fin 4) (result : ReadEnd) (s : State) : KeepsBounds s (exec (.mediaReadDone mc result) s) := by
  simp only [exec, execMediaReadDone]
  split
  · exact .next s
  · split
    · exact .units rfl rfl fun hs => .ite (hs.opEnded _) (.ite (hs.scanRead ..) (hs.readEnded ..))
    · exact .next s

theorem keeps_voidMarkDone (mc : Fin 4) (result : MarkEnd) (s : State) : KeepsBounds s (exec (.voidMarkDone mc result) s) := by
  simp only [exec, execVoidMarkDone]
  split
  · exact .next s
  · split
    · exact .units rfl rfl fun hs => .ite (hs.opEnded _) (.ite (hs.voidEnded ..) (hs.markAgain ..))
    · exact .next s

theorem keeps_clearDone (mc : Fin 4) (result : ClearEnd) (s : State) : KeepsBounds s (exec (.clearDone mc result) s) := by
  simp only [exec, execClearDone]
  split
  · exact .next s
  · split
    · exact .units rfl rfl fun hs => .ite (hs.opEnded _) (.ite (hs.cleared ..) ((hs.askOp ..).opEnded _))
    · exact .next s

theorem keeps_retireMarkDone (mc : Fin 4) (result : MarkEnd) (s : State) : KeepsBounds s (exec (.retireMarkDone mc result) s) := by
  simp only [exec, execRetireMarkDone]
  split
  · exact .next s
  · split
    · exact .units rfl rfl fun hs => .ite (hs.opEnded _) (.ite (hs.retired ..) (hs.markAgain ..))
    · exact .next s

theorem keeps_readyTimeout (mc : Fin 4) (torn : Torn) (s : State) : KeepsBounds s (exec (.readyTimeout mc torn) s) := by
  simp only [exec, execReadyTimeout]
  split
  · exact .next s
  · exact .ite (.next s) (.units rfl rfl fun hs => hs.fault _)

theorem keeps_probe (mc : Fin 4) (s : State) : KeepsBounds s (exec (.probe mc) s) :=
  .ite (.next s) (.units rfl rfl fun hs => hs.mapChan mc fun hc => hc)

theorem keeps_probeReady (mc : Fin 4) (s : State) : KeepsBounds s (exec (.probeReady mc) s) :=
  .ite (.units rfl rfl fun hs => hs.probeReady _) (.next s)

theorem keeps_probeFailed (mc : Fin 4) (s : State) : KeepsBounds s (exec (.probeFailed mc) s) :=
  .ite (.units rfl rfl fun hs => hs.mapChan mc fun hc => hc) (.next s)

/-! ## Every command -/

/-- Settles O2: each command changes the units by operations that keep their bounds, and its consequences keep them too. -/
theorem everyCommandEndsInANextState : Obligations.EveryCommandEndsInANextState := by
  intro c s
  change KeepsBounds s (exec c s)
  cases c with
  | powerOn torn => exact keeps_powerOn torn s
  | portReset => exact keeps_portReset s
  | setupEvent ch value => exact keeps_setupEvent ch value s
  | requestFillIndexWrite ch value => exact keeps_fillWrite ch value s
  | responseConsumeIndexWrite ch value => exact keeps_consumeWrite ch value s
  | registerWrite ch field value => exact keeps_registerWrite ch field value s
  | vectorUnmask ch => exact .outside rfl rfl fun _ => le_rfl
  | requestFetch ch => exact keeps_requestFetch ch s
  | fetchDone ch record buffer => exact keeps_fetchDone ch record buffer s
  | responseWrite ch => exact keeps_responseWrite ch s
  | responseWriteDone ch => exact keeps_responseWriteDone ch s
  | interruptDelayExpiry ch => exact .ite (.outside rfl rfl fun _ => le_rfl) (.next s)
  | hostAccessFailure ch access => exact keeps_hostAccessFailure ch access s
  | bufferWriteDone ch => exact keeps_bufferWriteDone ch s
  | abandonBatch ch => exact keeps_abandonBatch ch s
  | abandonFile ch => exact keeps_abandonFile ch s
  | amend ch => exact keeps_amend ch s
  | amendClose ch => exact keeps_amendClose ch s
  | archiveReset ch => exact keeps_archiveReset ch s
  | auditDay ch => exact keeps_auditDay ch s
  | closeCursor ch => exact keeps_closeCursor ch s
  | closeDay ch => exact keeps_closeDay ch s
  | closeFile ch => exact keeps_closeFile ch s
  | configure ch => exact keeps_configure ch s
  | dayRoll ch => exact keeps_dayRoll ch s
  | dayState ch => exact keeps_dayState ch s
  | fileState ch => exact keeps_fileState ch s
  | forgetFile ch => exact keeps_forgetFile ch s
  | holdState ch => exact keeps_holdState ch s
  | ingestParcel ch => exact keeps_ingestParcel ch s
  | lookupCall ch => exact keeps_lookupCall ch s
  | openCursor ch => exact keeps_openCursor ch s
  | openFile ch => exact keeps_openFile ch s
  | placeHold ch => exact keeps_placeHold ch s
  | forward ch => exact keeps_forward ch s
  | skipForward ch => exact keeps_skipForward ch s
  | backward ch => exact keeps_backward ch s
  | peek ch => exact keeps_peek ch s
  | releaseHold ch => exact keeps_releaseHold ch s
  | setClassTable ch => exact keeps_setClassTable ch s
  | setPolicy ch => exact keeps_setPolicy ch s
  | status ch => exact keeps_status ch s
  | sweep ch => exact keeps_sweep ch s
  | tune ch => exact keeps_tune ch s
  | recordIntakeEvent slot => exact keeps_recordIntake slot s
  | restoreRecordIntake slot => exact keeps_restoreIntake slot s
  | stallLimit slot => exact keeps_stallLimit slot s
  | packing day => exact keeps_packing day s
  | mergeDelayExpiry day cls => exact keeps_mergeDelayExpiry day cls s
  | programDone mc result => exact keeps_programDone mc result s
  | mediaReadDone mc result => exact keeps_mediaReadDone mc result s
  | voidMarkDone mc result => exact keeps_voidMarkDone mc result s
  | clearDone mc result => exact keeps_clearDone mc result s
  | retireMarkDone mc result => exact keeps_retireMarkDone mc result s
  | readyTimeout mc torn => exact keeps_readyTimeout mc torn s
  | probe mc => exact keeps_probe mc s
  | probeReady mc => exact keeps_probeReady mc s
  | probeFailed mc => exact keeps_probeFailed mc s
  | relocationWalk mc => exact .units rfl rfl fun hs => hs.relocationStep mc
  | readStep n => exact keeps_readStep n s
  | waitLimit waiter => exact keeps_waitLimit waiter s
  | holdWindowExpiry n => exact keeps_holdWindowExpiry n s
  | idleExpiry n => exact keeps_idleExpiry n s
  | sweepWalk => exact .units rfl rfl fun hs => hs.sweepWalk
  | auditWalk => exact .units rfl rfl fun hs => hs.auditWalk
  | scrubTimerExpiry => exact keeps_scrubTimerExpiry s
  | rebuildScan => exact keeps_rebuildScan s
  | vectorMask ch => exact .outside rfl rfl fun _ => le_rfl

end Sys2Proof.Machine
end
